-- ==== Sys2Proof/Word.lean ====
section
/-! DEFINITION. Sys2Proof/Word.lean: the words of the Bolarron (spec/00_scope.md R8, R636) and the coordinates of its
units (R13, R14). Little-endian byte lists and field access by bit numbers live in Machine/Bits.lean. -/

namespace Sys2Proof

abbrev Byte := BitVec 8
abbrev W16 := BitVec 16
abbrev W32 := BitVec 32
abbrev W64 := BitVec 64
abbrev W128 := BitVec 128
abbrev W256 := BitVec 256
abbrev W512 := BitVec 512

/-- A hardware tile t0 to t9 (R14). -/
abbrev Tile := Fin 10
/-- A logical cluster c0 to c7 of a tile (R14). -/
abbrev Cluster := Fin 8
/-- A logical core k0 to k11 of a cluster (R14). -/
abbrev CoreIx := Fin 12
/-- One of the four matrix arrays of a core (R14, R16). -/
abbrev ArrayIx := Fin 4

/-- A logical core tT.cC.kK (R13). -/
structure CoreId where
  tile : Tile
  cluster : Cluster
  core : CoreIx
  deriving DecidableEq, Repr

/-- The logical core index 96t + 12c + k (R539). -/
def CoreId.idx (c : CoreId) : Nat := 96 * c.tile.val + 12 * c.cluster.val + c.core.val

/-- A logical cluster's index 8t + c (R358). -/
def CoreId.clusterIdx (c : CoreId) : Nat := 8 * c.tile.val + c.cluster.val

/-- A value kept with its bitwise complement (R550, spec/00_scope.md's terms). `cmp` is what the complement word says the
value is, so the twin checks exactly when the two agree. -/
structure Twin (α : Type) where
  val : α
  cmp : α
  deriving DecidableEq, Repr

end Sys2Proof
end

