-- ==== Sys2Proof/Machine/Bits.lean ====
section
/-! DEFINITION. Sys2Proof/Machine/Bits.lean: bit fields, little-endian bytes (R8, R9, R636), the two cyclic redundancy checks the
manual names (R55, R329), and the sparse maps State is made of. -/

namespace Sys2Proof

/-- Bits [hi:lo] of a number (R8 writes ranges high to low). -/
def bitsOf (w hi lo : Nat) : Nat := (w >>> lo) % 2 ^ (hi - lo + 1)

/-- One bit of a number. -/
def bitOf (w i : Nat) : Bool := w.testBit i

/-- A Boolean as a bit. -/
def b2n (b : Bool) : Nat := if b then 1 else 0

/-- A field's value placed at bit lo, cut to its width (a field map is the sum of its fields, R8). -/
def putBits (hi lo v : Nat) : Nat := (v % 2 ^ (hi - lo + 1)) <<< lo

/-- `n` little-endian bytes of a number (R636: earlier bytes in lower bits). -/
def leBytes : Nat → Nat → List Byte
  | 0, _ => []
  | n + 1, w => BitVec.ofNat 8 w :: leBytes n (w >>> 8)

/-- The number that little-endian bytes spell. -/
def leNat : List Byte → Nat
  | [] => 0
  | b :: bs => b.toNat + 256 * leNat bs

/-- `n` big-endian bytes of a number (R443, R597 key and signature fields). -/
def beBytes (n w : Nat) : List Byte := (leBytes n w).reverse

/-- The number that big-endian bytes spell. -/
def beNat (bs : List Byte) : Nat := leNat bs.reverse

/-- `n` bytes from position `i`; bytes beyond the end read as nothing. -/
def slice (bs : List Byte) (i n : Nat) : List Byte := (bs.drop i).take n

/-- A little-endian number of `n` bytes at byte `i`. -/
def leAt (bs : List Byte) (i n : Nat) : Nat := leNat (slice bs i n)

/-- `n` zero bytes. -/
def zeros (n : Nat) : List Byte := List.replicate n 0

/-- A byte list made exactly `n` long, cut or zero-padded. -/
def padTo (n : Nat) (bs : List Byte) : List Byte := bs.take n ++ zeros (n - bs.length)

/-- Ceiling division. -/
def ceilDiv (a b : Nat) : Nat := (a + b - 1) / b

/-- ASCII bytes of a string (R385, R411). -/
def ascii (s : String) : List Byte := s.toList.map fun c => BitVec.ofNat 8 c.toNat

/-- One byte into a CRC-16 of polynomial 0x1021, no reflection (R55). -/
def crc16Step (crc : BitVec 16) (b : Byte) : BitVec 16 :=
  (List.range 8).foldl
    (fun c _ => if c.msb then (c <<< 1) ^^^ 0x1021#16 else c <<< 1)
    (crc ^^^ (b.setWidth 16 <<< 8))

/-- The header check of R55: initial value 0xFFFF, no final inversion. -/
def crc16 (bs : List Byte) : BitVec 16 := bs.foldl crc16Step 0xFFFF#16

/-- One byte into the reflected CRC-32 of IEEE 802.3. -/
def crc32Step (crc : BitVec 32) (b : Byte) : BitVec 32 :=
  (List.range 8).foldl
    (fun c _ => if c.getLsbD 0 then (c >>> 1) ^^^ 0xEDB88320#32 else c >>> 1)
    (crc ^^^ b.setWidth 32)

/-- The CRC-32 of IEEE 802.3 (R329, R417, R456, R504, R582, R601). -/
def crc32 (bs : List Byte) : BitVec 32 := ~~~ (bs.foldl crc32Step 0xFFFFFFFF#32)

/-! Sparse maps: ascending keys, no entry equal to the default, so equal maps are equal lists. -/

/-- The entry of key `k`, or the default. -/
def Sparse.get {α : Type} (d : α) : List (Nat × α) → Nat → α
  | [], _ => d
  | (k', v) :: m, k => if k = k' then v else Sparse.get d m k

/-- Set key `k`, keeping the canonical form: writing the default removes the entry. -/
def Sparse.set {α : Type} [DecidableEq α] (d : α) : List (Nat × α) → Nat → α → List (Nat × α)
  | [], k, v => if v = d then [] else [(k, v)]
  | (k', v') :: m, k, v =>
    if k < k' then (if v = d then (k', v') :: m else (k, v) :: (k', v') :: m)
    else if k = k' then (if v = d then m else (k, v) :: m)
    else (k', v') :: Sparse.set d m k v

/-- The canonical form: keys strictly rising and no entry equal to the default. -/
def Sparse.wf {α : Type} [DecidableEq α] (d : α) (m : List (Nat × α)) : Bool :=
  m.all (fun e => decide (e.2 ≠ d)) && decide (m.Pairwise fun a b => a.1 < b.1)

/-- The value at `i`, changed by `f` (positions beyond the end are left alone). -/
def modifyAt {α : Type} : List α → Nat → (α → α) → List α
  | [], _, _ => []
  | a :: l, 0, f => f a :: l
  | a :: l, n + 1, f => a :: modifyAt l n f

/-- Insert before the first element that `lt` puts behind `a` (a stable, ordered insertion). -/
def insertBy {α : Type} (lt : α → α → Bool) (a : α) : List α → List α
  | [] => [a]
  | b :: l => if lt a b then a :: b :: l else b :: insertBy lt a l

/-- Stable insertion sort by a strict order. -/
def sortBy {α : Type} (lt : α → α → Bool) (l : List α) : List α :=
  l.foldl (fun acc a => insertBy lt a acc) []

/-- The number of set bits below bit `n`. -/
def popcountBelow (w n : Nat) : Nat := ((List.range n).filter fun i => w.testBit i).length

/-- The set bit positions below `n`, ascending. -/
def bitsSet (w n : Nat) : List Nat := (List.range n).filter fun i => w.testBit i

/-- The position of the smallest element satisfying `p`, if any. -/
def findIdxD {α : Type} (p : α → Bool) (l : List α) : Option Nat := l.findIdx? p

end Sys2Proof
end

