-- ==== Sys2Proof/Machine/Float.lean ====
section
/-! DEFINITION. Sys2Proof/Machine/Float.lean: exact values of the floating-point formats and their single rounding
(spec/02_number_formats.md R37, R44 to R47). Every operation is computed exactly and rounded once. -/

namespace Sys2Proof

/-- The exact value a code denotes: a NaN, an infinity, or (-1)^neg · m · 2^e (R46: NaN payloads and signs are not kept). -/
inductive FVal where
  | nan
  | inf (neg : Bool)
  | fin (neg : Bool) (m : Nat) (e : Int)
  deriving DecidableEq, Repr

/-- Which codes a binary format gives to non-finite values (R37). -/
inductive Specials where
  /-- All-ones exponent: infinity and NaNs (IEEE 754, bfloat16, E5M2). -/
  | ieee
  /-- Only S.1111.111 is a NaN, no infinity (E4M3). -/
  | e4m3
  /-- No non-finite codes (E3M2, E2M3, E2M1). -/
  | none
  deriving DecidableEq, Repr

/-- A binary format: exponent bits, fraction bits, bias, special codes (R35, R37). -/
structure FloatFmt where
  ebits : Nat
  mbits : Nat
  bias : Nat
  spec : Specials
  deriving DecidableEq, Repr

namespace FloatFmt
def b64 : FloatFmt := ⟨11, 52, 1023, .ieee⟩
def b32 : FloatFmt := ⟨8, 23, 127, .ieee⟩
def b16 : FloatFmt := ⟨5, 10, 15, .ieee⟩
def bf16 : FloatFmt := ⟨8, 7, 127, .ieee⟩
def e4m3 : FloatFmt := ⟨4, 3, 7, .e4m3⟩
def e5m2 : FloatFmt := ⟨5, 2, 15, .ieee⟩
def e3m2 : FloatFmt := ⟨3, 2, 3, .none⟩
def e2m3 : FloatFmt := ⟨2, 3, 1, .none⟩
def e2m1 : FloatFmt := ⟨2, 1, 1, .none⟩

/-- All bits of a code. -/
def width (f : FloatFmt) : Nat := 1 + f.ebits + f.mbits
/-- The weight exponent of the least subnormal bit. -/
def emin (f : FloatFmt) : Int := 1 - (f.bias : Int) - (f.mbits : Int)
/-- The magnitude code (sign cut off) of the largest finite value (R37). -/
def maxCode (f : FloatFmt) : Nat :=
  match f.spec with
  | .ieee => (2 ^ f.ebits - 1) * 2 ^ f.mbits - 1
  | .e4m3 => 2 ^ (f.ebits + f.mbits) - 2
  | .none => 2 ^ (f.ebits + f.mbits) - 1
/-- Whether the format has an infinity (R37). -/
def hasInf (f : FloatFmt) : Bool := f.spec == .ieee
/-- The canonical NaN code (R47); 0 where the format has none (R52). -/
def nanCode (f : FloatFmt) : Nat :=
  match f.spec with
  | .ieee => (2 ^ f.ebits - 1) * 2 ^ f.mbits + 2 ^ (f.mbits - 1)
  | .e4m3 => 2 ^ (f.ebits + f.mbits) - 1
  | .none => 0
/-- The magnitude code of infinity (formats of kind `ieee` only). -/
def infCode (f : FloatFmt) : Nat := (2 ^ f.ebits - 1) * 2 ^ f.mbits

/-- The exact value of a code (R37; subnormals keep their exact values, R45). -/
def decode (f : FloatFmt) (w : Nat) : FVal :=
  let neg := w.testBit (f.ebits + f.mbits)
  let mag := w % 2 ^ (f.ebits + f.mbits)
  let ex := mag / 2 ^ f.mbits
  let fr := mag % 2 ^ f.mbits
  if f.spec = .ieee ∧ ex = 2 ^ f.ebits - 1 then (if fr = 0 then .inf neg else .nan)
  else if f.spec = .e4m3 ∧ mag = 2 ^ (f.ebits + f.mbits) - 1 then .nan
  else if ex = 0 then .fin neg fr f.emin
  else .fin neg (2 ^ f.mbits + fr) (f.emin + (ex : Int) - 1)
end FloatFmt

namespace FVal

/-- Whether the value is NaN or an infinity (R53 NONFINITE). -/
def isNonfinite : FVal → Bool
  | .fin .. => false
  | _ => true
/-- Whether the value is +0 or -0. -/
def isZero : FVal → Bool
  | .fin _ m _ => m == 0
  | _ => false
def isNan : FVal → Bool
  | .nan => true
  | _ => false
def posZero : FVal := .fin false 0 0
def one : FVal := .fin false 1 0

/-- Negation (a NaN stays a NaN). -/
def negate : FVal → FVal
  | .nan => .nan
  | .inf n => .inf (!n)
  | .fin n m e => .fin (!n) m e
/-- Magnitude (used by the checksum lane, R81, R106). -/
def abs : FVal → FVal
  | .nan => .nan
  | .inf _ => .inf false
  | .fin _ m e => .fin false m e

/-- A signed integer times a power of two as a value; an exact zero is +0 (R47, under round-to-nearest-even). -/
def ofInt (v : Int) (e : Int) : FVal := .fin (decide (v < 0)) v.natAbs e
/-- The signed integer significand at the common exponent `e` (which is at most the value's own). -/
def scaled (neg : Bool) (m : Nat) (ex e : Int) : Int :=
  let v : Int := (m : Int) * 2 ^ (ex - e).toNat
  if neg then -v else v

/-- The exact sum. Both zeros negative give -0; every other zero sum is +0 (R46, R47). -/
def add : FVal → FVal → FVal
  | .nan, _ => .nan
  | _, .nan => .nan
  | .inf a, .inf b => if a = b then .inf a else .nan
  | .inf a, _ => .inf a
  | _, .inf b => .inf b
  | .fin a ma ea, .fin b mb eb =>
    if ma = 0 ∧ mb = 0 then .fin (a && b) 0 0
    else if ma = 0 then .fin b mb eb
    else if mb = 0 then .fin a ma ea
    else
      let e := min ea eb
      ofInt (scaled a ma ea e + scaled b mb eb e) e
/-- The exact product (0 × Inf is NaN). -/
def mul : FVal → FVal → FVal
  | .nan, _ => .nan
  | _, .nan => .nan
  | .inf a, .inf b => .inf (a != b)
  | .inf a, .fin b m _ => if m = 0 then .nan else .inf (a != b)
  | .fin a m _, .inf b => if m = 0 then .nan else .inf (a != b)
  | .fin a ma ea, .fin b mb eb => .fin (a != b) (ma * mb) (ea + eb)
def sub (a b : FVal) : FVal := add a (negate b)
/-- Multiply by 2^k exactly (MX scales, R38, R41). -/
def scale (k : Int) : FVal → FVal
  | .fin n m e => .fin n m (e + k)
  | v => v

/-- Strict and weak order of non-NaN values; -0 equals +0 (R168 CMP). -/
def lt : FVal → FVal → Bool
  | .nan, _ => false
  | _, .nan => false
  | .inf a, .inf b => a && !b
  | .inf a, _ => a
  | _, .inf b => !b
  | .fin a ma ea, .fin b mb eb =>
    let e := min ea eb
    decide (scaled a ma ea e < scaled b mb eb e)
def eq : FVal → FVal → Bool
  | .nan, _ => false
  | _, .nan => false
  | .inf a, .inf b => a == b
  | .inf _, _ => false
  | _, .inf _ => false
  | .fin a ma ea, .fin b mb eb =>
    let e := min ea eb
    decide (scaled a ma ea e = scaled b mb eb e)
def le (a b : FVal) : Bool := lt a b || eq a b
/-- The sign bit, meaningful for zeros too. -/
def sign : FVal → Bool
  | .nan => false
  | .inf n => n
  | .fin n _ _ => n
/-- IEEE 754-2019 minimum: NaN if either is NaN, -0 below +0 (R168). -/
def minimum (a b : FVal) : FVal :=
  if a.isNan || b.isNan then .nan
  else if lt a b then a else if lt b a then b
  else if a.sign then a else b
/-- IEEE 754-2019 maximum, with the same rules (R168). -/
def maximum (a b : FVal) : FVal :=
  if a.isNan || b.isNan then .nan
  else if lt b a then a else if lt a b then b
  else if a.sign then b else a

end FVal

/-- ⌊log2 n⌋ + 1, the bit length; 0 for 0. -/
def bitLen (n : Nat) : Nat := if n = 0 then 0 else n.log2 + 1

/-- How a rounding breaks an inexact value: to nearest even (R44) or by the random word of R176. -/
inductive RMode where
  | rne
  | stoch (r : Nat)
  deriving DecidableEq, Repr

/-- `m / 2^sh` rounded to an integer. Nearest, ties to even (R44); or up when r < ⌊f·2^32⌋ for the fraction f
truncated to 32 bits (R176). -/
def roundShift (mode : RMode) (m sh : Nat) : Nat :=
  let q := m >>> sh
  let r := m % 2 ^ sh
  match mode with
  | .rne =>
    if 2 * r > 2 ^ sh then q + 1
    else if 2 * r = 2 ^ sh then (if q % 2 = 1 then q + 1 else q)
    else q
  | .stoch rnd => if rnd < (r <<< 32) >>> sh then q + 1 else q

namespace FloatFmt

/-- The magnitude code of m·2^e rounded once, exponent unbounded above: codes above `maxCode` mean overflow. -/
def roundCode (f : FloatFmt) (mode : RMode) (m : Nat) (e : Int) : Nat :=
  if m = 0 then 0
  else
    let msb : Int := (bitLen m : Int) - 1 + e
    let lsb : Int := max (msb - (f.mbits : Int)) f.emin
    let q := if lsb ≤ e then m <<< (e - lsb).toNat else roundShift mode m (lsb - e).toNat
    (lsb - f.emin).toNat * 2 ^ f.mbits + q

/-- The code with its sign bit. -/
def withSign (f : FloatFmt) (neg : Bool) (mag : Nat) : Nat := b2n neg * 2 ^ (f.ebits + f.mbits) + mag

/-- An arithmetic result as a code: beyond the range it is ±Inf (R44, R120). -/
def encode (f : FloatFmt) : FVal → Nat
  | .nan => f.nanCode
  | .inf n => f.withSign n f.infCode
  | .fin n m e =>
    let c := f.roundCode .rne m e
    f.withSign n (if c > f.maxCode then f.infCode else c)

/-- A value rounded once into the format, as a value. -/
def round (f : FloatFmt) (v : FVal) : FVal := f.decode (f.encode v)

/-- Narrowing of R50: overflow saturates (SAT) or becomes ±Inf, or the canonical NaN where there is no infinity. -/
def narrow (f : FloatFmt) (mode : RMode) (nonsat : Bool) : FVal → Nat
  | .nan => f.nanCode
  | .inf n => if f.hasInf then f.withSign n f.infCode else f.nanCode
  | .fin n m e =>
    let c := f.roundCode mode m e
    if c > f.maxCode then
      (if nonsat then (if f.hasInf then f.withSign n f.infCode else f.nanCode) else f.withSign n f.maxCode)
    else f.withSign n c

def add (f : FloatFmt) (a b : FVal) : FVal := f.round (FVal.add a b)
def sub (f : FloatFmt) (a b : FVal) : FVal := f.round (FVal.sub a b)
def mul (f : FloatFmt) (a b : FVal) : FVal := f.round (FVal.mul a b)
/-- a·b + c rounded once (R168 FMA, R186, R332). -/
def fma (f : FloatFmt) (a b c : FVal) : FVal := f.round (FVal.add (FVal.mul a b) c)

/-- A quotient m1/m2 kept to enough bits for one correct rounding: 2^k more bits and a sticky bit below. -/
def quotient (m1 m2 : Nat) (e : Int) (neg : Bool) : FVal :=
  let k := 130 + bitLen m2
  let n := m1 <<< k
  .fin neg (2 * (n / m2) + (if n % m2 = 0 then 0 else 1)) (e - k - 1)

/-- Correctly rounded division (R186, R317, R332). -/
def div (f : FloatFmt) : FVal → FVal → FVal
  | .nan, _ => .nan
  | _, .nan => .nan
  | .inf _, .inf _ => .nan
  | .inf a, .fin b _ _ => .inf (a != b)
  | .fin a _ _, .inf b => .fin (a != b) 0 0
  | .fin a ma ea, .fin b mb eb =>
    if mb = 0 then (if ma = 0 then .nan else .inf (a != b))
    else if ma = 0 then .fin (a != b) 0 0
    else f.round (quotient ma mb (ea - eb) (a != b))

end FloatFmt

/-- Integer square root by bits, from bit `k` down. -/
def isqrtGo (n : Nat) : Nat → Nat → Nat
  | 0, r => if (r + 1) * (r + 1) ≤ n then r + 1 else r
  | k + 1, r =>
    let c := r + 2 ^ (k + 1)
    isqrtGo n k (if c * c ≤ n then c else r)
/-- ⌊√n⌋. -/
def isqrt (n : Nat) : Nat := isqrtGo n (bitLen n / 2 + 1) 0

/-- Correctly rounded square root (R186, R332). -/
def FloatFmt.sqrt (f : FloatFmt) : FVal → FVal
  | .nan => .nan
  | .inf n => if n then .nan else .inf false
  | .fin n m e =>
    if m = 0 then .fin n 0 0
    else if n then .nan
    else
      -- an even exponent and 140 more significand bits
      let odd := e % 2 ≠ 0
      let m' := (if odd then 2 * m else m) <<< 280
      let e' := (if odd then e - 1 else e) - 280
      let r := isqrt m'
      f.round (.fin false (2 * r + (if r * r = m' then 0 else 1)) (e' / 2 - 1))

/-- The tree of R149 and R315 over a list: merge(0, n) with the split at the largest power of two below n. -/
def treeFold {α : Type} (add : α → α → α) (zero : α) : Nat → List α → α
  | 0, l => l.headD zero
  | _ + 1, [] => zero
  | _ + 1, [a] => a
  | fuel + 1, l =>
    let half := 2 ^ (bitLen (l.length - 1) - 1)
    add (treeFold add zero fuel (l.take half)) (treeFold add zero fuel (l.drop half))

/-- merge(0, length) of R149. -/
def tree {α : Type} (add : α → α → α) (zero : α) (l : List α) : α := treeFold add zero l.length l

end Sys2Proof
end

