-- ==== Sys2Proof/Machine/Formats.lean ====
section
/-! DEFINITION. Sys2Proof/Machine/Formats.lean: the element formats and their conversions (spec/02_number_formats.md
R35 to R52), and the four-pass split of binary32 operands (R42). -/

namespace Sys2Proof

/-- The element formats (R35). -/
inductive Fmt where
  | binary64 | binary32 | binary16 | bfloat16 | fp8E4M3 | fp8E5M2
  | mxfp8E4M3 | mxfp8E5M2 | mxfp6E3M2 | mxfp6E2M3 | mxfp4E2M1 | mxint8 | int32
  deriving DecidableEq, Repr

/-- The two parts of R1. (DESIGN CHOICE, log 10) -/
inductive Part where
  | ywbl10 | ywbl10e
  deriving DecidableEq, Repr

namespace Fmt

/-- The 5-bit format code (R35). -/
def code : Fmt → Nat
  | .binary64 => 0x00 | .binary32 => 0x01 | .binary16 => 0x02 | .bfloat16 => 0x03
  | .fp8E4M3 => 0x04 | .fp8E5M2 => 0x05 | .mxfp8E4M3 => 0x06 | .mxfp8E5M2 => 0x07
  | .mxfp6E3M2 => 0x08 | .mxfp6E2M3 => 0x09 | .mxfp4E2M1 => 0x0A | .mxint8 => 0x0B | .int32 => 0x0C

/-- The format of a code; none for the reserved codes 0x0D to 0x1F (R35). -/
def ofCode (n : Nat) : Option Fmt :=
  match n with
  | 0x00 => some .binary64 | 0x01 => some .binary32 | 0x02 => some .binary16 | 0x03 => some .bfloat16
  | 0x04 => some .fp8E4M3 | 0x05 => some .fp8E5M2 | 0x06 => some .mxfp8E4M3 | 0x07 => some .mxfp8E5M2
  | 0x08 => some .mxfp6E3M2 | 0x09 => some .mxfp6E2M3 | 0x0A => some .mxfp4E2M1 | 0x0B => some .mxint8
  | 0x0C => some .int32
  | _ => none

/-- Bits per element (R36). -/
def bits : Fmt → Nat
  | .binary64 => 64
  | .binary32 | .int32 => 32
  | .binary16 | .bfloat16 => 16
  | .fp8E4M3 | .fp8E5M2 | .mxfp8E4M3 | .mxfp8E5M2 | .mxint8 => 8
  | .mxfp6E3M2 | .mxfp6E2M3 => 6
  | .mxfp4E2M1 => 4

/-- Whether the format carries MX scales (R36). -/
def isMx : Fmt → Bool
  | .mxfp8E4M3 | .mxfp8E5M2 | .mxfp6E3M2 | .mxfp6E2M3 | .mxfp4E2M1 | .mxint8 => true
  | _ => false

/-- Scale bytes of a tile (R58). -/
def scaleBytes (f : Fmt) : Nat := if f.isMx then 32 else 0
/-- Sorrel block bytes (R36): 16 elements. -/
def blockBytes (f : Fmt) : Nat := 2 * f.bits
/-- Dense tile bytes (R36): header, scales, 1024 elements. -/
def denseBytes (f : Fmt) : Nat := 16 + f.scaleBytes + 128 * f.bits
/-- Whether the part has the format's datapath (R1, R3, R36). -/
def present (f : Fmt) (p : Part) : Bool := !(f == .mxfp4E2M1 && p == .ywbl10e)
/-- Matrix array operands (R36). -/
def isOperand : Fmt → Bool
  | .binary64 | .int32 => false
  | _ => true

/-- The floating-point layout of an element (MXINT8 and INT32 have none). -/
def float : Fmt → Option FloatFmt
  | .binary64 => some .b64
  | .binary32 => some .b32
  | .binary16 => some .b16
  | .bfloat16 => some .bf16
  | .fp8E4M3 | .mxfp8E4M3 => some .e4m3
  | .fp8E5M2 | .mxfp8E5M2 => some .e5m2
  | .mxfp6E3M2 => some .e3m2
  | .mxfp6E2M3 => some .e2m3
  | .mxfp4E2M1 => some .e2m1
  | .mxint8 | .int32 => none

/-- emax for scaling (R37). -/
def emax : Fmt → Int
  | .mxfp8E4M3 => 8
  | .mxfp8E5M2 => 15
  | .mxfp6E3M2 => 4
  | .mxfp6E2M3 => 2
  | .mxfp4E2M1 => 2
  | _ => 0

/-- An element's exact value before MX scaling. MXINT8 is two's complement in steps of 2^-6 (R37; 0x80 is -2, R52). -/
def decodeElem (f : Fmt) (w : Nat) : FVal :=
  match f.float with
  | some ff => ff.decode w
  | none =>
    match f with
    | .mxint8 => FVal.ofInt (BitVec.ofNat 8 w).toInt (-6)
    | _ => FVal.ofInt (BitVec.ofNat 32 w).toInt 0

end Fmt

/-- An element's value under its MX scale byte: 2^(v-127) times the element; 0xFF makes it NaN (R38). -/
def scaledElem (f : Fmt) (scale : Byte) (w : Nat) : FVal :=
  if f.isMx then
    (if scale = 0xFF#8 then .nan else (f.decodeElem w).scale ((scale.toNat : Int) - 127))
  else f.decodeElem w

/-- Conversion to INT32: nearest even, saturating, NaN to 0 (R51). -/
def toInt32 : FVal → Nat
  | .nan => 0
  | .inf n => if n then 0x80000000 else 0x7FFFFFFF
  | .fin n m e =>
    let q := if 0 ≤ e then m <<< e.toNat else roundShift .rne m (-e).toNat
    if n then (if q ≥ 2 ^ 31 then 0x80000000 else (2 ^ 32 - q) % 2 ^ 32)
    else (if q ≥ 2 ^ 31 then 0x7FFFFFFF else q)

/-- A value as an element of a format without MX scales: R50 for floating-point targets; R51 for INT32, always to nearest-even. -/
def narrowElem (f : Fmt) (mode : RMode) (nonsat : Bool) (v : FVal) : Nat :=
  match f.float with
  | some ff => ff.narrow mode nonsat v
  | none => toInt32 v

/-- Widening conversion (R49): exact where it can be, else nearest even, beyond the range ±Inf. -/
def widenElem (f : Fmt) (v : FVal) : Nat :=
  match f.float with
  | some ff => ff.encode v
  | none => toInt32 v

/-- ⌊log2 |v|⌋ of a finite non-zero value. -/
def FVal.log2Floor : FVal → Int
  | .fin _ m e => (bitLen m : Int) - 1 + e
  | _ => 0

/-- |v| ≤ |w| for finite values, as in "largest magnitude in block" (R52). -/
def FVal.magMax (a b : FVal) : FVal := if FVal.lt a.abs b.abs then b.abs else a.abs

/-- The scale byte R52 gives a block of values. -/
def mxScale (f : Fmt) (vs : List FVal) : Byte :=
  if vs.any FVal.isNonfinite then 0xFF#8
  else
    let amax := vs.foldl FVal.magMax FVal.posZero
    let x : Int := if amax.isZero then -127 else amax.log2Floor - f.emax
    let x := max (-127) (min 127 x)
    BitVec.ofNat 8 (x + 127).toNat

/-- One element of R52 under the block's scale byte: rounded v/2^x, saturated symmetrically; 0 under the NaN scale. -/
def mxElem (f : Fmt) (scale : Byte) (mode : RMode) (v : FVal) : Nat :=
  if scale = 0xFF#8 then 0
  else
    let w := v.scale (127 - (scale.toNat : Int))
    match f.float, w with
    | some ff, w => ff.narrow mode false w
    | none, .fin n m e =>
      let q := if -6 ≤ e then m <<< (e + 6).toNat else roundShift mode m (-6 - e).toNat
      let q := min q 127
      if n then (256 - q) % 256 else q
    | none, _ => 0

/-- The hi part of R42: bits [11:0] of the binary32 code cleared; an infinite or NaN x gives hi = x. -/
def splitHi (w : Nat) : Nat :=
  if (w / 2 ^ 23) % 256 = 255 then w else w - w % 2 ^ 12
/-- The value hi and the value lo = x - hi (lo = +0 for an infinite or NaN x) (R42). -/
def split32 (w : Nat) : FVal × FVal :=
  let x := FloatFmt.b32.decode w
  let hi := FloatFmt.b32.decode (splitHi w)
  match x with
  | .fin .. =>
    let lo := FVal.sub x hi
    (hi, if lo.isZero then FVal.posZero else lo)
  | _ => (hi, FVal.posZero)

end Sys2Proof
end

