-- ==== Sys2Proof/Machine/Tiles.lean ====
section
/-! DEFINITION. Sys2Proof/Machine/Tiles.lean: the operand tile in memory, its header and its three forms, the tile directory
(spec/02_number_formats.md R53 to R66), and the checks of a reading unit (R54 to R56, R64, R68). -/

namespace Sys2Proof

/-- FORM of R53. -/
inductive Form where
  | zero | sorrel | dense
  deriving DecidableEq, Repr

def Form.code : Form → Nat
  | .zero => 0
  | .sorrel => 1
  | .dense => 2

/-- The tile header (R53) as read. -/
structure TileHdr where
  crc : Nat
  form : Nat
  nz : Nat
  nonfinite : Bool
  axis : Bool
  fmt : Nat
  ver : Nat
  bitmap : Nat
  deriving DecidableEq, Repr

/-- A tile's content: 1024 element codes row-major and 32 scale bytes (R39, R58). -/
structure Tile32 where
  fmt : Fmt
  axis : Bool
  nonfinite : Bool
  bitmap : Nat
  scales : Array Byte
  codes : Array Nat
  deriving DecidableEq, Repr

/-- The refusals of R68 for a tile. -/
inductive TileErr where
  | illegalFormat
  | headerCheck
  deriving DecidableEq, Repr

/-- The fields of a header's 16 bytes (R53). -/
def parseHdr (bs : List Byte) : TileHdr :=
  let w := leNat (bs.take 16)
  { crc := bitsOf w 127 112, form := bitsOf w 111 110, nz := bitsOf w 109 103, nonfinite := bitOf w 102,
    axis := bitOf w 101, fmt := bitsOf w 100 96, ver := bitsOf w 95 88, bitmap := bitsOf w 63 0 }

/-- The header word with the CRC given (R53; reserved bits 0). -/
def hdrWord (crc : Nat) (form : Form) (nz : Nat) (nonfinite axis : Bool) (fmt : Fmt) (bitmap : Nat) : Nat :=
  putBits 127 112 crc + putBits 111 110 form.code + putBits 109 103 nz + putBits 102 102 (b2n nonfinite)
    + putBits 101 101 (b2n axis) + putBits 100 96 fmt.code + putBits 95 88 1 + putBits 63 0 bitmap

/-- The tile's length in bytes from its form, format and NZ_COUNT (R58). -/
def tileLen (f : Fmt) (form nz : Nat) : Nat :=
  if form = 0 then 16
  else if form = 1 then 16 + f.scaleBytes + 16 * ceilDiv (nz * f.blockBytes) 16
  else f.denseBytes

/-- `8k` packed elements of `bits` bits: eight elements fill `bits` bytes (R59). -/
def unpack (bits : Nat) : Nat → List Byte → List Nat
  | 0, _ => []
  | k + 1, bs =>
    let w := leNat (bs.take bits)
    ((List.range 8).map fun j => bitsOf w (bits * j + bits - 1) (bits * j)) ++ unpack bits k (bs.drop bits)

/-- Elements packed from the least significant bit upward (R59). -/
def pack (bits : Nat) (cs : List Nat) : List Byte :=
  let rec go : Nat → List Nat → List Byte
    | 0, _ => []
    | fuel + 1, cs =>
      if cs.isEmpty then []
      else
        let w := ((cs.take 8).zipIdx).foldl (fun acc (c, j) => acc + putBits (bits * j + bits - 1) (bits * j) c) 0
        leBytes bits w ++ go fuel (cs.drop 8)
  go (cs.length / 8 + 1) cs

/-- The row-major element indices of block `b` = 8·br + bc (R53, R58). -/
def blockElems (b : Nat) : List Nat :=
  (List.range 16).map fun i => (4 * (b / 8) + i / 4) * 32 + 4 * (b % 8) + i % 4

/-- The scale byte of element (r, c): row scales under axis 0, column scales under axis 1 (R39). -/
def Tile32.scaleAt (t : Tile32) (r c : Nat) : Byte := t.scales.getD (if t.axis then c else r) 0

/-- The exact value of element (r, c) after MX scaling (R38). -/
def Tile32.val (t : Tile32) (r c : Nat) : FVal := scaledElem t.fmt (t.scaleAt r c) (t.codes.getD (32 * r + c) 0)

/-- Place the stored blocks of a Sorrel payload among zero codes (R58). -/
def placeBlocks (bitmap : Nat) (stored : List Nat) : Array Nat :=
  ((bitsSet bitmap 64).zipIdx).foldl
    (fun acc (b, i) =>
      ((blockElems b).zip ((stored.drop (16 * i)).take 16)).foldl (fun a (ix, v) => a.setIfInBounds ix v) acc)
    (Array.replicate 1024 0)

/-- The tile that a header and its following bytes hold (after the checks). -/
def decodeTile (f : Fmt) (h : TileHdr) (bs : List Byte) : Tile32 :=
  let body := bs.drop 16
  let scales := if f.isMx ∧ h.form ≠ 0 then (body.take 32).toArray else Array.replicate 32 0
  let payload := if h.form = 0 then [] else body.drop f.scaleBytes
  let codes :=
    if h.form = 2 then (unpack f.bits 128 payload).toArray
    else if h.form = 1 then placeBlocks h.bitmap (unpack f.bits (2 * h.nz) payload)
    else Array.replicate 1024 0
  { fmt := f, axis := h.axis, nonfinite := h.nonfinite, bitmap := h.bitmap, scales := scales, codes := codes }

/-- Some element is NaN or ±Inf after scaling (R53 NONFINITE). -/
def Tile32.hasNonfinite (t : Tile32) : Bool :=
  (List.range 1024).any fun i => (t.val (i / 32) (i % 32)).isNonfinite

/-- A block holds only ±0 after scaling (R60). -/
def Tile32.blockZero (t : Tile32) (b : Nat) : Bool :=
  (blockElems b).all fun i => (t.val (i / 32) (i % 32)).isZero

/-- R56: an absent block reaches an MX block whose scale byte is 0xFF. -/
def Tile32.absentUnderNan (t : Tile32) : Bool :=
  t.fmt.isMx && (List.range 64).any fun b =>
    !t.bitmap.testBit b && (blockElems b).any fun i => t.scaleAt (i / 32) (i % 32) == 0xFF#8

/-- The consistency rules of R54. -/
def hdrConsistent (h : TileHdr) : Bool :=
  match h.form with
  | 0 => h.nz == 0 && h.bitmap == 0 && !h.nonfinite
  | 1 => decide (1 ≤ h.nz ∧ h.nz ≤ 63) && (popcountBelow h.bitmap 64 == h.nz)
  | _ => h.nz == 64 && h.bitmap == 2 ^ 64 - 1

/-- HDR_CRC over header bytes 0 to 13 and everything after the header (R55). -/
def tileCrc (bs : List Byte) (len : Nat) : Nat := (crc16 (bs.take 14 ++ slice bs 16 (len - 16))).toNat

/-- ILLEGAL_FORMAT of R54: FORM 0b11, HDR_VER, reserved or absent FMT, or FMT other than the descriptor's. -/
def hdrFormat (p : Part) (want : Option Fmt) (h : TileHdr) : Except TileErr Fmt :=
  if h.form = 3 ∨ h.ver ≠ 1 then .error .illegalFormat
  else
    match Fmt.ofCode h.fmt with
    | none => .error .illegalFormat
    | some f =>
      if !f.present p then .error .illegalFormat
      else if want.isSome ∧ want ≠ some f then .error .illegalFormat
      else .ok f

/-- A directory entry (R64): OFFSET and SIZE in 16-byte units, and the copy of FORM. -/
structure DirEntry where
  offset : Nat
  size : Nat
  form : Nat
  deriving DecidableEq, Repr

def parseDir (w : Nat) : DirEntry := ⟨bitsOf w 63 28, bitsOf w 27 18, bitsOf w 17 16⟩
def DirEntry.word (d : DirEntry) : Nat := putBits 63 28 d.offset + putBits 27 18 d.size + putBits 17 16 d.form

/-- The checks of R54, R55 and R64 on the bytes from a tile's start; ILLEGAL_FORMAT takes precedence (R68). -/
def checkHdr (p : Part) (want : Option Fmt) (dir : Option DirEntry) (bs : List Byte) : Except TileErr (Fmt × TileHdr) :=
  let h := parseHdr bs
  match hdrFormat p want h with
  | .error e => .error e
  | .ok f =>
    let len := tileLen f h.form h.nz
    let dirBad := match dir with
      | some d => decide (d.form ≠ h.form) || decide (16 * d.size ≠ len)
      | none => false
    if !hdrConsistent h || dirBad || decide (tileCrc bs len ≠ h.crc) then .error .headerCheck
    else .ok (f, h)

/-- A tile as a decompressor takes it (R54 to R56). -/
def readTile (p : Part) (want : Option Fmt) (dir : Option DirEntry) (bs : List Byte) : Except TileErr Tile32 :=
  match checkHdr p want dir bs with
  | .error e => .error e
  | .ok (f, h) =>
    let t := decodeTile f h bs
    if (!t.nonfinite && t.hasNonfinite) || (h.form == 1 && t.absentUnderNan) then .error .headerCheck
    else .ok t

/-- Header and body of a tile with its CRC (R53, R55). -/
def sealTile (form : Form) (nz : Nat) (nonfinite axis : Bool) (f : Fmt) (bitmap : Nat) (body : List Byte) : List Byte :=
  let h0 := leBytes 14 (hdrWord 0 form nz nonfinite axis f bitmap)
  h0 ++ leBytes 2 (crc16 (h0 ++ body)).toNat ++ body

/-- A tile in dense form (R60: tensors not marked Sorrel; R87, R181). -/
def encodeDense (t : Tile32) : List Byte :=
  let scales := if t.fmt.isMx then t.scales.toList else []
  sealTile .dense 64 t.hasNonfinite t.axis t.fmt (2 ^ 64 - 1) (scales ++ pack t.fmt.bits t.codes.toList)

/-- What the compressor writes (R60): the bytes of the tile in zero, Sorrel or dense form. -/
def compress (t : Tile32) : List Byte :=
  let blocks := (List.range 64).filter fun b => !t.blockZero b
  let nz := blocks.length
  if nz = 0 then sealTile .zero 0 false t.axis t.fmt 0 []
  else if nz = 64 then encodeDense t
  else
    let bitmap := blocks.foldl (fun acc b => acc + 2 ^ b) 0
    let scales := if t.fmt.isMx then t.scales.toList else []
    let payload := blocks.flatMap fun b => pack t.fmt.bits ((blockElems b).map fun i => t.codes.getD i 0)
    sealTile .sorrel nz t.hasNonfinite t.axis t.fmt bitmap
      (scales ++ padTo (16 * ceilDiv (nz * t.fmt.blockBytes) 16) payload)

/-- The transposed tile (R40, R80, R272): SCALE_AXIS is inverted for an MX format, every scale kept. -/
def Tile32.transpose (t : Tile32) : Tile32 :=
  { t with
    codes := (Array.range 1024).map fun i => t.codes.getD (32 * (i % 32) + i / 32) 0
    bitmap := ((List.range 64).filter fun b => t.bitmap.testBit (8 * (b % 8) + b / 8)).foldl (fun a b => a + 2 ^ b) 0
    axis := if t.fmt.isMx then !t.axis else t.axis }

/-- A tile of +0 (an input index outside the tensor, R99; a masked k range, R246). -/
def zeroTile (f : Fmt) : Tile32 :=
  { fmt := f, axis := false, nonfinite := false, bitmap := 0, scales := Array.replicate 32 0, codes := Array.replicate 1024 0 }

/-- A dense tile of element codes (binary32 or binary64 raw sums, R87). -/
def tileOfCodes (f : Fmt) (codes : Array Nat) : Tile32 :=
  { fmt := f, axis := false, nonfinite := false, bitmap := 2 ^ 64 - 1, scales := Array.replicate 32 0, codes := codes }

end Sys2Proof
end

