-- ==== Sys2Proof/Machine/Status.lean ====
section
/-! DEFINITION. Sys2Proof/Machine/Status.lean: the status codes and Tansy event codes of the chapters' status tables (R12) and the
class R577 fixes for each. -/

namespace Sys2Proof

/-- One name per row of the chapters' status tables, with OK (R352) and LEAK_TRIP (R577). -/
inductive Status where
  | ok
  | illegalFormat
  | headerCheck
  | illegalOperand
  | arrayChecksum
  | boundSplit
  | splitAreaFull
  | statsMissing
  | sideFull
  | layerTable
  | deferredFull
  | capacityOverflow
  | routeDescriptor
  | segmentMismatch
  | receiveOverrun
  | addressFault
  | dmaDescriptor
  | memUncorrectable
  | memCorrected
  | dramRepair
  | poolEmpty
  | doubleFree
  | notFinalOwner
  | notCoOwner
  | ownerLimit
  | poolConfig
  | badHandle
  | deadlineOmit
  | nonfiniteOmit
  | versionGone
  | epochFenced
  | bucketSetup
  | paramsUnavailable
  | tagBusy
  | bucketLimit
  | gatherCheck
  | sealAbort
  | sealRootLost
  | permutePlan
  | staleContribution
  | okPartial
  | configRecord
  | configTooNew
  | configSerial
  | configDefaults
  | configMigrated
  | bootFallback
  | testRecord
  | selftestUnit
  | selftestTile
  | smokeMismatch
  | startTimeout
  | journalLost
  | sessionStale
  | duplicateRequest
  | sessionLimit
  | openRefused
  | requestTooOld
  | commandTooLarge
  | streamConfig
  | sessionLost
  | timeRecorded
  | ethLinkChange
  | sampleOversize
  | badCommand
  | noPartition
  | queueFull
  | journalFull
  | jobConfig
  | stepGraph
  | stepOrder
  | commandAbandoned
  | journalGone
  | journalEra
  | resultGone
  | regRange
  | regValue
  | itemWatchdog
  | linkDown
  | linkUnreachable
  | linkRetrain
  | laneSpareUsed
  | linkWidthReduced
  | coordMismatch
  | cableUnsupported
  | loopFail
  | powerStateRefused
  | railTrip
  | thermalTrip
  | thermalThrottle
  | hubThermalTrip
  | powerStateChanged
  | ceilingUnmet
  | guardStep
  | guardExhausted
  | brownoutRide
  | dramHot
  | unitSubstituted
  | geometryChanged
  | twinMismatch
  | twinRepaired
  | clusterReplaced
  | itemFaultLimit
  | tileIsolated
  | tableSwapped
  | unitRetired
  | islandWorn
  | networkFault
  | lifetimeWrite
  | eventSummary
  | eventGone
  | eventCursor
  | eventLost
  | identityLost
  | floorLost
  | testAccessUnlocked
  | unlockRefused
  | imageHeader
  | imageSignature
  | imageRollback
  | imagePart
  | imageDigest
  | updateBusy
  | updateState
  | updateRange
  | updateConflict
  | updateRecord
  | flashWrite
  | updateActivated
  | floorRaised
  | recoveryMode
  | leakTrip
  deriving DecidableEq, Repr

/-- The 16-bit code. -/
def Status.code : Status → Nat
  | .ok => 0
  | .illegalFormat => 0x0101
  | .headerCheck => 0x0102
  | .illegalOperand => 0x0103
  | .arrayChecksum => 0x0104
  | .boundSplit => 0x0105
  | .splitAreaFull => 0x0106
  | .statsMissing => 0x0107
  | .sideFull => 0x0108
  | .layerTable => 0x0109
  | .deferredFull => 0x010A
  | .capacityOverflow => 0x0501
  | .routeDescriptor => 0x0502
  | .segmentMismatch => 0x0503
  | .receiveOverrun => 0x0504
  | .addressFault => 0x0201
  | .dmaDescriptor => 0x0202
  | .memUncorrectable => 0x0203
  | .memCorrected => 0x0204
  | .dramRepair => 0x0205
  | .poolEmpty => 0x0301
  | .doubleFree => 0x0302
  | .notFinalOwner => 0x0303
  | .notCoOwner => 0x0304
  | .ownerLimit => 0x0305
  | .poolConfig => 0x0306
  | .badHandle => 0x0307
  | .deadlineOmit => 0x0401
  | .nonfiniteOmit => 0x0402
  | .versionGone => 0x0403
  | .epochFenced => 0x0404
  | .bucketSetup => 0x0405
  | .paramsUnavailable => 0x0406
  | .tagBusy => 0x0407
  | .bucketLimit => 0x0408
  | .gatherCheck => 0x0409
  | .sealAbort => 0x040A
  | .sealRootLost => 0x040B
  | .permutePlan => 0x040C
  | .staleContribution => 0x040D
  | .okPartial => 0x040E
  | .configRecord => 0x0B40
  | .configTooNew => 0x0B41
  | .configSerial => 0x0B42
  | .configDefaults => 0x0B43
  | .configMigrated => 0x0B44
  | .bootFallback => 0x0B45
  | .testRecord => 0x0B46
  | .selftestUnit => 0x0940
  | .selftestTile => 0x0941
  | .smokeMismatch => 0x0942
  | .startTimeout => 0x0943
  | .journalLost => 0x0944
  | .sessionStale => 0x0701
  | .duplicateRequest => 0x0702
  | .sessionLimit => 0x0703
  | .openRefused => 0x0704
  | .requestTooOld => 0x0705
  | .commandTooLarge => 0x0706
  | .streamConfig => 0x0707
  | .sessionLost => 0x0708
  | .timeRecorded => 0x0709
  | .ethLinkChange => 0x070A
  | .sampleOversize => 0x070B
  | .badCommand => 0x0720
  | .noPartition => 0x0721
  | .queueFull => 0x0722
  | .journalFull => 0x0723
  | .jobConfig => 0x0724
  | .stepGraph => 0x0725
  | .stepOrder => 0x0726
  | .commandAbandoned => 0x0727
  | .journalGone => 0x0728
  | .journalEra => 0x0729
  | .resultGone => 0x072A
  | .regRange => 0x072B
  | .regValue => 0x072C
  | .itemWatchdog => 0x010B
  | .linkDown => 0x0601
  | .linkUnreachable => 0x0602
  | .linkRetrain => 0x0603
  | .laneSpareUsed => 0x0604
  | .linkWidthReduced => 0x0605
  | .coordMismatch => 0x0606
  | .cableUnsupported => 0x0607
  | .loopFail => 0x0608
  | .powerStateRefused => 0x0801
  | .railTrip => 0x0802
  | .thermalTrip => 0x0803
  | .thermalThrottle => 0x0804
  | .hubThermalTrip => 0x0805
  | .powerStateChanged => 0x0806
  | .ceilingUnmet => 0x0807
  | .guardStep => 0x0808
  | .guardExhausted => 0x0809
  | .brownoutRide => 0x080A
  | .dramHot => 0x080B
  | .unitSubstituted => 0x0901
  | .geometryChanged => 0x0902
  | .twinMismatch => 0x0903
  | .twinRepaired => 0x0904
  | .clusterReplaced => 0x0905
  | .itemFaultLimit => 0x0906
  | .tileIsolated => 0x0907
  | .tableSwapped => 0x0908
  | .unitRetired => 0x0909
  | .islandWorn => 0x090A
  | .networkFault => 0x090B
  | .lifetimeWrite => 0x090C
  | .eventSummary => 0x0980
  | .eventGone => 0x0981
  | .eventCursor => 0x0982
  | .eventLost => 0x0983
  | .identityLost => 0x0A01
  | .floorLost => 0x0A02
  | .testAccessUnlocked => 0x0A03
  | .unlockRefused => 0x0A04
  | .imageHeader => 0x0B01
  | .imageSignature => 0x0B02
  | .imageRollback => 0x0B03
  | .imagePart => 0x0B04
  | .imageDigest => 0x0B05
  | .updateBusy => 0x0B06
  | .updateState => 0x0B07
  | .updateRange => 0x0B08
  | .updateConflict => 0x0B09
  | .updateRecord => 0x0B0A
  | .flashWrite => 0x0B0B
  | .updateActivated => 0x0B0C
  | .floorRaised => 0x0B0D
  | .recoveryMode => 0x0B0E
  | .leakTrip => 0x080C

/-- CLASS of R573: 0 NOTE, 1 ERROR, 2 FATAL. -/
inductive EvClass where
  | note | error | fatal
  deriving DecidableEq, Repr

def EvClass.code : EvClass → Nat
  | .note => 0
  | .error => 1
  | .fatal => 2

/-- The class of a code: the FATAL list of R577; NOTE for codes that a table gives only as a Tansy event, record, mask code
or completion note; ERROR for the others. -/
def Status.evClass : Status → EvClass
  | .testRecord | .journalLost | .identityLost | .railTrip | .thermalTrip | .hubThermalTrip | .networkFault | .leakTrip => .fatal
  | .arrayChecksum | .deferredFull | .memCorrected | .dramRepair | .deadlineOmit
  | .nonfiniteOmit | .staleContribution | .configMigrated | .bootFallback | .selftestUnit
  | .selftestTile | .smokeMismatch | .startTimeout | .sessionLost | .timeRecorded
  | .ethLinkChange | .sampleOversize | .linkRetrain | .laneSpareUsed | .linkWidthReduced
  | .coordMismatch | .cableUnsupported | .loopFail | .thermalThrottle | .powerStateChanged
  | .ceilingUnmet | .guardStep | .guardExhausted | .brownoutRide | .dramHot
  | .unitSubstituted | .twinRepaired | .tableSwapped | .unitRetired | .islandWorn
  | .lifetimeWrite | .eventSummary | .eventLost | .floorLost | .testAccessUnlocked
  | .unlockRefused | .updateActivated | .floorRaised => .note
  | _ => .error

/-- A status with which a node's outputs stand; every other one fails the step. -/
def Status.good : Status → Bool
  | .ok | .boundSplit | .capacityOverflow | .okPartial => true
  | _ => false

end Sys2Proof
end

