-- ==== Sys2Proof/Machine/TypesHub.lean ====
section
/-! DEFINITION. Sys2Proof/Machine/TypesHub.lean: the parts of State that live at the module's boundary and in the hub: pins and input
stage (spec/13), start-up and configuration (spec/14), Campion and the Ethernet ports (spec/15), commands and journal
(spec/16), torus links (spec/17), power (spec/18), lifetime (spec/19), Tansy (spec/20), security and update (spec/21). -/

namespace Sys2Proof.Machine

open Sys2Proof

/-! Pins, input stage, SMBus, test port (13 R368 to R388). -/

/-- Which reset the module is held in (R381, R382). -/
inductive Hold where
  | running | cold | warm
  deriving DecidableEq, Repr

/-- The input path (R369, R370, R379, R380): open; closed with rails in regulation. -/
inductive InputPath where
  | openPath | closedPath
  deriving DecidableEq, Repr

/-- The management pins (R376) and the reset filters (R381, R382). -/
structure Pins where
  pwrEn : Bool
  pgood : Bool
  resetN : Bool
  warmN : Bool
  trstN : Bool
  leakN : Bool
  /-- MOD_SLOT as sampled at the last rise of MOD_PWR_EN (R378). -/
  slot : BitVec 4
  hold : Hold
  /-- Absolute times of the last accepted falling edges, the last fall of MOD_PWR_EN, and the earliest next power-up. -/
  resetFell : Nat
  warmFell : Nat
  enFell : Nat
  /-- R370: power-up needs MOD_PWR_EN low for 100 ms first. -/
  lockout : Bool
  input : InputPath
  /-- Alert conditions of R383: a leak trip, a trip not yet released, a brown-out ridden through. -/
  alertLeak : Bool
  alertTrip : Bool
  alertBrown : Bool
  deriving DecidableEq, Repr

/-- The measured readings (R385, R545, R547): input in mV and 0.1 A and W, coolant in 1/16 °C. -/
structure Readings where
  vinMv : Nat
  iinDa : Nat
  pinW : Nat
  inletT : Int
  outletT : Int
  deriving DecidableEq, Repr

/-- The SMBus telemetry target (R385): the status word. -/
structure Smbus where
  status : W16
  deriving DecidableEq, Repr

/-- Test access port instructions (R387, R388, R614). -/
inductive TapIr where
  | bypass | idcode | samplePreload | extest | extestPulse | extestTrain | unitTest | unlockChallenge | unlockToken
  deriving DecidableEq, Repr

/-- The test access port: instruction, the preloaded boundary outputs, whether pins are driven, the challenge, the unlock. -/
structure Tap where
  ir : TapIr
  boundary : List Bool
  driving : Bool
  /-- What the tester has in hand for the scans to come: the levels at the boundary cells and the bits shifted in, one register length per scan. -/
  levels : List Bool
  shift : List Bool
  challenge : W64
  unlocked : Bool
  deriving DecidableEq, Repr

/-! Start-up (14). -/

/-- What the hub runs: nothing (unpowered or in reset), the start-up, normal operation, the halted state of R404, the
recovery loader of R612. -/
inductive Phase where
  | off | starting | ready | halted | recovery
  deriving DecidableEq, Repr

/-- CFG_STATUS of R428 (0 to 4). -/
inductive CfgStatus where
  | record | migrated | defaultsNone | defaultsTooNew | defaultsSerial
  deriving DecidableEq, Repr

/-- A configuration record as read (R417, R418). -/
structure CfgEntry where
  block : Nat
  off : Nat
  value : W64
  deriving DecidableEq, Repr

structure CfgRec where
  ver : Nat
  gen : Nat
  target : List Byte
  entries : List CfgEntry
  deriving DecidableEq, Repr

/-- Start-up and configuration state (R402, R421, R428, R430). -/
structure Boot where
  phase : Phase
  step : Nat
  stepTimes : List Nat
  cause : Nat
  /-- The reset in progress is a warm one (R400). -/
  warm : Bool
  bootCount : W64
  status : CfgStatus
  recVerActive : Nat
  recGen : Nat
  /-- The record in use after migration; none in the defaults state (R613). -/
  record : Option CfgRec
  /-- Bit n: tile n isolated until the next cold reset (R431). -/
  isolated : Nat
  /-- DRAM holds kept contents (R430). -/
  dramKept : Bool
  /-- The copy of the test record in use (R412). -/
  testCopy : Bool
  /-- Units that ran past a step's maximum in this start-up: step and unit (R405). -/
  excluded : List (Nat × Nat)
  /-- Steps 6 to 11 of this start-up that run past their maxima (R405). -/
  late : List Nat
  deriving DecidableEq, Repr

/-! Tansy (20). -/

/-- A record of the ring at its offset; `valid` is the VALID bit of its mark word (R573, R579). -/
structure Rec where
  off : Nat
  seq : Nat
  valid : Bool
  read : Bool
  bytes : List Byte
  deriving DecidableEq, Repr

/-- Events of one code in the current rate window: written, suppressed, first and last suppressed TIME (R587, R588). -/
structure RateCount where
  code : Nat
  written : Nat
  supp : Nat
  first : Nat
  last : Nat
  deriving DecidableEq, Repr

/-- An event on its way to Tansy (R573 to R575, R581). -/
structure Event where
  status : Status
  cls : EvClass
  time : Nat
  source : W32
  logical : W32
  physical : W32
  part : Nat
  step : Nat
  args : List Nat
  extra : List Byte
  deriving DecidableEq, Repr

structure Tansy where
  /-- Ring records, oldest first (R578). -/
  ring : List Rec
  wpos : Twin Nat
  oldest : Twin Nat
  next : Nat
  era : Nat
  /-- The arrival queue of R581 and the events dropped since EVENT_LOST was last written. -/
  queue : List Event
  dropped : Nat
  /-- The rate window in force: start, length in ms, default limit, overrides, counts (R587 to R589). -/
  winStart : Nat
  winMs : Nat
  winDefault : Nat
  winOver : List (Nat × Nat)
  counts : List RateCount
  /-- Code and TIME of the events that arrived before step 4 of start-up; they count once the windows are known (R589). -/
  early : List (Nat × Nat)
  /-- The spill area: next slot (R582). -/
  spillNext : Nat
  /-- Spill slots of flash device 0 whose writes fail their read-back (R582). No command changes them. -/
  spillBad : List Nat
  deriving DecidableEq, Repr

/-! The journal and the commands (16). -/

/-- An accepted command (R470, R473). -/
structure Cmd where
  jseq : Nat
  reqId : W64
  slot : Nat
  sess : Nat
  sessGen : Nat
  family : Nat
  op : Nat
  part : Nat
  queue : Nat
  mgmt : Bool
  notify : Bool
  after : Nat
  params : List Byte
  started : Bool
  /-- It was cut off by a warm reset: its next start is a RESTARTED one (R493). -/
  restart : Bool
  deriving DecidableEq, Repr

/-- A command queue (R469, R492, R496): commands in acceptance order, the last final JSEQ, the last 256 results. -/
structure CmdQueue where
  cmds : List Cmd
  lastFinal : Nat
  results : List (Nat × List Byte)
  deriving DecidableEq, Repr

/-- The journal (R487 to R492): three copies by slot, the era base, the last JSEQ, copies in service, FLOOR per key slot
(R452). -/
structure Journal where
  mirror : List (Nat × Twin W256)
  copy1 : List (Nat × Twin W256)
  copy2 : List (Nat × Twin W256)
  tile1 : Nat
  tile2 : Nat
  svc : Nat
  era : Nat
  /-- CFG_BOOT_COUNT as the era's ERA_START entry carries it, kept once that entry has left the ring (R490, R492). -/
  eraBoot : Nat
  last : Nat
  floors : List Nat
  /-- The outstanding table of R491: the last entry's JSEQ of every ACCEPTED command that is not final, by that JSEQ. -/
  outstanding : List (Nat × W256)
  deriving DecidableEq, Repr

/-! Ethernet and Campion (15). -/

structure Addr where
  ipv6 : Bool
  bits : BitVec 128
  deriving DecidableEq, Repr

/-- A UDP checksum as received: right, wrong, or the zero that says there is none (R435). -/
inductive UdpSum where
  | right | wrong | none
  deriving DecidableEq, Repr

/-- A frame arriving at a port, with the facts of its lower layers that R434 to R436 test. -/
structure Frame where
  port : Fin 2
  dstMac : BitVec 48
  /-- The 802.1Q VID when the frame is tagged. -/
  vlan : Option (BitVec 12)
  /-- Frame bytes from destination address to FCS, and the IP packet's length. -/
  frameLen : Nat
  ipLen : Nat
  /-- Bytes that wait in the port's receive buffer when the frame arrives (R437). -/
  buffered : Nat
  /-- The frame needs something R435 lists (a fragment, options, extension headers, TCP, ...). -/
  unsupported : Bool
  fcsOk : Bool
  fecCorrected : Nat
  fecUncorrected : Nat
  sum : UdpSum
  ce : Bool
  src : Addr
  dst : Addr
  srcPort : W16
  dstPort : W16
  payload : List Byte
  deriving DecidableEq, Repr

/-- A codeword: the control field of R503 and the payload bytes that belong to packets, at most 640; a shorter list leaves the rest of the 640 idle.
What fills it is not given. (DESIGN CHOICE, log 36) -/
structure Codeword where
  seq : BitVec 12
  ackPart : Bool
  retryReq : Bool
  ackBits : BitVec 6
  payload : List Byte
  deriving DecidableEq, Repr

/-- What a frame that leaves carries below UDP (R434, R438): the next hop's MAC address, the VLAN with its PCP, the two ECN bits. -/
structure EthHead where
  dstMac : BitVec 48
  vlan : Option (BitVec 12 × BitVec 3)
  ecn : BitVec 2
  deriving DecidableEq, Repr

/-- What the module sends, oldest first. (DESIGN CHOICE, log 54) -/
inductive Out where
  /-- A UDP datagram: port, destination, source and destination UDP port, payload. -/
  | udp (port : Fin 2) (head : EthHead) (dst : Addr) (srcPort dstPort : W16) (payload : List Byte)
  /-- A PFC frame: port, priority, XOFF. -/
  | pfc (port : Fin 2) (prio : Nat) (xoff : Bool)
  | echo (port : Fin 2) (head : EthHead) (dst : Addr) (payload : List Byte)
  /-- ARP or neighbour discovery: the answer for an own address, and the question for a next hop's. -/
  | neighbour (port : Fin 2) (head : EthHead) (dst : Addr) (mac : BitVec 48)
  | solicit (port : Fin 2) (head : EthHead) (target : Addr)
  /-- SMBus: the bytes returned, the PEC byte last (R384), or a NACK. -/
  | smbus (bytes : List Byte)
  | nack
  /-- Bits shifted out of TDO, first bit first. -/
  | tdo (bits : List Bool)
  /-- The boundary register drives the pins under EXTEST, EXTEST_PULSE or EXTEST_TRAIN (R387, R388). -/
  | driven (ir : TapIr) (pins : List Bool)
  /-- A codeword on a port, with the physical lane that carries each logical lane. -/
  | codeword (port : Nat) (cw : Codeword) (lanes : List Nat)
  /-- Stage 6 of a training (R511): coordinates, extents, serial number and the next SEQ that this end expects. -/
  | identity (port : Nat) (coord : BitVec 20) (extent : Nat) (serial : List Byte) (next : BitVec 12)
  /-- A message to the module of job rank `dst` of a partition: kind and bytes (header, data, mask, seal message), its virtual channel (R507), and
  the ports it leaves by, each with its share (R508). -/
  | rank (part : Nat) (dst : Nat) (kind : Nat) (bytes : List Byte) (vc : Nat) (ports : List (Nat × Nat))
  /-- A Vetch response (R298). -/
  | vetch (tile : Nat) (bytes : List Byte)
  deriving DecidableEq, Repr

/-- One Ethernet port (R433 to R437, R462). -/
structure EthPort where
  up : Bool
  fecAligned : Bool
  plugged : Bool
  /-- XOFF was sent for the ingest priority and no XON since (R437). -/
  xoff : Bool
  /-- Priorities paused by a received PFC frame: priority and the time it ends (R437). -/
  paused : List (Nat × Nat)
  /-- Neighbours resolved (R434): address and MAC. -/
  neighbours : List (Addr × BitVec 48)
  /-- Frames that wait for a next hop's MAC: the hop, their priority, the frame; oldest first. -/
  unresolved : List (Addr × Nat × Out)
  /-- Bytes in the receive buffer after the last arrival (R437). -/
  level : Nat
  /-- The pluggable's application, by its rate in Gb/s (0: none selected), and the lanes whose transmitters are squelched (R433). -/
  app : Nat
  squelched : List Nat
  /-- Frames held back by a pause, by priority, oldest first. -/
  txq : List (Nat × Out)
  deriving DecidableEq, Repr

/-- A device-to-host frame of a session (R440, R441). -/
structure TxFrame where
  seq : Nat
  type : Nat
  flags : Nat
  reqId : W64
  status : Nat
  body : List Byte
  sends : Nat
  sentAt : Nat
  deriving DecidableEq, Repr

/-- A host frame held until its gap fills (R447). -/
structure RxFrame where
  seq : Nat
  type : Nat
  flags : Nat
  reqId : W64
  body : List Byte
  deriving DecidableEq, Repr

/-- The command being put together under MORE (R451). -/
structure Partial where
  reqId : W64
  bytes : List Byte
  tooLarge : Bool
  deriving DecidableEq, Repr

/-- A session (R443 to R451, R464, R583). -/
structure Session where
  isOpen : Bool
  slot : Nat
  gen : Nat
  port : Fin 2
  peer : Addr
  peerPort : W16
  localPort : W16
  key : List Byte
  nonce : List Byte
  txSeq : Nat
  txAcked : Nat
  rxNext : Nat
  held : List RxFrame
  unacked : List TxFrame
  waiting : List TxFrame
  retrans : Nat
  openTime : Nat
  heard : Nat
  ceEcho : Bool
  /-- The highest ACK sent. -/
  ackSent : Nat
  part : Option Partial
  ringCur : Nat
  spillCur : Nat
  deriving DecidableEq, Repr

/-- A pending OPEN_ID (R444, R445). -/
structure PendingId where
  time : Nat
  src : Addr
  srcPort : W16
  slot : Nat
  exponent : Nat
  modulus : Nat
  deriving DecidableEq, Repr

/-- An ingest stream: the record of R454 and what R456 to R460 keep beside it. -/
structure Stream where
  isOpen : Bool
  part : Nat
  tile : Nat
  src : Addr
  srcPort : W16
  token : W64
  ringBase : Nat
  ringLog2 : Nat
  owner : Nat
  nextSeq : Nat
  nextSample : Nat
  limit : Nat
  ce : Nat
  drops : Nat
  port : Fin 2
  /-- The sample being received: handle, bytes written, first SEQ, discarding as oversize (R458, R460). -/
  cur : Option (Nat × Nat × Nat × Bool)
  /-- Samples whose buffer the stream still holds: sample number and handle (R459). -/
  heldSamples : List (Nat × Nat)
  lastCredit : Nat
  deriving DecidableEq, Repr

structure Campion where
  sessions : List Session
  pendingIds : List PendingId
  sessGen : W16
  /-- The second in which unauthenticated replies are being counted and their number (R442). -/
  unauthSec : Nat
  unauthCount : Nat
  streams : List (Nat × Stream)
  deriving DecidableEq, Repr

/-! Partitions (16 R466 to R478; 01 R31). -/

inductive PartKind where
  | train | filler | selftest | bringup | recovery
  deriving DecidableEq, Repr

inductive PartState where
  | empty | loading | loaded | running | paused | stopping | unloading
  deriving DecidableEq, Repr

/-- A DRAM window (R477): tile, RO, GATHER, slice offset, size. -/
structure Window where
  tile : Nat
  ro : Bool
  gather : Bool
  off : Nat
  size : Nat
  deriving DecidableEq, Repr

structure Partition where
  state : PartState
  kind : PartKind
  main : Nat
  /-- FWIN: false 128 KiB, true 256 KiB. -/
  fwin : Bool
  qmask : Nat
  windows : List Window
  watchdogUs : Nat
  lastSealed : Nat
  qpool : Nat
  origin : W32
  extent : W32
  coord : W32
  view : W64
  /-- A geometry change has not yet been met by a pause at a step boundary (R479). -/
  geoPause : Bool
  queues : List CmdQueue
  deriving DecidableEq, Repr

/-! Torus links (17). -/

inductive PortState where
  | disabled | noCable | cableFault | loop | held | training | up | retraining | down | miswired | bypassed
  deriving DecidableEq, Repr

/-- An axis (R394 to R399, R511, R519). -/
structure Axis where
  through : Bool
  loopPassed : Bool
  trained : Bool
  held : Bool
  deriving DecidableEq, Repr

/-- A link packet (R504). -/
structure LinkPacket where
  vc : Nat
  cls : Bool
  dst : BitVec 20
  src : BitVec 20
  dtile : Nat
  tag : W32
  offset : Nat
  payload : List Byte
  deriving DecidableEq, Repr

/-- A Gystoura port (R498 to R520). -/
structure Port where
  state : PortState
  /-- Lane rate 0 none, 1 106.25 Gb/s, 2 212.5 Gb/s. -/
  rate : Nat
  half : Bool
  skip : Nat
  spared : Bool
  peer : BitVec 20
  peerSerial : List Byte
  /-- The physical lane of each logical lane in service (R501). -/
  lanes : List Nat
  laneSpare : Nat
  laneFailed : Nat
  cable : Nat
  /-- Sender side: next SEQ, replay buffer oldest first, the last acknowledged codewords (what may hold the start of a packet that the peer has not yet
  whole), when the ACK last advanced, the low half of an ACK pair received, which half goes out next, and the ACK whose low half went out last. -/
  txSeq : Nat
  replay : List Codeword
  acked : List Codeword
  ackAt : Nat
  ackLow : Option (BitVec 6)
  ackPart : Bool
  ackHeld : Nat
  /-- Receiver side: next expected SEQ, discarding until a resend, the SEQ last requested and how often, bytes not yet a packet, and the bytes at the
  front of the next codeword that belong to packets taken already. -/
  rxNext : Nat
  retrying : Bool
  reqSeq : Nat
  reqCount : Nat
  rxBytes : List Byte
  rxStart : Nat
  retryFrom : Option Nat
  /-- Retraining since. -/
  retrainAt : Nat
  /-- Send credit per channel and class (R509): index 2·vc + class. -/
  txCredit : List Nat
  /-- Packets waiting to be sent, oldest first: those that start here and those that pass through (R508); the bytes of packets begun. -/
  sendQ : List LinkPacket
  passQ : List LinkPacket
  txBytes : List Byte
  /-- R508: the bytes each channel has had (a channel without a ready packet keeps level with the least served one), whether the next packet of each
  channel is one that starts here, and the bytes that MANAGEMENT may send. -/
  served : List Nat
  ownTurn : List Bool
  mgmtBudget : Nat
  deriving DecidableEq, Repr

structure Links where
  axes : List Axis
  ports : List Port
  /-- Retry time of all ports since the last reset, ns (R506); LNK_RETRY_NS is its read-to-clear copy. -/
  retryNs : Nat
  /-- What has arrived from the neighbour stages for the running or the next main step (R212): activations (true) or gradients (false) of a microbatch. -/
  arrived : List (Bool × Nat)
  deriving DecidableEq, Repr

/-! Power and thermal (18). -/

inductive PowerState where
  | full | hold | park | dormant | off
  deriving DecidableEq, Repr

/-- A tile core rail (R522, R528 to R532, R537, R538, R546). -/
structure Rail where
  on : Bool
  point : Nat
  /-- The highest point R538 permits. -/
  permitted : Nat
  /-- The last 40 current samples in A, newest first. -/
  samples : List Nat
  /-- Stretch in percent of clock withheld (R530). -/
  stretchPct : Nat
  belowSince : Nat
  boostSince : Nat
  tripI : Bool
  tripT : Bool
  /-- The last voltage measured, in mV (R522). -/
  mv : Nat
  deriving DecidableEq, Repr

/-- What is measured of a rail that is no core rail: the last current in A and voltage in mV (R522). -/
structure Feed where
  amps : Nat
  mv : Nat
  deriving DecidableEq, Repr

/-- An island (R413, R529, R533, R565). -/
structure Island where
  /-- Temperature in 1/16 °C. -/
  temp : Int
  throttled : Bool
  /-- Points the throttle has taken off, and whether it is still taking points off: from 105 °C until below 102 °C (R533). -/
  down : Nat
  lowering : Bool
  changedAt : Nat
  wear : Nat
  stress : Nat
  guard : Nat
  /-- Highest point held: points above are withdrawn (R529). -/
  highest : Nat
  worn : Bool
  deriving DecidableEq, Repr

/-- A DRAM stack (R282, R535). -/
structure Stack where
  temp : Int
  paced : Bool
  refreshes : Nat
  deriving DecidableEq, Repr

structure Power where
  state : PowerState
  target : PowerState
  moving : Bool
  rails : List Rail
  /-- The rails besides the core rails: tile base 0 to 9, DRAM 10 to 29, hub 30, auxiliary 31 (R522). -/
  feeds : List Feed
  islands : List Island
  stackList : List Stack
  /-- Input power samples of the last 10 ms (time ns, W), newest first (R538). -/
  inputSamples : List (Nat × Nat)
  ceilChanged : Nat
  /-- The ceiling is exceeded at point 0 since then, and CEILING_UNMET has been recorded (R538). -/
  unmetSince : Option (Nat × Bool)
  /-- Energy counters in µJ (R542): input, shared, overhead, per queue (8p + q), and the update's counter value. -/
  eIn : W64
  eShared : W64
  eOverhead : W64
  eQueue : List W64
  eTime : Nat
  /-- Updates that R544 still looks at, newest first: local counter, and the totals since reset of the input energy and of all accounts, in µJ. -/
  eLog : List (Nat × Nat × Nat)
  /-- A tile's current or thermal trips within 24 h of power-on time (R561): tile and power-on second. -/
  tripLog : List (Nat × Nat)
  /-- Time in each pace condition of R346 within the running step, ns, reasons 1 to 7, and the counter value up to which the conditions
  of R541 have been accounted for. -/
  pace : List Nat
  paceAt : Nat
  deriving DecidableEq, Repr

/-! Lifetime (19). -/

inductive UnitState where
  | inService | spare | suspect | failed
  deriving DecidableEq, Repr

/-- A unit state byte (R571). -/
structure UnitSt where
  state : UnitState
  suspicion : Nat
  worn : Bool
  deriving DecidableEq, Repr

/-- A spare map (R414): tile states, logical cluster 8t + c to physical cluster, logical core 96t + 12c + k to physical core
(0xF: not in service), management cores. -/
structure SpareMap where
  tileIsolated : Nat
  clusters : List Nat
  cores : List Nat
  mgmt : List Nat
  deriving DecidableEq, Repr

/-- Rebuild state of a map (R563, R570). -/
inductive Build where
  | idle | building | ready
  deriving DecidableEq, Repr

structure Lifetime where
  powerOn : Nat
  /-- Counter value up to which power-on time has been counted. -/
  powerOnAt : Nat
  writeSeq : Nat
  lastWrite : Nat
  spareMap : SpareMap
  /-- PENDING map while a rebuild runs. -/
  pendingMap : SpareMap
  spareGen : Nat
  spareBuild : Build
  repairGen : Nat
  repairBuild : Build
  repairs : List W64
  pendingRepairs : List W64
  sramRepairs : List W64
  lastSwapWrite : Nat
  coreSt : List UnitSt
  clusterSt : List UnitSt
  /-- Spare use (R567): per tile cores, clusters, pseudo-channels, rows, columns; lanes per port; management cores. -/
  useCores : List Nat
  useClusters : List Nat
  usePcs : List Nat
  useRows : List Nat
  useCols : List Nat
  useLanes : List Nat
  useMgmt : Nat
  cycles : List Nat
  /-- Lowest reading of each tile's hottest junction since the last counted thermal cycle (R565); 32767 before the first one. -/
  lowT : List Int
  hostKeys : List (List Byte)
  /-- Time pairs, newest first: UTC and counter (R569). -/
  pairs : List (Nat × Nat)
  /-- Correctable and uncorrectable DRAM errors of the last 24 h (R559): power-on second, tile, stack, pseudo-channel, bank, row,
  column, uncorrectable. -/
  dramErrors : List (Nat × List Nat × Bool)
  /-- Correctable errors of store words within 24 h (R558): power-on second and word. -/
  storeErrors : List (Nat × Nat)
  /-- Bit n: tile n is isolated at the next step boundary (R559, R561). -/
  isolateNext : Nat
  deriving DecidableEq, Repr

/-! Security and update (21). -/

structure Security where
  identity : Bool
  serial : List Byte
  modulus : Nat
  exponent : Nat
  privExp : Nat
  testModulus : Nat
  testExponent : Nat
  floor : Nat
  floorGen : Nat
  floorLost : Bool
  /-- The PUF-derived keys of R592; empty when cleared. -/
  recKey : List Byte
  floorKey : List Byte
  chain : List Byte
  deriving DecidableEq, Repr

inductive UpdState where
  | idle | receiving | activated
  deriving DecidableEq, Repr

structure Update where
  state : UpdState
  owner : Nat
  header : List Byte
  /-- 16-byte units written, as unit indices from the image start (R607). -/
  units : List Nat
  /-- The target slot: false A, true B. -/
  target : Bool
  bytes : Nat
  badPart : Nat
  /-- Running image: version, slot, fallback; the header it came from; valid versions per slot. -/
  running : Nat
  runSlot : Bool
  fallback : Bool
  runHeader : List Byte
  slotA : Nat
  slotB : Nat
  deriving DecidableEq, Repr

end Sys2Proof.Machine
end

