-- ==== Sys2Proof/Machine/TypesTile.lean ====
section
/-! DEFINITION. Sys2Proof/Machine/TypesTile.lean: the parts of State that live in the tiles' shared units: Vetch (spec/10), the expert
router (spec/08), Burnet and the seal (spec/11), memory upkeep (spec/09), and the running steps (spec/07, spec/16). -/

namespace Sys2Proof.Machine

open Sys2Proof

/-! Vetch (10). -/

/-- KIND of an owner (R289). -/
inductive OwnerKind where
  | partition | queue | stream | bucket
  deriving DecidableEq, Repr

structure Owner where
  kind : OwnerKind
  part : Nat
  pool : Nat
  fallback : Nat
  min : Nat
  max : Nat
  ref : W32
  deriving DecidableEq, Repr

/-- An allocated buffer: its state bit as a twin word and its holder (R292, R294). -/
structure Buffer where
  bit : Twin Bool
  holder : Nat
  deriving DecidableEq, Repr

/-- A pool (R286, R304); `bufs` lists the allocated buffers by index, `badBits` the free ones whose state bit's two halves disagree (R301). -/
structure Pool where
  base : Nat
  cls : Nat
  part : Nat
  region : Bool
  general : Bool
  count : Nat
  free : Twin Nat
  reserve : Twin Nat
  bufs : List (Nat × Buffer)
  badBits : List Nat
  lowWater : Nat
  emptyEvents : Nat
  fallbacks : Nat
  frozen : Bool
  deriving DecidableEq, Repr

/-- A share record (R295, R296): pool, buffer, final owner, co-owners with their releases, the free pending. -/
structure Share where
  pool : Nat
  buf : Nat
  final : Nat
  cos : List (Nat × Bool)
  freePending : Bool
  deriving DecidableEq, Repr

/-- One tile's Vetch: pools by index, owners by index, share records by index. -/
structure VetchTile where
  pools : List (Nat × Pool)
  owners : List (Nat × Twin Owner)
  shares : List (Nat × Twin Share)
  deriving DecidableEq, Repr

/-! The router (08). -/

/-- XPR_PLACE_STATE (R223). -/
inductive PlaceState where
  | idle | building | ready | confirmed
  deriving DecidableEq, Repr

/-- A route request (R227): partition, node index, descriptor address. -/
structure RouteReq where
  part : Nat
  node : Nat
  addr : Nat
  deriving DecidableEq, Repr

/-- EM1, PM1 and ETA of a layer's routes (R252). -/
structure RouteParams where
  em1 : Nat
  pm1 : Nat
  eta : Nat
  deriving DecidableEq, Repr

/-- What Burnet keeps of a completed route, named by its dispatch list area (R236): T, E, k and CAP. -/
structure RouteFacts where
  t : Nat
  e : Nat
  k : Nat
  cap : Nat
  deriving DecidableEq, Repr

structure Xpr where
  /-- Placement tables by copy: tiles 0 to 9, then the hub (R222, R550). -/
  active : List (List (Twin W32))
  pending : List (List (Twin W32))
  genActive : Nat
  genPending : Nat
  genStaged : Nat
  place : PlaceState
  /-- Per tile: the queue of eight and the ready requests waiting for a place (R227). -/
  queues : List (List RouteReq)
  waiting : List (List RouteReq)
  /-- The shadow version of the bias tables: the entries in which it differs from the tables in memory, by address, as binary32 codes (R251, R253). -/
  biasShadow : List (Nat × Nat)
  /-- Demand summed over the steps of the period, by 256·LAYER + expert, and this step's routes' demand (R252). -/
  demand : List (Nat × Nat)
  stepDemand : List (Nat × Nat)
  /-- Layer parameters last carried, and those of this step's routes (R252). -/
  params : List (Nat × RouteParams)
  stepParams : List (Nat × RouteParams)
  paramsDiffer : Bool
  /-- Demand and layer parameters as they stand after this step's bias loop, and whether it has run (R252, R253). -/
  demandShadow : List (Nat × Nat)
  paramsShadow : List (Nat × RouteParams)
  biasDone : Bool
  /-- The last route of each dispatch list area. -/
  routes : List (Nat × RouteFacts)
  deriving DecidableEq, Repr

/-! Burnet (11). -/

/-- A segment table entry (R310). -/
structure Segment where
  layer : Nat
  rows : Nat
  cols : Nat
  src : Nat
  mbStride : Nat
  shardRec : Nat
  gmt : Nat
  loc : Nat
  sorrel : Bool
  wire : Nat
  adpt : Bool
  deriving DecidableEq, Repr

/-- A bucket definition (R309) with its segments and block as Burnet copied them (R308). -/
structure Bucket where
  tag : W32
  kind : Nat
  axes : Nat
  acc64 : Bool
  mean : Bool
  exclude : Bool
  params : Bool
  replay : Bool
  fmt : Nat
  deadlineUs : Nat
  mbm1 : Nat
  tileMask : Nat
  segTable : Nat
  result : Nat
  status : Nat
  blockOff : Nat
  segs : List Segment
  block : List Byte
  deriving DecidableEq, Repr

/-- A contribution header as the root acted on it (R321). -/
structure Header where
  rank : Nat
  time : Nat
  nf : Bool
  empty : Bool
  throttled : Bool
  reason : Nat
  first : Nat
  deriving DecidableEq, Repr

/-- A bucket in flight (R313 to R328, R349). -/
structure BucketRun where
  tag : W32
  step : Nat
  /-- Counter value at which the root opened it (R320). -/
  openedAt : Option Nat
  /-- Headers in order of arrival. -/
  headers : List Header
  /-- Mask codes by rank once fixed (R323). -/
  mask : Option (List Nat)
  /-- Rank values received: rank, bucket tile, element codes in the ACC format. -/
  data : List (Nat × Nat × List Nat)
  /-- Headers asked for again once for a failed twin (R321): rank and FIRST. -/
  asked : List (Nat × Nat)
  done : Bool
  /-- The mask was fixed before an abort and is replayed (R339). -/
  kept : Bool
  /-- The events of its omitted ranks are recorded (R323). -/
  told : Bool
  deriving DecidableEq, Repr

/-- A parameter gather in flight (R333, R334): shards received by unit with version, CRC and wire bytes, requests per unit. -/
structure GatherRun where
  tag : W32
  version : Nat
  shards : List (Nat × Nat × Nat × List Byte)
  asks : List (Nat × Nat)
  deriving DecidableEq, Repr

/-- An exchange in flight (R345): segments received by source rank (counts, rows). -/
structure ExchangeRun where
  tag : W32
  sent : Bool
  segments : List (Nat × List Nat × List Byte)
  asked : List Nat
  deriving DecidableEq, Repr

/-- BNT_PERMUTE_STATE (R351). -/
inductive PermState where
  | idle | fenced | moved
  deriving DecidableEq, Repr

/-- BNT_SEAL_STATE (R351). -/
inductive SealState where
  | idle | prepared | committed | aborted
  deriving DecidableEq, Repr

/-- What the seal root has heard from a rank (R336): a CONFIRM or a FAIL. -/
structure SealVote where
  rank : Nat
  step : Nat
  gen : Nat
  epoch : Nat
  fail : Option Nat
  deriving DecidableEq, Repr

/-- A decision kept by the root (R337, R340): step, COMMIT, generation, REPLAY and the cause of an ABORT. -/
structure Decision where
  step : Nat
  commit : Bool
  gen : Nat
  replay : Bool
  cause : Nat
  deriving DecidableEq, Repr

/-- Per partition: epochs, PERMUTE and seal state (R336 to R343). -/
structure SealPart where
  epoch : Nat
  activeEpoch : Nat
  perm : PermState
  oldEpoch : Nat
  /-- Shard records written by PERMUTE moves of this step: the bytes to put back on ABORT (address, bytes). -/
  undo : List (Nat × List Byte)
  sealSt : SealState
  confirmAt : Nat
  votes : List SealVote
  firstVote : Option Nat
  decisions : List Decision
  aborts : Nat
  /-- The root's own count (R486): a step, and how often it has been aborted. -/
  abortsOf : Nat × Nat
  deriving DecidableEq, Repr

structure Burnet where
  defs : List Bucket
  runs : List BucketRun
  gathers : List GatherRun
  exchanges : List ExchangeRun
  /-- Rows received from each source for each local index by the last dispatch to a grouped-matrix table (R241): table address; rank,
  counts. -/
  recv : List (Nat × List (Nat × List Nat))
  sealParts : List SealPart
  slowRank : Nat
  slowReason : Nat
  slowThrottled : Bool
  deriving DecidableEq, Repr

/-! Steps (07, 16). -/

/-- KIND of a node (R480). -/
inductive NodeKind where
  | item | route | bucket | gather | exchange | permute
  deriving DecidableEq, Repr

/-- Where a node stands. -/
inductive NodeState where
  | waiting
  | ready
  /-- In its cluster's deferred queue (R202). -/
  | deferred
  | promoted
  | running
  | done
  deriving DecidableEq, Repr

/-- A work-item header (R482) with its schedule word (R195). -/
structure ItemHdr where
  addr : Nat
  acctl : W64
  sched : W64
  seed : W64
  prog : Nat
  plen : Nat
  lsProg : Nat
  sideBase : Nat
  sideUnits : Nat
  cluster : Nat
  teasel : Bool
  watchdogUs : Nat
  pin : Bool
  core : Nat
  deriving DecidableEq, Repr

/-- A node of the running step: the copy of the graph's entry and what became of it. -/
structure Node where
  kind : NodeKind
  tile : Nat
  deps : List Nat
  arg : Nat
  hdr : Option ItemHdr
  state : NodeState
  started : Bool
  status : Status
  reruns : Nat
  deriving DecidableEq, Repr

/-- A layer table entry (R197). -/
structure Layer where
  mode : Nat
  frozen : Bool
  recomp : Bool
  noDx : Bool
  due : Nat
  rank : Nat
  alpha : Nat
  maskAddr : Nat
  adaptAddr : Nat
  maskRows : Nat
  deriving DecidableEq, Repr

/-- A running step (R481 to R486). -/
structure StepRun where
  part : Nat
  jseq : Nat
  step : Nat
  nodes : List Node
  layers : List Layer
  mb : Nat
  isSeal : Bool
  replayMax : Nat
  itemLog : Nat
  replays : Nat
  /-- Counter value at the start of the first work item; 0 before (R362). -/
  startedAt : Nat
  retryNs0 : Nat
  fail : Option Status
  notes : Nat
  subst : Nat
  promoted : Nat
  qfull : Nat
  dropped : Nat
  nfCount : Nat
  splitItems : Nat
  /-- Clusters (8t + c) whose DEFERRED_FULL was recorded in this step (R202). -/
  deferredFull : List Nat
  /-- Tiles with one internal-state error in this step (R551, R561). -/
  tileErrors : List Nat
  prepared : Bool
  /-- FAIL has been sent in place of CONFIRM (R336). -/
  failSent : Bool
  /-- An ABORT has arrived and running items finish: REPLAY and the cause (R339). -/
  abort : Option (Bool × Nat)
  deriving DecidableEq, Repr

/-! Memory upkeep (09 R278 to R283). -/

structure Upkeep where
  /-- Words marked uncorrectable: addresses of 8-byte store words and 64-byte DRAM words, ascending. -/
  marks : List Nat
  scrubDram : Nat
  scrubStore : Nat
  deriving DecidableEq, Repr

end Sys2Proof.Machine
end

