-- ==== Sys2Proof/Syntax.lean ====
section
/-! DEFINITION. Sys2Proof/Syntax.lean: the commands of spec/opcode_table.json, one constructor a row, with the operands each takes from
outside: pins' levels and times, frames, messages of other modules, readings, and what the silicon reports. A time `t` is the
local counter's value in ns (R569); at the pins, where the counter may not run, it is absolute ns. -/

namespace Sys2Proof

open Sys2Proof.Machine

/-- A column partial that comes out of an array corrupted (R106, R107): the array, k-step, pass, row and column, and the binary32
code that the drain receives instead. Rows count from 0 over all that the array streams in the k-step. -/
structure Upset where
  array : Nat
  kstep : Nat
  pass : Nat
  row : Nat
  col : Nat
  bits : W32
  deriving DecidableEq, Repr

/-- What the silicon does during an instruction (R278, R549, R551): upsets of the arrays, addresses of words read with a
correctable error, addresses of words found uncorrectable, a parity error of the issue unit or scoreboard or an
uncorrectable word met in the side memory. An empty one is sound silicon. A local-store address is 2^48 + 2^20 · logical core index + byte. (DESIGN CHOICE, log 4) -/
structure Health where
  upsets : List Upset
  corrected : List Nat
  marked : List Nat
  parity : Bool
  deriving DecidableEq, Repr

/-- A fault of a tile as its watchdog or the hub learns of it (R549, R551, R561): one or both cores of the tile controller quiet for 50 ms, an
internal-state error of its Burnet, router or Vetch, an island of its tile network or bridges failing through retry. (DESIGN CHOICE, log 23) -/
inductive TileFault where
  | oneCore | bothCores | internalState | network
  deriving DecidableEq, Repr

/-- What one training of a port found (R511): a cable and its identity word in the layout of LNK_CABLE, the calibration loop, good
lanes (bit n: physical lane n), training at 212.5 Gb/s, and the neighbour's coordinates, extents, serial number and next
expected SEQ when the identity exchange took place. (DESIGN CHOICE, log 4) -/
structure PortTrain where
  present : Bool
  cable : Nat
  loopOk : Bool
  lanes : Nat
  fast : Bool
  trained : Bool
  coord : BitVec 20
  extent : W32
  serial : List Byte
  peerNext : BitVec 12
  deriving DecidableEq, Repr

/-- What a start-up finds (R400 to R407): step durations in µs, a wet strip, failed units (physical indices 135t + 15c + k and
9t + c), and what the ports find. (DESIGN CHOICE, log 4) -/
structure StartReport where
  durations : List Nat
  wet : Bool
  mgmtFails : List Nat
  bootFails : List Nat
  /-- Pseudo-channels that fail training: tile, stack, pseudo-channel; whole stacks: tile, stack. -/
  pcFails : List (Nat × Nat × Nat)
  stackFails : List (Nat × Nat)
  coreFails : List Nat
  clusterFails : List Nat
  /-- SRAM rows and columns that fail the march test, as entries of the SRAM repair list (R406, R567). -/
  sramFails : List W64
  netFails : List Nat
  /-- Logical clusters whose smoke-test CRC differs once, and those that differ twice (R407). -/
  smokeOnce : List Nat
  smokeTwice : List Nat
  ports : List PortTrain
  ethUp : List Bool
  ethPlugged : List Bool
  deriving DecidableEq, Repr

/-- What a SYN waits for (R88, R267, R348, R539). The manual gives SYN no fields beyond its opcode. -/
inductive SynWait where
  | queues (dma matrix vector row : Bool)
  | cores (idx : List Nat)
  | bucket (tag : W32)
  | gather (tag : W32)
  | exchange (tag : W32)
  | sealed (part : Nat) (step : Nat)
  deriving DecidableEq, Repr

/-- One module's part of the bias loop's bucket (R252): for each layer with routes, LAYER, EM1, PM1, ETA and demand per expert. -/
structure DemandMsg where
  layer : Nat
  em1 : Nat
  pm1 : Nat
  eta : Nat
  demand : List Nat
  deriving DecidableEq, Repr

/-- What a PERMUTE move brings to this module (R342): the entry, the tile, the segment, the version, SHADOW, and the bytes of one or both
slots and of a SHARD-delivered gradient shard. -/
structure MoveData where
  entry : Nat
  tile : Nat
  segment : Nat
  record : List Byte
  slots : List (List Byte)
  shard : List Byte
  deriving DecidableEq, Repr

/-- What patrol scrubbing finds at a word (R280). -/
inductive ScrubFound where
  | clean | correctable | overtaken | uncorrectable
  deriving DecidableEq, Repr

/-- A measured rail (R522). -/
inductive RailId where
  | core (t : Tile) | base (t : Tile) | dram (k : Fin 20) | hub | auxiliary
  deriving DecidableEq, Repr

/-- A temperature sensor: an island of R413 or a DRAM stack. -/
inductive Sensor where
  | island (i : Fin 612) | stack (s : Fin 20)
  deriving DecidableEq, Repr

/-- One sample of a rail: its current in A and its voltage in mV (R522). -/
structure RailReading where
  amps : Nat
  mv : Nat
  deriving DecidableEq, Repr

/-- What a port of Ethernet shows: its link is up, and its pluggable is present (R462, R465). -/
structure EthSeen where
  up : Bool
  plugged : Bool
  deriving DecidableEq, Repr

/-- An SMBus address with the PEC byte that follows a write, if one does (R384). -/
structure SmbTarget where
  addr : BitVec 7
  pec : Option Byte
  deriving DecidableEq, Repr

/-- What the FRU EEPROM's own supply and pins show: P3V3_AUX is present, and the level of the MOD_SLOT pins (R384, R386). -/
structure FruPins where
  aux : Bool
  slot : BitVec 4
  deriving DecidableEq, Repr

/-- How long a SYN has been held up: what it waits for, and the time (R348). -/
structure HeldSyn where
  wait : SynWait
  t : Nat
  deriving DecidableEq, Repr

/-- SEAL_DECISION_TIMEOUT at a time: the own wait has run out (none), or another rank asks for its decision about a step (R340). -/
structure DecisionAsk where
  asker : Option (Nat × Nat)
  t : Nat
  deriving DecidableEq, Repr

/-- The sender of a neighbour resolution frame, with the VLAN of the frame (R434, R435). -/
structure NeighbourFrom where
  addr : Addr
  vlan : Option (BitVec 12)
  deriving DecidableEq, Repr

/-- How the programs of an UPD_DATA go: new units written, in ascending order, before the one that fails its read-back, and how often in a row that one
fails (R607). -/
structure ReadBack where
  before : Nat
  fails : Nat
  deriving DecidableEq, Repr

/-- One update of the energy counters (R542, R543): µJ since the last one, queues by 8p + q. -/
structure EnergyUpdate where
  input : Nat
  shared : Nat
  overhead : Nat
  queues : List Nat
  deriving DecidableEq, Repr

/-- The commands: one constructor per row of spec/opcode_table.json. -/
inductive Instr where
  /-- MOD_PWR_EN_RISE (R379). -/
  | modPwrEnRise (slot : BitVec 4) (good : Bool) (t : Nat)
  /-- MOD_PWR_EN_FALL (R380). -/
  | modPwrEnFall (t : Nat)
  /-- INPUT_UNDERVOLTAGE (R370). -/
  | inputUndervoltage (mv : Nat) (ns : Nat) (t : Nat)
  /-- BROWNOUT_RIDE (R368). -/
  | brownoutRide (mv : Nat) (ns : Nat)
  /-- MOD_RESET_N_LOW (R381). -/
  | modResetNLow (lowNs : Nat) (t : Nat)
  /-- MOD_RESET_N_HIGH (R381). -/
  | modResetNHigh (t : Nat)
  /-- MOD_WARM_N (R382). -/
  | modWarmN (lowNs : Nat) (t : Nat)
  /-- LEAK_TRIP (R374). -/
  | leakTrip
  /-- START_UP (R400). -/
  | startUp (r : StartReport)
  /-- START_TIMEOUT (R405). -/
  | startTimeout (step : Nat) (units : List Nat)
  /-- ETH_PORT_RETRY (R403). -/
  | ethPortRetry (port : Fin 2) (up : Bool)
  /-- ETH_LINK_CHANGE (R465). -/
  | ethLinkChange (port : Fin 2) (seen : EthSeen)
  /-- CLEAR_FAULTS (R385). -/
  | clearFaults (target : SmbTarget)
  /-- CAPABILITY (R385). -/
  | capability (addr : BitVec 7)
  /-- STATUS_WORD (R385). -/
  | statusWord (addr : BitVec 7)
  /-- READ_VIN (R385). -/
  | readVin (addr : BitVec 7)
  /-- READ_IIN (R385). -/
  | readIin (addr : BitVec 7)
  /-- READ_TEMPERATURE_1 (R385). -/
  | readTemperature1 (addr : BitVec 7)
  /-- READ_TEMPERATURE_2 (R385). -/
  | readTemperature2 (addr : BitVec 7)
  /-- READ_TEMPERATURE_3 (R385). -/
  | readTemperature3 (addr : BitVec 7)
  /-- READ_PIN (R385). -/
  | readPin (addr : BitVec 7)
  /-- PMBUS_REVISION (R385). -/
  | pmbusRevision (addr : BitVec 7)
  /-- MFR_ID (R385). -/
  | mfrId (addr : BitVec 7)
  /-- MFR_MODEL (R385). -/
  | mfrModel (addr : BitVec 7)
  /-- MFR_SERIAL (R385). -/
  | mfrSerial (addr : BitVec 7)
  /-- MFR_POWER_STATE (R385). -/
  | mfrPowerState (addr : BitVec 7)
  /-- MFR_LEAK (R385). -/
  | mfrLeak (addr : BitVec 7)
  /-- MFR_READY (R385). -/
  | mfrReady (addr : BitVec 7)
  /-- MFR_GEO_FINGERPRINT (R385). -/
  | mfrGeoFingerprint (addr : BitVec 7)
  /-- MFR_SLOT (R385). -/
  | mfrSlot (addr : BitVec 7)
  /-- SMBUS_OTHER_WRITE (R385). -/
  | smbusOtherWrite (addr : BitVec 7) (cmd : Byte)
  /-- SMBUS_ALERT_RESPONSE (R383). -/
  | smbusAlertResponse
  /-- FRU_EEPROM_READ (R386). -/
  | fruEepromRead (addr : BitVec 7) (off : Nat) (len : Nat) (pins : FruPins)
  /-- BYPASS (R387). -/
  | bypass
  /-- IDCODE (R387). -/
  | idcode
  /-- SAMPLE_PRELOAD (R387). -/
  | samplePreload (sample : List Bool) (preload : List Bool)
  /-- EXTEST (R388). -/
  | extest
  /-- EXTEST_PULSE (R388). -/
  | extestPulse
  /-- EXTEST_TRAIN (R388). -/
  | extestTrain
  /-- UNIT_TEST_INSTRUCTION (R388). -/
  | unitTestInstruction (unit : Nat)
  /-- UNLOCK_CHALLENGE (R614). -/
  | unlockChallenge
  /-- UNLOCK_TOKEN (R614). -/
  | unlockToken (bytes : List Byte)
  /-- TRST_N (R388). -/
  | trstN (low : Bool)
  /-- INSTRUCTION_FETCH (R88). -/
  | instructionFetch (c : CoreId)
  /-- TLD (R79). -/
  | tld (c : CoreId) (h : Health)
  /-- MMA (R83). -/
  | mma (c : CoreId) (h : Health)
  /-- GMM (R245). -/
  | gmm (c : CoreId) (h : Health)
  /-- TCV (R99). -/
  | tcv (c : CoreId) (h : Health)
  /-- SLOT_WRITE_COMPLETE (R77). -/
  | slotWriteComplete (c : CoreId) (array : ArrayIx) (slot : Fin 8)
  /-- VCH (R164). -/
  | vch (c : CoreId) (h : Health)
  /-- TRD (R180). -/
  | trd (c : CoreId) (h : Health)
  /-- RWF (R186). -/
  | rwf (c : CoreId) (h : Health)
  /-- RWB (R192). -/
  | rwb (c : CoreId) (h : Health)
  /-- DMV (R271). -/
  | dmv (c : CoreId) (h : Health)
  /-- DMV_COMPLETE (R267). -/
  | dmvComplete (c : CoreId) (index : Nat)
  /-- SYN (R69). -/
  | syn (c : CoreId) (w : SynWait)
  /-- HOLD (R348); `w`: what the SYN waits for. -/
  | hold (c : CoreId) (held : HeldSyn)
  /-- STL_OPEN (R144). -/
  | stlOpen (c : CoreId) (h : Health)
  /-- STL_OFFER (R144). -/
  | stlOffer (c : CoreId)
  /-- STL_WITHDRAW (R144). -/
  | stlWithdraw (c : CoreId)
  /-- STEAL (R148). -/
  | steal (c : CoreId) (h : Health)
  /-- TREE_ADDITION (R149). -/
  | treeAddition (c : CoreId)
  /-- WORK_ITEM_START (R199). -/
  | workItemStart (c : CoreId) (filler : Bool) (t : Nat)
  /-- WORK_ITEM_COMPLETE (R482). -/
  | workItemComplete (c : CoreId) (t : Nat)
  /-- ITEM_WATCHDOG (R482). -/
  | itemWatchdog (c : CoreId) (t : Nat)
  /-- FILLER_PREEMPT (R214). -/
  | fillerPreempt (tile : Tile) (cluster : Cluster)
  /-- ROUTE_REQUEST (R229). -/
  | routeRequest (tile : Tile)
  /-- PLACEMENT_BUILD (R223). -/
  | placementBuild
  /-- BIAS_UPDATE (R252). -/
  | biasUpdate (part : Nat) (others : List DemandMsg)
  /-- EXCHANGE (R238). -/
  | exchange (tag : W32)
  /-- SEGMENT (R239). -/
  | segment (tag : W32) (bytes : List Byte)
  /-- ALLOC (R291). -/
  | alloc (tile : Tile) (req : W256) (part : Nat)
  /-- FREE (R294). -/
  | free (tile : Tile) (req : W256) (part : Nat)
  /-- SHARE (R295). -/
  | share (tile : Tile) (req : W256) (part : Nat)
  /-- RELEASE (R296). -/
  | release (tile : Tile) (req : W256) (part : Nat)
  /-- COLL_SETUP (R308). -/
  | collSetup (jseq : Nat)
  /-- COLL_REMOVE (R472). -/
  | collRemove (jseq : Nat)
  /-- RANK_VALUE_READY (R321). -/
  | rankValueReady (tag : W32) (t : Nat)
  /-- CONTRIBUTION_HEADER (R321). -/
  | contributionHeader (word : W512) (t : Nat)
  /-- BUCKET_DEADLINE (R322). -/
  | bucketDeadline (tag : W32) (t : Nat)
  /-- MASK (R322). -/
  | mask (tag : W32) (step : W32) (bytes : List Byte)
  /-- CONTRIBUTION_DATA (R315). -/
  | contributionData (tag : W32) (rank : Nat) (first : Nat) (bytes : List Byte)
  /-- PARAM_GATHER (R333). -/
  | paramGather (tag : W32)
  /-- GATHER_SHARD (R334). -/
  | gatherShard (tag : W32) (unit : Nat) (version : W32) (crc : W32) (bytes : List Byte)
  /-- PERMUTE (R342). -/
  | permute (tag : W32) (moves : List MoveData)
  /-- PREPARE (R336). -/
  | prepare (part : Nat)
  /-- CONFIRM (R337). -/
  | confirm (part : Nat) (rank : Nat) (step : Nat) (gen : Nat) (epoch : Nat) (t : Nat)
  /-- FAIL (R337). -/
  | fail (part : Nat) (rank : Nat) (step : Nat) (status : W16) (t : Nat)
  /-- SEAL_TIMEOUT (R337). -/
  | sealTimeout (part : Nat) (t : Nat)
  /-- COMMIT (R338). -/
  | commit (part : Nat) (step : Nat) (gen : Nat)
  /-- ABORT (R339). -/
  | abort (part : Nat) (step : Nat) (replay : Bool) (cause : W16)
  /-- SEAL_DECISION_TIMEOUT (R340); `ask`: at the seal root, the rank that asks and the step it asks about. -/
  | sealDecisionTimeout (part : Nat) (ask : DecisionAsk)
  /-- SEAL_ROOT_LOST (R340). -/
  | sealRootLost (part : Nat) (t : Nat)
  /-- PATROL_SCRUB (R280). -/
  | patrolScrub (addr : Nat) (found : ScrubFound)
  /-- DRAM_REFRESH (R282). -/
  | dramRefresh (stack : Nat)
  /-- CERT_REQ (R441). -/
  | certReq (f : Frame) (t : Nat)
  /-- OPEN_ID (R444). -/
  | openId (f : Frame) (t : Nat)
  /-- OPEN_KEY (R445). -/
  | openKey (f : Frame) (t : Nat)
  /-- CLOSE (R446). -/
  | close (f : Frame) (t : Nat)
  /-- ACK (R447). -/
  | ack (f : Frame) (t : Nat)
  /-- KEEPALIVE (R441). -/
  | keepalive (f : Frame) (t : Nat)
  /-- TIME_SET (R569). -/
  | timeSet (f : Frame) (t : Nat)
  /-- COMMAND (R473). -/
  | command (f : Frame) (t : Nat)
  /-- RETRANSMIT (R449). -/
  | retransmit (sess : Nat) (t : Nat)
  /-- CMP_IDLE_TIMEOUT (R446). -/
  | cmpIdleTimeout (sess : Nat) (t : Nat)
  /-- INGEST_DATA (R457). -/
  | ingestData (f : Frame) (t : Nat)
  /-- CREDIT (R459). -/
  | credit (stream : Nat) (t : Nat)
  /-- PFC_FRAME (R437). -/
  | pfcFrame (port : Fin 2) (times : List (Nat × Nat)) (t : Nat)
  /-- ICMP_ECHO (R434). -/
  | icmpEcho (f : Frame)
  /-- NEIGHBOUR_RESOLUTION (R434). -/
  | neighbourResolution (port : Fin 2) (sender : NeighbourFrom) (mac : BitVec 48) (asked : Option Addr)
  /-- SESS_LIST (R472). -/
  | sessList (sess : Nat) (reqId : W64) (params : List Byte)
  /-- SESS_END (R472). -/
  | sessEnd (sess : Nat) (reqId : W64) (params : List Byte)
  /-- ATTEST (R613). -/
  | attest (sess : Nat) (reqId : W64) (params : List Byte)
  /-- LOAD_PARTITION (R475). -/
  | loadPartition (jseq : Nat)
  /-- UNLOAD (R476). -/
  | unload (jseq : Nat)
  /-- LOAD_WRITE (R472). -/
  | loadWrite (jseq : Nat)
  /-- LOAD_FROM_STREAM (R472). -/
  | loadFromStream (jseq : Nat)
  /-- STREAM_OPEN (R455). -/
  | streamOpen (jseq : Nat)
  /-- STREAM_CLOSE (R455). -/
  | streamClose (jseq : Nat)
  /-- JOB_START (R478). -/
  | jobStart (jseq : Nat)
  /-- JOB_PAUSE (R479). -/
  | jobPause (jseq : Nat)
  /-- JOB_RESUME (R479). -/
  | jobResume (jseq : Nat)
  /-- JOB_STOP (R476). -/
  | jobStop (jseq : Nat)
  /-- STEP_RUN (R481). -/
  | stepRun (jseq : Nat)
  /-- PLACE_STAGE (R223). -/
  | placeStage (jseq : Nat)
  /-- PWR_SET_STATE (R526). -/
  | pwrSetState (jseq : Nat)
  /-- RESET_COLD (R429). -/
  | resetCold (jseq : Nat)
  /-- RESET_WARM (R429). -/
  | resetWarm (jseq : Nat)
  /-- TILE_ISOLATE (R431). -/
  | tileIsolate (jseq : Nat)
  /-- REG_READ (R474). -/
  | regRead (sess : Nat) (reqId : W64) (params : List Byte)
  /-- REG_WRITE (R474). -/
  | regWrite (sess : Nat) (reqId : W64) (params : List Byte)
  /-- LNK_HOLD (R512). -/
  | lnkHold (sess : Nat) (reqId : W64) (value : W64)
  /-- EVT_RATE_WINDOW (R589). -/
  | evtRateWindow (sess : Nat) (reqId : W64) (value : W64)
  /-- EVT_RATE_DEFAULT (R589). -/
  | evtRateDefault (sess : Nat) (reqId : W64) (value : W64)
  /-- EVT_RATE_OVERRIDE (R589). -/
  | evtRateOverride (sess : Nat) (reqId : W64) (entry : Fin 32) (value : W64)
  /-- CFG_STAGE (R424). -/
  | cfgStage (jseq : Nat)
  /-- UPD_BEGIN (R606). -/
  | updBegin (jseq : Nat)
  /-- UPD_DATA (R607). -/
  | updData (jseq : Nat) (back : ReadBack)
  /-- UPD_ACTIVATE (R608). -/
  | updActivate (jseq : Nat)
  /-- UPD_ABORT (R609). -/
  | updAbort (jseq : Nat)
  /-- JNL_READ (R492). -/
  | jnlRead (sess : Nat) (reqId : W64) (params : List Byte)
  /-- JNL_OUTSTANDING (R491). -/
  | jnlOutstanding (sess : Nat) (reqId : W64) (params : List Byte)
  /-- JNL_RESULT (R492). -/
  | jnlResult (sess : Nat) (reqId : W64) (params : List Byte)
  /-- EVT_READ (R584). -/
  | evtRead (sess : Nat) (reqId : W64) (params : List Byte)
  /-- EVT_CURSOR (R583). -/
  | evtCursor (sess : Nat) (reqId : W64) (params : List Byte)
  /-- CODEWORD (R505). -/
  | codeword (port : Fin 8) (cw : Codeword) (wrongData wrongParity : Nat) (t : Nat)
  /-- LINK_PACKET (R504). -/
  | linkPacket (port : Fin 8) (p : LinkPacket) (t : Nat)
  /-- ACK_STALL (R506). -/
  | ackStall (port : Fin 8) (t : Nat)
  /-- LINK_RETRAIN (R515). -/
  | linkRetrain (port : Fin 8) (tr : PortTrain) (t : Nat)
  /-- LINK_DOWN (R516). -/
  | linkDown (port : Fin 8) (t : Nat)
  /-- PORT_DOWN_RETRY (R513). -/
  | portDownRetry (port : Fin 8) (tr : PortTrain)
  /-- WEAK_LANE (R514). -/
  | weakLane (port : Fin 8) (lane : Fin 18) (corrected : Nat) (lostLock : Bool) (t : Nat)
  /-- RAIL_SAMPLE (R530). -/
  | railSample (rail : RailId) (reading : RailReading) (t : Nat)
  /-- ISLAND_SENSOR (R533). -/
  | islandSensor (sensor : Sensor) (temp : Int) (t : Nat)
  /-- BOOST (R537). -/
  | boost (tile : Tile) (t : Nat)
  /-- POWER_CEILING (R538). -/
  | powerCeiling (r : Readings) (t : Nat)
  /-- ENERGY_UPDATE (R542). -/
  | energyUpdate (u : EnergyUpdate) (t : Nat)
  /-- TILE_CONTROLLER_WATCHDOG (R549). -/
  | tileControllerWatchdog (tile : Tile) (fault : TileFault)
  /-- HUB_WATCHDOG (R558). -/
  | hubWatchdog
  /-- STRESS_UPDATE (R565). -/
  | stressUpdate (temps : List Int)
  /-- LIFETIME_RECORD_WRITE (R568). -/
  | lifetimeRecordWrite (fails : Nat)
  /-- EVENT_RECORD (R579). -/
  | eventRecord (e : Event)
  /-- EVENT_SUMMARY (R588). -/
  | eventSummary (t : Nat)
  /-- MOD_WARM_N_HIGH (R382). -/
  | modWarmNHigh (t : Nat)
  /-- BACKGROUND_REBUILD (R564). -/
  | backgroundRebuild
  /-- PFC_PAUSE_EXPIRY (R437). -/
  | pfcPauseExpiry (port : Fin 2) (prio : Nat) (t : Nat)
  deriving DecidableEq, Repr

end Sys2Proof
end

