-- ==== Sys2Proof/Decode.lean ====
section
/-! DEFINITION. Sys2Proof/Decode.lean: spec/opcode_table.json gives its rows no bits (every "fields" list is empty): the block takes
commands, not instruction words, and no word spells one. -/

namespace Sys2Proof

/-- The command a word of `nbits` bits spells by the table: none, for every word. (DESIGN CHOICE, log 1) -/
def decodeTableWord (_nbits _w : Nat) : Option Instr := none

end Sys2Proof
end

