-- ==== Sys2Proof/Config.lean ====
section
/-! DEFINITION. Sys2Proof/Config.lean: what one module fixes or the manual leaves open. Every entry is an opaque constant: no proof can see a
value of it, and a statement holds whatever it is. -/

namespace Sys2Proof.Config

/-- Free values: the n-th draw (undefined results, TRNG output). State's `freeCtr` counts the draws. (DESIGN CHOICE, log 2) -/
opaque freeValue : Nat → W64

/-- The function tables of a firmware version (R173): for the version, a function of R168 and a binary32 operand code, which of the values that R172
allows the module returns, taken modulo their number. (DESIGN CHOICE, log 17) -/
opaque functionBits : Nat → Nat → Nat → Nat

/-- What the manual leaves open of the FRU EEPROM (R386: written at test, never by the module): the bytes after its areas, and the date of manufacture in
minutes from the start of 1996. (DESIGN CHOICE, log 65) -/
opaque fruByte : Nat → Byte
opaque fruDate : Nat

/-- The hub's 32-byte PUF secret rebuilt from the helper data (R592). -/
opaque pufSecret : List Byte → List Byte

/-- AES-256 key unwrap with padding (RFC 5649, R593) followed by the reading of the PKCS#1 RSAPrivateKey: wrap key, wrapped bytes;
modulus, public exponent, private exponent, or none when the integrity check fails. -/
opaque unwrapKey : List Byte → List Byte → Option (Nat × Nat × Nat)

/-- The X.509 reading of the certificate chain (R595): the test certificate's RSA modulus and exponent and the device certificate's
serial number in 16 bytes, or none. -/
opaque chainFields : List Byte → Option (Nat × Nat × List Byte)

/-- The root public key in the boot ROM (R595): modulus and exponent. -/
opaque rootKey : Nat × Nat

/-- The place of the bias tables in the firmware region (R263), in units of their 4 MiB; XPR_BIAS_BASE ("set at job load", R255) follows from it. (DESIGN CHOICE, log 9) -/
opaque biasSlot : BitVec 7

/-- The DRAM bank of an address in a slice: the bank, row and column of R262's remaining bits. (DESIGN CHOICE, log 20) -/
opaque dramRow : Nat → Nat × Nat × Nat

/-- The repair map's own encoding of a row (kind 0) or a column (kind 1) of a bank (R415), and the bank that an entry's address names. (DESIGN CHOICE, log 20) -/
opaque repairAddr : Nat → Nat → Nat → Nat
opaque repairBank : Nat → Nat

/-- The physical cluster that a compute-die network island of a tile (36 to 39) carries, for wear (R566). (DESIGN CHOICE, log 21) -/
opaque networkCluster : Nat → Nat

/-- The manual's "best 8 lanes" of a retrain at half width (R514): of the good lanes, the ones taken. (DESIGN CHOICE, log 22) -/
opaque bestLanes : Nat → Nat

/-- The bytes of a codeword's payload that belong to no packet (R502, R504). (DESIGN CHOICE, log 36) -/
opaque linkIdle : Nat → Byte

/-- Which microbatch's activations (true) or gradients (false) are whole with a PIPELINE packet, from its TAG, OFFSET and payload (R212: the manual
gives the packets of a stage boundary no layout). (DESIGN CHOICE, log 62) -/
opaque pipelineArrival : W32 → Nat → List Byte → Option (Bool × Nat)

end Sys2Proof.Config
end

