-- ==== Sys2Proof/Machine/Crypto.lean ====
section
/-! DEFINITION. Sys2Proof/Machine/Crypto.lean: the digests, MACs, key derivation and RSA operations that the manual names: SHA-512 and
SHA-512/256 (FIPS 180-4), HMAC (RFC 2104), HKDF (RFC 5869), RSASSA-PSS and RSA-OAEP with SHA-512 and MGF1 (spec/15 R440 to
R444, spec/21 R592 to R600). Byte strings are lists of bytes, first byte first. -/

namespace Sys2Proof

def shaK1 : List Nat := [
  0x428A2F98D728AE22, 0x7137449123EF65CD, 0xB5C0FBCFEC4D3B2F, 0xE9B5DBA58189DBBC,
  0x3956C25BF348B538, 0x59F111F1B605D019, 0x923F82A4AF194F9B, 0xAB1C5ED5DA6D8118,
  0xD807AA98A3030242, 0x12835B0145706FBE, 0x243185BE4EE4B28C, 0x550C7DC3D5FFB4E2,
  0x72BE5D74F27B896F, 0x80DEB1FE3B1696B1, 0x9BDC06A725C71235, 0xC19BF174CF692694,
  0xE49B69C19EF14AD2, 0xEFBE4786384F25E3, 0x0FC19DC68B8CD5B5, 0x240CA1CC77AC9C65,
  0x2DE92C6F592B0275, 0x4A7484AA6EA6E483, 0x5CB0A9DCBD41FBD4, 0x76F988DA831153B5,
  0x983E5152EE66DFAB, 0xA831C66D2DB43210, 0xB00327C898FB213F, 0xBF597FC7BEEF0EE4,
  0xC6E00BF33DA88FC2, 0xD5A79147930AA725, 0x06CA6351E003826F, 0x142929670A0E6E70,
  0x27B70A8546D22FFC, 0x2E1B21385C26C926, 0x4D2C6DFC5AC42AED, 0x53380D139D95B3DF,
  0x650A73548BAF63DE, 0x766A0ABB3C77B2A8, 0x81C2C92E47EDAEE6, 0x92722C851482353B]

def shaK2 : List Nat := [
  0xA2BFE8A14CF10364, 0xA81A664BBC423001, 0xC24B8B70D0F89791, 0xC76C51A30654BE30,
  0xD192E819D6EF5218, 0xD69906245565A910, 0xF40E35855771202A, 0x106AA07032BBD1B8,
  0x19A4C116B8D2D0C8, 0x1E376C085141AB53, 0x2748774CDF8EEB99, 0x34B0BCB5E19B48A8,
  0x391C0CB3C5C95A63, 0x4ED8AA4AE3418ACB, 0x5B9CCA4F7763E373, 0x682E6FF3D6B2B8A3,
  0x748F82EE5DEFB2FC, 0x78A5636F43172F60, 0x84C87814A1F0AB72, 0x8CC702081A6439EC,
  0x90BEFFFA23631E28, 0xA4506CEBDE82BDE9, 0xBEF9A3F7B2C67915, 0xC67178F2E372532B,
  0xCA273ECEEA26619C, 0xD186B8C721C0C207, 0xEADA7DD6CDE0EB1E, 0xF57D4F7FEE6ED178,
  0x06F067AA72176FBA, 0x0A637DC5A2C898A6, 0x113F9804BEF90DAE, 0x1B710B35131C471B,
  0x28DB77F523047D84, 0x32CAAB7B40C72493, 0x3C9EBE0A15C9BEBC, 0x431D67C49C100D4C,
  0x4CC5D4BECB3E42B6, 0x597F299CFC657E2A, 0x5FCB6FAB3AD6FAEC, 0x6C44198C4A475817]

def shaK : Array Nat := (shaK1 ++ shaK2).toArray

def sha512Iv : List Nat := [
  0x6A09E667F3BCC908, 0xBB67AE8584CAA73B, 0x3C6EF372FE94F82B, 0xA54FF53A5F1D36F1,
  0x510E527FADE682D1, 0x9B05688C2B3E6C1F, 0x1F83D9ABFB41BD6B, 0x5BE0CD19137E2179]

/-- The initial value of SHA-512/256. -/
def sha512t256Iv : List Nat := [
  0x22312194FC2BF72C, 0x9F555FA3C84C64C2, 0x2393B86B6F53B151, 0x963877195940EABD,
  0x96283EE2A88EFFE3, 0xBE5E1E2553863992, 0x2B0199FC2C85B8AA, 0x0EB72DDC81C52CA2]

def rotr64 (x n : Nat) : Nat := ((x >>> n) ||| (x <<< (64 - n))) % 2 ^ 64

/-- One extension of the message schedule. -/
def shaExtend (w : Array Nat) (t : Nat) : Array Nat :=
  let a := w.getD (t - 15) 0
  let b := w.getD (t - 2) 0
  let s0 := rotr64 a 1 ^^^ rotr64 a 8 ^^^ (a >>> 7)
  let s1 := rotr64 b 19 ^^^ rotr64 b 61 ^^^ (b >>> 6)
  w.push ((w.getD (t - 16) 0 + s0 + w.getD (t - 7) 0 + s1) % 2 ^ 64)

/-- One round over the eight working variables. -/
def shaRound (w : Array Nat) (v : List Nat) (t : Nat) : List Nat :=
  match v with
  | [a, b, c, d, e, f, g, h] =>
    let s1 := rotr64 e 14 ^^^ rotr64 e 18 ^^^ rotr64 e 41
    let ch := (e &&& f) ^^^ ((2 ^ 64 - 1 - e) &&& g)
    let t1 := h + s1 + ch + shaK.getD t 0 + w.getD t 0
    let s0 := rotr64 a 28 ^^^ rotr64 a 34 ^^^ rotr64 a 39
    let mj := (a &&& b) ^^^ (a &&& c) ^^^ (b &&& c)
    [(t1 + s0 + mj) % 2 ^ 64, a, b, c, (d + t1) % 2 ^ 64, e, f, g]
  | _ => v

/-- One 128-byte block. -/
def shaBlock (h : List Nat) (blk : List Byte) : List Nat :=
  let w0 : Array Nat := ((List.range 16).map fun i => beNat (slice blk (8 * i) 8)).toArray
  let w := (List.range 64).foldl (fun w i => shaExtend w (16 + i)) w0
  let v := (List.range 80).foldl (shaRound w) h
  (h.zip v).map fun (x, y) => (x + y) % 2 ^ 64

def shaGo : Nat → List Nat → List Byte → List Nat
  | 0, h, _ => h
  | n + 1, h, bs => shaGo n (shaBlock h (bs.take 128)) (bs.drop 128)

/-- Padding and all blocks. -/
def shaWith (iv : List Nat) (m : List Byte) : List Byte :=
  let k := (239 - m.length % 128) % 128
  let p := m ++ [0x80] ++ zeros k ++ beBytes 16 (8 * m.length)
  (shaGo (p.length / 128) iv p).flatMap (beBytes 8)

def sha512 (m : List Byte) : List Byte := shaWith sha512Iv m
def sha512t256 (m : List Byte) : List Byte := (shaWith sha512t256Iv m).take 32

/-- HMAC over a hash of 128-byte blocks (RFC 2104). -/
def hmacWith (hash : List Byte → List Byte) (key m : List Byte) : List Byte :=
  let k := padTo 128 (if 128 < key.length then hash key else key)
  hash (k.map (· ^^^ 0x5C) ++ hash (k.map (· ^^^ 0x36) ++ m))

def hmacSha512 (key m : List Byte) : List Byte := hmacWith sha512 key m
def hmac256 (key m : List Byte) : List Byte := hmacWith sha512t256 key m

/-- HKDF-SHA-512 without salt, first 32 bytes of output under an info label (R592). (DESIGN CHOICE, log 12) -/
def hkdf32 (ikm : List Byte) (info : String) : List Byte :=
  (hmacSha512 (hmacSha512 (zeros 64) ikm) (ascii info ++ [1])).take 32

/-- MGF1 with SHA-512. -/
def mgf1 (seed : List Byte) (n : Nat) : List Byte :=
  (((List.range (ceilDiv n 64)).flatMap fun i => sha512 (seed ++ beBytes 4 i))).take n

/-- Modular power by squaring over the exponent's bits, most significant first. -/
def modPow (b e m : Nat) : Nat :=
  if m = 0 then 0
  else (List.range (Nat.log2 e + 1)).foldr
    (fun i acc => let q := acc * acc % m; if e.testBit i then q * b % m else q) (1 % m) |> fun r => if e = 0 then 1 % m else r

def xorBytes (a b : List Byte) : List Byte := (a.zip b).map fun (x, y) => x ^^^ y

/-- RSASSA-PSS over a message digest with a 64-byte salt: the encoded message for a modulus of 4096 bits (RFC 8017, 9.1.1). -/
def pssEncode (mHash salt : List Byte) : List Byte :=
  let h := sha512 (zeros 8 ++ mHash ++ salt)
  let db := zeros (512 - 64 - 64 - 2) ++ [1] ++ salt
  let masked := xorBytes db (mgf1 h (512 - 65))
  let masked := match masked with
    | b :: r => (b &&& 0x7F) :: r
    | [] => []
  masked ++ h ++ [0xBC]

/-- RSASSA-PSS verification with SHA-512, MGF1 with SHA-512 and a 64-byte salt (RFC 8017, 9.1.2). (DESIGN CHOICE, log 12) -/
def pssVerify (n e : Nat) (msg sig : List Byte) : Bool :=
  let s := beNat sig
  if n = 0 ∨ n ≤ s then false
  else
    let em := beBytes 512 (modPow s e n)
    let h := slice em 447 64
    let db := xorBytes (em.take 447) (mgf1 h 447)
    let db := match db with
      | b :: r => (b &&& 0x7F) :: r
      | [] => []
    let salt := db.drop 383
    (em.drop 511 == [0xBC]) && ((em.headD 0) &&& 0x80 == 0) && (db.take 382 == zeros 382) && (db.getD 382 0 == 1)
      && (h == sha512 (zeros 8 ++ sha512 msg ++ salt))

/-- RSASSA-PSS signature of a digest under a private exponent. (DESIGN CHOICE, log 12) -/
def pssSign (n d : Nat) (mHash salt : List Byte) : List Byte := beBytes 512 (modPow (beNat (pssEncode mHash salt)) d n)

/-- RSA-OAEP decryption with SHA-512 and MGF1 with SHA-512 under a label (RFC 8017, 7.1.2). -/
def oaepDecrypt (n d : Nat) (label : String) (c : List Byte) : Option (List Byte) :=
  if n = 0 ∨ n ≤ beNat c then none
  else
    let em := beBytes 512 (modPow (beNat c) d n)
    let maskedSeed := slice em 1 64
    let maskedDb := em.drop 65
    let seed := xorBytes maskedSeed (mgf1 maskedDb 64)
    let db := xorBytes maskedDb (mgf1 seed 447)
    let rest := (db.drop 64).dropWhile (· == 0)
    if em.headD 1 = 0 ∧ db.take 64 = sha512 (ascii label) ∧ rest.headD 0 = 1 then some (rest.drop 1) else none

end Sys2Proof
end

