-- ==== Sys2Proof/Machine/Regs.lean ====
section
/-! DEFINITION. Sys2Proof/Machine/Regs.lean: the register map: the fifteen blocks of R419 and every register of the chapters'
block tables with its access (R11), its reset value, its writable bits and its range. A key is block · 2^24 + offset. -/

namespace Sys2Proof

/-- Access codes of R11 (no register of the manual is WO). -/
inductive Access where
  | ro | rw | rwl | w1c | rc
  deriving DecidableEq, Repr

/-- One row of a block's table: first offset, 64-bit words, access, reset value, bits that are no reserved field. -/
structure RegRow where
  off : Nat
  words : Nat
  access : Access
  reset : Nat
  mask : Nat
  cold : Bool
  deriving DecidableEq, Repr

/-- The GEO block. -/
def regsGeo : List RegRow := [
  ⟨0x0, 1, .ro, 0x0, 0xFFFF_FFFF_FFFF_FFFF, false⟩,
  ⟨0x8, 1, .ro, 0x0, 0xFFFF_FFFF_FFFF_FFFF, false⟩,
  ⟨0x10, 1, .ro, 0x0, 0xFFFF_FFFF_FFFF_FFFF, false⟩,
  ⟨0x18, 1, .ro, 0x0, 0xFFFF_FFFF_FFFF_FFFF, false⟩,
  ⟨0x20, 1, .ro, 0x0, 0xFFFF_FFFF_FFFF_FFFF, false⟩,
  ⟨0x28, 1, .ro, 0x0, 0xFFFF_FFFF_FFFF_FFFF, false⟩,
  ⟨0x30, 1, .ro, 0x0, 0xFFFF_FFFF_FFFF_FFFF, false⟩,
  ⟨0x38, 1, .ro, 0x0, 0xFFFF_FFFF_FFFF_FFFF, false⟩,
  ⟨0x40, 1, .ro, 0x0, 0xFFFF_FFFF_FFFF_FFFF, false⟩,
  ⟨0x100, 1, .ro, 0x0, 0xFFFF_FFFF_FFFF_FFFF, false⟩,
  ⟨0x108, 1, .rc, 0x0, 0xFFFF_FFFF_FFFF_FFFF, false⟩,
  ⟨0x200, 21, .ro, 0x0, 0xFFFF_FFFF_FFFF_FFFF, false⟩,
  ⟨0x400, 8, .ro, 0x0, 0xFFFF_FFFF_FFFF_FFFF, false⟩,
  ⟨0x500, 16, .ro, 0x0, 0xFFFF_FFFF_FFFF_FFFF, false⟩]

/-- The CFG block. -/
def regsCfg : List RegRow := [
  ⟨0x0, 1, .ro, 0x0, 0xFFFF_FFFF_FFFF_FFFF, false⟩,
  ⟨0x8, 1, .ro, 0x0, 0xFFFF_FFFF_FFFF_FFFF, false⟩,
  ⟨0x10, 1, .ro, 0x0, 0xFFFF_FFFF_FFFF_FFFF, false⟩,
  ⟨0x18, 1, .ro, 0x0, 0xFFFF_FFFF_FFFF_FFFF, false⟩,
  ⟨0x20, 1, .ro, 0x0, 0xFFFF_FFFF_FFFF_FFFF, false⟩,
  ⟨0x28, 1, .ro, 0x0, 0xFFFF_FFFF_FFFF_FFFF, false⟩,
  ⟨0x30, 1, .ro, 0x0, 0xFFFF_FFFF_FFFF_FFFF, false⟩,
  ⟨0x38, 1, .ro, 0x0, 0xFFFF_FFFF_FFFF_FFFF, false⟩,
  ⟨0x40, 11, .ro, 0x0, 0xFFFF_FFFF_FFFF_FFFF, false⟩,
  ⟨0x100, 1, .rwl, 0x100, 0xFFFF_FFFF_FFFF_FFFF, true⟩,
  ⟨0x108, 1, .rwl, 0x8, 0xFFFF_FFFF_FFFF_FFFF, true⟩,
  ⟨0x110, 1, .rwl, 0x0, 0x1F1F_1F1F, true⟩,
  ⟨0x118, 1, .rwl, 0x1010101, 0x3F3F_3F3F, true⟩,
  ⟨0x120, 1, .rwl, 0x0, 0xF, false⟩,
  ⟨0x128, 1, .rwl, 0xf, 0xF, false⟩,
  ⟨0x130, 1, .rwl, 0x0, 0x3FF, true⟩]

/-- The PWR block. -/
def regsPwr : List RegRow := [
  ⟨0x0, 1, .ro, 0x0, 0xFFFF_FFFF_FFFF_FFFF, false⟩,
  ⟨0x8, 1, .ro, 0x0, 0xFFFF_FFFF_FFFF_FFFF, false⟩,
  ⟨0x10, 1, .rw, 0x3a98, 0xFFFF_FFFF_FFFF_FFFF, false⟩,
  ⟨0x18, 1, .rw, 0x640, 0xFFFF_FFFF_FFFF_FFFF, false⟩,
  ⟨0x20, 1, .rwl, 0x1, 0x1, false⟩,
  ⟨0x28, 1, .ro, 0x0, 0xFFFF_FFFF_FFFF_FFFF, false⟩,
  ⟨0x30, 1, .ro, 0x0, 0xFFFF_FFFF_FFFF_FFFF, false⟩,
  ⟨0x38, 1, .ro, 0x0, 0xFFFF_FFFF_FFFF_FFFF, false⟩,
  ⟨0x40, 1, .ro, 0x0, 0xFFFF_FFFF_FFFF_FFFF, false⟩,
  ⟨0x48, 1, .ro, 0x0, 0xFFFF_FFFF_FFFF_FFFF, false⟩,
  ⟨0x50, 1, .ro, 0x0, 0xFFFF_FFFF_FFFF_FFFF, false⟩,
  ⟨0x58, 1, .rc, 0x0, 0xFFFF_FFFF_FFFF_FFFF, false⟩,
  ⟨0x60, 1, .rc, 0x0, 0xFFFF_FFFF_FFFF_FFFF, false⟩,
  ⟨0x68, 1, .rc, 0x0, 0xFFFF_FFFF_FFFF_FFFF, false⟩,
  ⟨0x70, 1, .rc, 0x0, 0xFFFF_FFFF_FFFF_FFFF, false⟩,
  ⟨0x100, 8, .ro, 0x0, 0xFFFF_FFFF_FFFF_FFFF, false⟩,
  ⟨0x200, 64, .ro, 0x0, 0xFFFF_FFFF_FFFF_FFFF, false⟩,
  ⟨0x400, 10, .ro, 0x0, 0xFFFF_FFFF_FFFF_FFFF, false⟩,
  ⟨0x800, 77, .ro, 0x0, 0xFFFF_FFFF_FFFF_FFFF, false⟩]

/-- The THM block. -/
def regsThm : List RegRow := [
  ⟨0x0, 1, .ro, 0x0, 0xFFFF_FFFF_FFFF_FFFF, false⟩,
  ⟨0x8, 1, .ro, 0x0, 0xFFFF_FFFF_FFFF_FFFF, false⟩,
  ⟨0x10, 1, .ro, 0x0, 0xFFFF_FFFF_FFFF_FFFF, false⟩,
  ⟨0x18, 1, .ro, 0x0, 0xFFFF_FFFF_FFFF_FFFF, false⟩,
  ⟨0x20, 1, .rc, 0x0, 0xFFFF_FFFF_FFFF_FFFF, false⟩,
  ⟨0x28, 1, .rc, 0x0, 0xFFFF_FFFF_FFFF_FFFF, false⟩,
  ⟨0x30, 1, .ro, 0x0, 0xFFFF_FFFF_FFFF_FFFF, false⟩,
  ⟨0x100, 153, .ro, 0x0, 0xFFFF_FFFF_FFFF_FFFF, false⟩,
  ⟨0x600, 20, .ro, 0x0, 0xFFFF_FFFF_FFFF_FFFF, false⟩]

/-- The EVT block. -/
def regsEvt : List RegRow := [
  ⟨0x0, 1, .ro, 0x0, 0xFFFF_FFFF_FFFF_FFFF, false⟩,
  ⟨0x8, 1, .ro, 0x0, 0xFFFF_FFFF_FFFF_FFFF, false⟩,
  ⟨0x10, 1, .ro, 0x0, 0xFFFF_FFFF_FFFF_FFFF, false⟩,
  ⟨0x18, 1, .ro, 0x0, 0xFFFF_FFFF_FFFF_FFFF, false⟩,
  ⟨0x20, 1, .ro, 0x0, 0xFFFF_FFFF_FFFF_FFFF, false⟩,
  ⟨0x28, 1, .rc, 0x0, 0xFFFF_FFFF_FFFF_FFFF, false⟩,
  ⟨0x30, 1, .rc, 0x0, 0xFFFF_FFFF_FFFF_FFFF, false⟩,
  ⟨0x38, 1, .rc, 0x0, 0xFFFF_FFFF_FFFF_FFFF, false⟩,
  ⟨0x40, 1, .rw, 0x3e8, 0xFFFF_FFFF_FFFF_FFFF, false⟩,
  ⟨0x48, 1, .rw, 0x40, 0xFFFF_FFFF_FFFF_FFFF, false⟩,
  ⟨0x50, 1, .ro, 0x0, 0xFFFF_FFFF_FFFF_FFFF, false⟩,
  ⟨0x58, 1, .ro, 0x0, 0xFFFF_FFFF_FFFF_FFFF, false⟩,
  ⟨0x60, 1, .rc, 0x0, 0xFFFF_FFFF_FFFF_FFFF, false⟩,
  ⟨0x100, 32, .rw, 0x0, 0xFFFF_FFFF, false⟩]

/-- The POL block. -/
def regsPol : List RegRow := [
  ⟨0x0, 1, .ro, 0x0, 0xFFFF_FFFF_FFFF_FFFF, false⟩,
  ⟨0x8, 1, .rc, 0x0, 0xFFFF_FFFF_FFFF_FFFF, false⟩,
  ⟨0x10, 1, .rc, 0x0, 0xFFFF_FFFF_FFFF_FFFF, false⟩,
  ⟨0x18, 1, .rc, 0x0, 0xFFFF_FFFF_FFFF_FFFF, false⟩,
  ⟨0x20, 1, .rc, 0x0, 0xFFFF_FFFF_FFFF_FFFF, false⟩,
  ⟨0x28, 1, .rc, 0x0, 0xFFFF_FFFF_FFFF_FFFF, false⟩,
  ⟨0x30, 1, .rc, 0x0, 0xFFFF_FFFF_FFFF_FFFF, false⟩,
  ⟨0x38, 1, .ro, 0x0, 0xFFFF_FFFF_FFFF_FFFF, false⟩,
  ⟨0x40, 1, .rc, 0x0, 0xFFFF_FFFF_FFFF_FFFF, false⟩,
  ⟨0x1000, 2560, .ro, 0x0, 0xFFFF_FFFF_FFFF_FFFF, false⟩,
  ⟨0x8000, 20480, .ro, 0x0, 0xFFFF_FFFF_FFFF_FFFF, false⟩]

/-- The LNK block. -/
def regsLnk : List RegRow := [
  ⟨0x0, 1, .ro, 0x0, 0xFFFF_FFFF_FFFF_FFFF, false⟩,
  ⟨0x8, 1, .ro, 0x0, 0xFFFF_FFFF_FFFF_FFFF, false⟩,
  ⟨0x10, 1, .w1c, 0x0, 0xF, false⟩,
  ⟨0x18, 1, .rwl, 0x40000, 0xFFFF_FFFF_FFFF_FFFF, false⟩,
  ⟨0x20, 1, .rwl, 0x3e8, 0xFFFF_FFFF_FFFF_FFFF, false⟩,
  ⟨0x28, 1, .rc, 0x0, 0xFFFF_FFFF_FFFF_FFFF, false⟩,
  ⟨0x100, 1, .ro, 0x0, 0xFFFF_FFFF_FFFF_FFFF, false⟩,
  ⟨0x108, 1, .ro, 0x0, 0xFFFF_FFFF_FFFF_FFFF, false⟩,
  ⟨0x110, 1, .rc, 0x0, 0xFFFF_FFFF_FFFF_FFFF, false⟩,
  ⟨0x118, 1, .rc, 0x0, 0xFFFF_FFFF_FFFF_FFFF, false⟩,
  ⟨0x120, 1, .rc, 0x0, 0xFFFF_FFFF_FFFF_FFFF, false⟩,
  ⟨0x128, 1, .rc, 0x0, 0xFFFF_FFFF_FFFF_FFFF, false⟩,
  ⟨0x130, 1, .rc, 0x0, 0xFFFF_FFFF_FFFF_FFFF, false⟩,
  ⟨0x138, 1, .rc, 0x0, 0xFFFF_FFFF_FFFF_FFFF, false⟩,
  ⟨0x140, 1, .ro, 0x0, 0xFFFF_FFFF_FFFF_FFFF, false⟩,
  ⟨0x148, 2, .ro, 0x0, 0xFFFF_FFFF_FFFF_FFFF, false⟩,
  ⟨0x180, 1, .ro, 0x0, 0xFFFF_FFFF_FFFF_FFFF, false⟩,
  ⟨0x188, 1, .ro, 0x0, 0xFFFF_FFFF_FFFF_FFFF, false⟩,
  ⟨0x190, 1, .rc, 0x0, 0xFFFF_FFFF_FFFF_FFFF, false⟩,
  ⟨0x198, 1, .rc, 0x0, 0xFFFF_FFFF_FFFF_FFFF, false⟩,
  ⟨0x1a0, 1, .rc, 0x0, 0xFFFF_FFFF_FFFF_FFFF, false⟩,
  ⟨0x1a8, 1, .rc, 0x0, 0xFFFF_FFFF_FFFF_FFFF, false⟩,
  ⟨0x1b0, 1, .rc, 0x0, 0xFFFF_FFFF_FFFF_FFFF, false⟩,
  ⟨0x1b8, 1, .rc, 0x0, 0xFFFF_FFFF_FFFF_FFFF, false⟩,
  ⟨0x1c0, 1, .ro, 0x0, 0xFFFF_FFFF_FFFF_FFFF, false⟩,
  ⟨0x1c8, 2, .ro, 0x0, 0xFFFF_FFFF_FFFF_FFFF, false⟩,
  ⟨0x200, 1, .ro, 0x0, 0xFFFF_FFFF_FFFF_FFFF, false⟩,
  ⟨0x208, 1, .ro, 0x0, 0xFFFF_FFFF_FFFF_FFFF, false⟩,
  ⟨0x210, 1, .rc, 0x0, 0xFFFF_FFFF_FFFF_FFFF, false⟩,
  ⟨0x218, 1, .rc, 0x0, 0xFFFF_FFFF_FFFF_FFFF, false⟩,
  ⟨0x220, 1, .rc, 0x0, 0xFFFF_FFFF_FFFF_FFFF, false⟩,
  ⟨0x228, 1, .rc, 0x0, 0xFFFF_FFFF_FFFF_FFFF, false⟩,
  ⟨0x230, 1, .rc, 0x0, 0xFFFF_FFFF_FFFF_FFFF, false⟩,
  ⟨0x238, 1, .rc, 0x0, 0xFFFF_FFFF_FFFF_FFFF, false⟩,
  ⟨0x240, 1, .ro, 0x0, 0xFFFF_FFFF_FFFF_FFFF, false⟩,
  ⟨0x248, 2, .ro, 0x0, 0xFFFF_FFFF_FFFF_FFFF, false⟩,
  ⟨0x280, 1, .ro, 0x0, 0xFFFF_FFFF_FFFF_FFFF, false⟩,
  ⟨0x288, 1, .ro, 0x0, 0xFFFF_FFFF_FFFF_FFFF, false⟩,
  ⟨0x290, 1, .rc, 0x0, 0xFFFF_FFFF_FFFF_FFFF, false⟩,
  ⟨0x298, 1, .rc, 0x0, 0xFFFF_FFFF_FFFF_FFFF, false⟩,
  ⟨0x2a0, 1, .rc, 0x0, 0xFFFF_FFFF_FFFF_FFFF, false⟩,
  ⟨0x2a8, 1, .rc, 0x0, 0xFFFF_FFFF_FFFF_FFFF, false⟩,
  ⟨0x2b0, 1, .rc, 0x0, 0xFFFF_FFFF_FFFF_FFFF, false⟩,
  ⟨0x2b8, 1, .rc, 0x0, 0xFFFF_FFFF_FFFF_FFFF, false⟩,
  ⟨0x2c0, 1, .ro, 0x0, 0xFFFF_FFFF_FFFF_FFFF, false⟩,
  ⟨0x2c8, 2, .ro, 0x0, 0xFFFF_FFFF_FFFF_FFFF, false⟩,
  ⟨0x300, 1, .ro, 0x0, 0xFFFF_FFFF_FFFF_FFFF, false⟩,
  ⟨0x308, 1, .ro, 0x0, 0xFFFF_FFFF_FFFF_FFFF, false⟩,
  ⟨0x310, 1, .rc, 0x0, 0xFFFF_FFFF_FFFF_FFFF, false⟩,
  ⟨0x318, 1, .rc, 0x0, 0xFFFF_FFFF_FFFF_FFFF, false⟩,
  ⟨0x320, 1, .rc, 0x0, 0xFFFF_FFFF_FFFF_FFFF, false⟩,
  ⟨0x328, 1, .rc, 0x0, 0xFFFF_FFFF_FFFF_FFFF, false⟩,
  ⟨0x330, 1, .rc, 0x0, 0xFFFF_FFFF_FFFF_FFFF, false⟩,
  ⟨0x338, 1, .rc, 0x0, 0xFFFF_FFFF_FFFF_FFFF, false⟩,
  ⟨0x340, 1, .ro, 0x0, 0xFFFF_FFFF_FFFF_FFFF, false⟩,
  ⟨0x348, 2, .ro, 0x0, 0xFFFF_FFFF_FFFF_FFFF, false⟩,
  ⟨0x380, 1, .ro, 0x0, 0xFFFF_FFFF_FFFF_FFFF, false⟩,
  ⟨0x388, 1, .ro, 0x0, 0xFFFF_FFFF_FFFF_FFFF, false⟩,
  ⟨0x390, 1, .rc, 0x0, 0xFFFF_FFFF_FFFF_FFFF, false⟩,
  ⟨0x398, 1, .rc, 0x0, 0xFFFF_FFFF_FFFF_FFFF, false⟩,
  ⟨0x3a0, 1, .rc, 0x0, 0xFFFF_FFFF_FFFF_FFFF, false⟩,
  ⟨0x3a8, 1, .rc, 0x0, 0xFFFF_FFFF_FFFF_FFFF, false⟩,
  ⟨0x3b0, 1, .rc, 0x0, 0xFFFF_FFFF_FFFF_FFFF, false⟩,
  ⟨0x3b8, 1, .rc, 0x0, 0xFFFF_FFFF_FFFF_FFFF, false⟩,
  ⟨0x3c0, 1, .ro, 0x0, 0xFFFF_FFFF_FFFF_FFFF, false⟩,
  ⟨0x3c8, 2, .ro, 0x0, 0xFFFF_FFFF_FFFF_FFFF, false⟩,
  ⟨0x400, 1, .ro, 0x0, 0xFFFF_FFFF_FFFF_FFFF, false⟩,
  ⟨0x408, 1, .ro, 0x0, 0xFFFF_FFFF_FFFF_FFFF, false⟩,
  ⟨0x410, 1, .rc, 0x0, 0xFFFF_FFFF_FFFF_FFFF, false⟩,
  ⟨0x418, 1, .rc, 0x0, 0xFFFF_FFFF_FFFF_FFFF, false⟩,
  ⟨0x420, 1, .rc, 0x0, 0xFFFF_FFFF_FFFF_FFFF, false⟩,
  ⟨0x428, 1, .rc, 0x0, 0xFFFF_FFFF_FFFF_FFFF, false⟩,
  ⟨0x430, 1, .rc, 0x0, 0xFFFF_FFFF_FFFF_FFFF, false⟩,
  ⟨0x438, 1, .rc, 0x0, 0xFFFF_FFFF_FFFF_FFFF, false⟩,
  ⟨0x440, 1, .ro, 0x0, 0xFFFF_FFFF_FFFF_FFFF, false⟩,
  ⟨0x448, 2, .ro, 0x0, 0xFFFF_FFFF_FFFF_FFFF, false⟩,
  ⟨0x480, 1, .ro, 0x0, 0xFFFF_FFFF_FFFF_FFFF, false⟩,
  ⟨0x488, 1, .ro, 0x0, 0xFFFF_FFFF_FFFF_FFFF, false⟩,
  ⟨0x490, 1, .rc, 0x0, 0xFFFF_FFFF_FFFF_FFFF, false⟩,
  ⟨0x498, 1, .rc, 0x0, 0xFFFF_FFFF_FFFF_FFFF, false⟩,
  ⟨0x4a0, 1, .rc, 0x0, 0xFFFF_FFFF_FFFF_FFFF, false⟩,
  ⟨0x4a8, 1, .rc, 0x0, 0xFFFF_FFFF_FFFF_FFFF, false⟩,
  ⟨0x4b0, 1, .rc, 0x0, 0xFFFF_FFFF_FFFF_FFFF, false⟩,
  ⟨0x4b8, 1, .rc, 0x0, 0xFFFF_FFFF_FFFF_FFFF, false⟩,
  ⟨0x4c0, 1, .ro, 0x0, 0xFFFF_FFFF_FFFF_FFFF, false⟩,
  ⟨0x4c8, 2, .ro, 0x0, 0xFFFF_FFFF_FFFF_FFFF, false⟩]

/-- The ETH block. -/
def regsEth : List RegRow := [
  ⟨0x0, 1, .ro, 0x0, 0xFFFF_FFFF_FFFF_FFFF, false⟩,
  ⟨0x10, 1, .rwl, 0x1, 0x7, false⟩,
  ⟨0x18, 1, .ro, 0x0, 0xFFFF_FFFF_FFFF_FFFF, false⟩,
  ⟨0x20, 1, .rwl, 0x0, 0x3F_FFFF_FFFF, false⟩,
  ⟨0x28, 1, .rwl, 0x0, 0xFFFF_FFFF, false⟩,
  ⟨0x30, 1, .rwl, 0x0, 0xFFFF_FFFF_FFFF_FFFF, false⟩,
  ⟨0x38, 1, .rwl, 0x0, 0xFFFF_FFFF_FFFF_FFFF, false⟩,
  ⟨0x40, 1, .rwl, 0x0, 0xFF, false⟩,
  ⟨0x48, 1, .rwl, 0x0, 0xFFFF_FFFF_FFFF_FFFF, false⟩,
  ⟨0x50, 1, .rwl, 0x0, 0xFFFF_FFFF_FFFF_FFFF, false⟩,
  ⟨0x58, 1, .rwl, 0x0, 0x77_1FFF, false⟩,
  ⟨0x60, 1, .rwl, 0x5dc, 0xFFFF_FFFF_FFFF_FFFF, false⟩,
  ⟨0x68, 1, .rwl, 0x0, 0xFF, false⟩,
  ⟨0x70, 1, .ro, 0x0, 0xFFFF_FFFF_FFFF_FFFF, false⟩,
  ⟨0x78, 1, .rc, 0x0, 0xFFFF_FFFF_FFFF_FFFF, false⟩,
  ⟨0x80, 1, .rc, 0x0, 0xFFFF_FFFF_FFFF_FFFF, false⟩,
  ⟨0x88, 1, .rc, 0x0, 0xFFFF_FFFF_FFFF_FFFF, false⟩,
  ⟨0x90, 1, .rc, 0x0, 0xFFFF_FFFF_FFFF_FFFF, false⟩,
  ⟨0x98, 1, .rc, 0x0, 0xFFFF_FFFF_FFFF_FFFF, false⟩,
  ⟨0xa0, 1, .rc, 0x0, 0xFFFF_FFFF_FFFF_FFFF, false⟩,
  ⟨0xa8, 1, .rc, 0x0, 0xFFFF_FFFF_FFFF_FFFF, false⟩,
  ⟨0xb0, 1, .rc, 0x0, 0xFFFF_FFFF_FFFF_FFFF, false⟩,
  ⟨0xb8, 1, .rc, 0x0, 0xFFFF_FFFF_FFFF_FFFF, false⟩,
  ⟨0x110, 1, .rwl, 0x1, 0x7, false⟩,
  ⟨0x118, 1, .ro, 0x0, 0xFFFF_FFFF_FFFF_FFFF, false⟩,
  ⟨0x120, 1, .rwl, 0x0, 0x3F_FFFF_FFFF, false⟩,
  ⟨0x128, 1, .rwl, 0x0, 0xFFFF_FFFF, false⟩,
  ⟨0x130, 1, .rwl, 0x0, 0xFFFF_FFFF_FFFF_FFFF, false⟩,
  ⟨0x138, 1, .rwl, 0x0, 0xFFFF_FFFF_FFFF_FFFF, false⟩,
  ⟨0x140, 1, .rwl, 0x0, 0xFF, false⟩,
  ⟨0x148, 1, .rwl, 0x0, 0xFFFF_FFFF_FFFF_FFFF, false⟩,
  ⟨0x150, 1, .rwl, 0x0, 0xFFFF_FFFF_FFFF_FFFF, false⟩,
  ⟨0x158, 1, .rwl, 0x0, 0x77_1FFF, false⟩,
  ⟨0x160, 1, .rwl, 0x5dc, 0xFFFF_FFFF_FFFF_FFFF, false⟩,
  ⟨0x168, 1, .rwl, 0x0, 0xFF, false⟩,
  ⟨0x170, 1, .ro, 0x0, 0xFFFF_FFFF_FFFF_FFFF, false⟩,
  ⟨0x178, 1, .rc, 0x0, 0xFFFF_FFFF_FFFF_FFFF, false⟩,
  ⟨0x180, 1, .rc, 0x0, 0xFFFF_FFFF_FFFF_FFFF, false⟩,
  ⟨0x188, 1, .rc, 0x0, 0xFFFF_FFFF_FFFF_FFFF, false⟩,
  ⟨0x190, 1, .rc, 0x0, 0xFFFF_FFFF_FFFF_FFFF, false⟩,
  ⟨0x198, 1, .rc, 0x0, 0xFFFF_FFFF_FFFF_FFFF, false⟩,
  ⟨0x1a0, 1, .rc, 0x0, 0xFFFF_FFFF_FFFF_FFFF, false⟩,
  ⟨0x1a8, 1, .rc, 0x0, 0xFFFF_FFFF_FFFF_FFFF, false⟩,
  ⟨0x1b0, 1, .rc, 0x0, 0xFFFF_FFFF_FFFF_FFFF, false⟩,
  ⟨0x1b8, 1, .rc, 0x0, 0xFFFF_FFFF_FFFF_FFFF, false⟩]

/-- The CMP block. -/
def regsCmp : List RegRow := [
  ⟨0x0, 1, .ro, 0x0, 0xFFFF_FFFF_FFFF_FFFF, false⟩,
  ⟨0x8, 1, .rwl, 0xca08, 0xFFFF_FFFF_FFFF_FFFF, false⟩,
  ⟨0x10, 1, .rwl, 0xca09, 0xFFFF_FFFF_FFFF_FFFF, false⟩,
  ⟨0x18, 1, .rwl, 0x1f4, 0xFFFF_FFFF_FFFF_FFFF, false⟩,
  ⟨0x20, 1, .rwl, 0xc, 0xFFFF_FFFF_FFFF_FFFF, false⟩,
  ⟨0x28, 1, .rwl, 0x3c, 0xFFFF_FFFF_FFFF_FFFF, false⟩,
  ⟨0x30, 1, .rwl, 0x3e8, 0xFFFF_FFFF_FFFF_FFFF, false⟩,
  ⟨0x38, 1, .ro, 0x0, 0xFFFF_FFFF_FFFF_FFFF, false⟩,
  ⟨0x40, 1, .ro, 0x0, 0xFFFF_FFFF_FFFF_FFFF, false⟩,
  ⟨0x48, 1, .rc, 0x0, 0xFFFF_FFFF_FFFF_FFFF, false⟩,
  ⟨0x50, 1, .rc, 0x0, 0xFFFF_FFFF_FFFF_FFFF, false⟩,
  ⟨0x58, 1, .rc, 0x0, 0xFFFF_FFFF_FFFF_FFFF, false⟩,
  ⟨0x60, 1, .rc, 0x0, 0xFFFF_FFFF_FFFF_FFFF, false⟩,
  ⟨0x68, 1, .rc, 0x0, 0xFFFF_FFFF_FFFF_FFFF, false⟩,
  ⟨0x70, 1, .rc, 0x0, 0xFFFF_FFFF_FFFF_FFFF, false⟩,
  ⟨0x78, 1, .rc, 0x0, 0xFFFF_FFFF_FFFF_FFFF, false⟩,
  ⟨0x80, 1, .rc, 0x0, 0xFFFF_FFFF_FFFF_FFFF, false⟩,
  ⟨0x100, 64, .rwl, 0x0, 0xFFFF_FFFF_FFFF_FFFF, false⟩,
  ⟨0x400, 128, .ro, 0x0, 0xFFFF_FFFF_FFFF_FFFF, false⟩,
  ⟨0x10000, 8192, .ro, 0x0, 0xFFFF_FFFF_FFFF_FFFF, false⟩]

/-- The JNL block. -/
def regsJnl : List RegRow := [
  ⟨0x0, 1, .ro, 0x0, 0xFFFF_FFFF_FFFF_FFFF, false⟩,
  ⟨0x8, 1, .ro, 0x0, 0xFFFF_FFFF_FFFF_FFFF, false⟩,
  ⟨0x10, 1, .ro, 0x0, 0xFFFF_FFFF_FFFF_FFFF, false⟩,
  ⟨0x18, 1, .ro, 0x0, 0xFFFF_FFFF_FFFF_FFFF, false⟩,
  ⟨0x20, 1, .ro, 0x0, 0xFFFF_FFFF_FFFF_FFFF, false⟩,
  ⟨0x28, 1, .ro, 0x0, 0xFFFF_FFFF_FFFF_FFFF, false⟩,
  ⟨0x30, 1, .rc, 0x0, 0xFFFF_FFFF_FFFF_FFFF, false⟩,
  ⟨0x38, 1, .rc, 0x0, 0xFFFF_FFFF_FFFF_FFFF, false⟩,
  ⟨0x40, 1, .ro, 0x0, 0xFFFF_FFFF_FFFF_FFFF, false⟩,
  ⟨0x48, 1, .ro, 0x0, 0xFFFF_FFFF_FFFF_FFFF, false⟩,
  ⟨0x100, 64, .ro, 0x0, 0xFFFF_FFFF_FFFF_FFFF, false⟩,
  ⟨0x300, 1, .ro, 0x0, 0xFFFF_FFFF_FFFF_FFFF, false⟩]

/-- The SEC block. -/
def regsSec : List RegRow := [
  ⟨0x0, 1, .ro, 0x0, 0xFFFF_FFFF_FFFF_FFFF, false⟩,
  ⟨0x8, 1, .ro, 0x0, 0xFFFF_FFFF_FFFF_FFFF, false⟩,
  ⟨0x10, 2, .ro, 0x0, 0xFFFF_FFFF_FFFF_FFFF, false⟩,
  ⟨0x20, 1, .ro, 0x0, 0xFFFF_FFFF_FFFF_FFFF, false⟩,
  ⟨0x28, 1, .ro, 0x0, 0xFFFF_FFFF_FFFF_FFFF, false⟩,
  ⟨0x30, 1, .rc, 0x0, 0xFFFF_FFFF_FFFF_FFFF, false⟩,
  ⟨0x38, 1, .rc, 0x0, 0xFFFF_FFFF_FFFF_FFFF, false⟩]

/-- The FWU block. -/
def regsFwu : List RegRow := [
  ⟨0x0, 1, .ro, 0x0, 0xFFFF_FFFF_FFFF_FFFF, false⟩,
  ⟨0x8, 1, .ro, 0x0, 0xFFFF_FFFF_FFFF_FFFF, false⟩,
  ⟨0x10, 1, .ro, 0x0, 0xFFFF_FFFF_FFFF_FFFF, false⟩,
  ⟨0x18, 1, .ro, 0x0, 0xFFFF_FFFF_FFFF_FFFF, false⟩,
  ⟨0x20, 1, .ro, 0x0, 0xFFFF_FFFF_FFFF_FFFF, false⟩,
  ⟨0x28, 1, .ro, 0x0, 0xFFFF_FFFF_FFFF_FFFF, false⟩,
  ⟨0x30, 1, .ro, 0x0, 0xFFFF_FFFF_FFFF_FFFF, false⟩,
  ⟨0x38, 1, .ro, 0x0, 0xFFFF_FFFF_FFFF_FFFF, false⟩,
  ⟨0x40, 1, .ro, 0x0, 0xFFFF_FFFF_FFFF_FFFF, false⟩,
  ⟨0x48, 1, .rc, 0x0, 0xFFFF_FFFF_FFFF_FFFF, false⟩,
  ⟨0x100, 6, .ro, 0x0, 0xFFFF_FFFF_FFFF_FFFF, false⟩]

/-- The LIF block. -/
def regsLif : List RegRow := [
  ⟨0x0, 1, .ro, 0x0, 0xFFFF_FFFF_FFFF_FFFF, false⟩,
  ⟨0x8, 1, .ro, 0x0, 0xFFFF_FFFF_FFFF_FFFF, false⟩,
  ⟨0x10, 1, .ro, 0x0, 0xFFFF_FFFF_FFFF_FFFF, false⟩,
  ⟨0x18, 1, .ro, 0x0, 0xFFFF_FFFF_FFFF_FFFF, false⟩,
  ⟨0x20, 1, .rc, 0x0, 0xFFFF_FFFF_FFFF_FFFF, false⟩,
  ⟨0x28, 1, .ro, 0x0, 0xFFFF_FFFF_FFFF_FFFF, false⟩,
  ⟨0x30, 1, .ro, 0x0, 0xFFFF_FFFF_FFFF_FFFF, false⟩,
  ⟨0x38, 1, .ro, 0x0, 0xFFFF_FFFF_FFFF_FFFF, false⟩,
  ⟨0x40, 1, .ro, 0x0, 0xFFFF_FFFF_FFFF_FFFF, false⟩,
  ⟨0x48, 1, .ro, 0x0, 0xFFFF_FFFF_FFFF_FFFF, false⟩,
  ⟨0x50, 1, .rc, 0x0, 0xFFFF_FFFF_FFFF_FFFF, false⟩,
  ⟨0x58, 1, .rc, 0x0, 0xFFFF_FFFF_FFFF_FFFF, false⟩,
  ⟨0x60, 1, .rc, 0x0, 0xFFFF_FFFF_FFFF_FFFF, false⟩,
  ⟨0x68, 1, .rc, 0x0, 0xFFFF_FFFF_FFFF_FFFF, false⟩,
  ⟨0x70, 1, .ro, 0x0, 0xFFFF_FFFF_FFFF_FFFF, false⟩,
  ⟨0x100, 32, .ro, 0x0, 0xFFFF_FFFF_FFFF_FFFF, false⟩,
  ⟨0x200, 10, .ro, 0x0, 0xFFFF_FFFF_FFFF_FFFF, false⟩,
  ⟨0x300, 88, .ro, 0x0, 0xFFFF_FFFF_FFFF_FFFF, false⟩,
  ⟨0x600, 77, .ro, 0x0, 0xFFFF_FFFF_FFFF_FFFF, false⟩,
  ⟨0x900, 612, .ro, 0x0, 0xFFFF_FFFF_FFFF_FFFF, false⟩,
  ⟨0x2000, 169, .ro, 0x0, 0xFFFF_FFFF_FFFF_FFFF, false⟩,
  ⟨0x2600, 12, .ro, 0x0, 0xFFFF_FFFF_FFFF_FFFF, false⟩]

/-- The BNT block. -/
def regsBnt : List RegRow := [
  ⟨0x0, 1, .ro, 0x0, 0xFFFF_FFFF_FFFF_FFFF, false⟩,
  ⟨0x8, 1, .ro, 0x0, 0xFFFF_FFFF_FFFF_FFFF, false⟩,
  ⟨0x10, 1, .ro, 0x0, 0xFFFF_FFFF_FFFF_FFFF, false⟩,
  ⟨0x18, 1, .rc, 0x0, 0xFFFF_FFFF_FFFF_FFFF, false⟩,
  ⟨0x20, 1, .rc, 0x0, 0xFFFF_FFFF_FFFF_FFFF, false⟩,
  ⟨0x28, 1, .rc, 0x0, 0xFFFF_FFFF_FFFF_FFFF, false⟩,
  ⟨0x30, 1, .rc, 0x0, 0xFFFF_FFFF_FFFF_FFFF, false⟩,
  ⟨0x38, 1, .rc, 0x0, 0xFFFF_FFFF_FFFF_FFFF, false⟩,
  ⟨0x40, 1, .rc, 0x0, 0xFFFF_FFFF_FFFF_FFFF, false⟩,
  ⟨0x48, 1, .rc, 0x0, 0xFFFF_FFFF_FFFF_FFFF, false⟩,
  ⟨0x50, 1, .rc, 0x0, 0xFFFF_FFFF_FFFF_FFFF, false⟩,
  ⟨0x58, 1, .rc, 0x0, 0xFFFF_FFFF_FFFF_FFFF, false⟩,
  ⟨0x60, 1, .ro, 0x0, 0xFFFF_FFFF_FFFF_FFFF, false⟩,
  ⟨0x68, 1, .ro, 0x0, 0xFFFF_FFFF_FFFF_FFFF, false⟩,
  ⟨0x70, 1, .ro, 0x0, 0xFFFF_FFFF_FFFF_FFFF, false⟩,
  ⟨0x78, 1, .rc, 0x0, 0xFFFF_FFFF_FFFF_FFFF, false⟩,
  ⟨0x80, 1, .rwl, 0x7d0, 0xFFFF_FFFF_FFFF_FFFF, false⟩,
  ⟨0x88, 1, .ro, 0x0, 0xFFFF_FFFF_FFFF_FFFF, false⟩,
  ⟨0x90, 1, .rc, 0x0, 0xFFFF_FFFF_FFFF_FFFF, false⟩,
  ⟨0x100, 8, .ro, 0x0, 0xFFFF_FFFF_FFFF_FFFF, false⟩]

/-- The XPR block. -/
def regsXpr : List RegRow := [
  ⟨0x0, 1, .ro, 0x0, 0xFFFF_FFFF_FFFF_FFFF, false⟩,
  ⟨0x8, 1, .ro, 0x0, 0xFFFF_FFFF_FFFF_FFFF, false⟩,
  ⟨0x10, 1, .ro, 0x0, 0xFFFF_FFFF_FFFF_FFFF, false⟩,
  ⟨0x18, 1, .ro, 0x0, 0xFFFF_FFFF_FFFF_FFFF, false⟩,
  ⟨0x20, 1, .ro, 0x0, 0xFFFF_FFFF_FFFF_FFFF, false⟩,
  ⟨0x28, 1, .ro, 0x0, 0xFFFF_FFFF_FFFF_FFFF, false⟩,
  ⟨0x30, 1, .rc, 0x0, 0xFFFF_FFFF_FFFF_FFFF, false⟩,
  ⟨0x38, 1, .rc, 0x0, 0xFFFF_FFFF_FFFF_FFFF, false⟩,
  ⟨0x40, 1, .rc, 0x0, 0xFFFF_FFFF_FFFF_FFFF, false⟩,
  ⟨0x48, 1, .rc, 0x0, 0xFFFF_FFFF_FFFF_FFFF, false⟩,
  ⟨0x50, 1, .rc, 0x0, 0xFFFF_FFFF_FFFF_FFFF, false⟩,
  ⟨0x100, 256, .ro, 0x0, 0xFFFF_FFFF_FFFF_FFFF, false⟩,
  ⟨0x900, 256, .ro, 0x0, 0xFFFF_FFFF_FFFF_FFFF, false⟩]

/-- The rows of a block code; none for the codes R419 reserves. -/
def regBlock : Nat → Option (List RegRow)
  | 0x01 => some regsGeo
  | 0x02 => some regsCfg
  | 0x03 => some regsPwr
  | 0x04 => some regsThm
  | 0x05 => some regsEvt
  | 0x06 => some regsPol
  | 0x07 => some regsLnk
  | 0x08 => some regsEth
  | 0x09 => some regsCmp
  | 0x0A => some regsJnl
  | 0x0B => some regsSec
  | 0x0C => some regsFwu
  | 0x0D => some regsLif
  | 0x0E => some regsBnt
  | 0x0F => some regsXpr
  | _ => none

/-- The offset after a block's last register. -/
def regBlockEnd (rows : List RegRow) : Nat := rows.foldl (fun m r => max m (r.off + 8 * r.words)) 0

/-- The row that holds a word. -/
def regRow (block off : Nat) : Option RegRow :=
  match regBlock block with
  | none => none
  | some rows => rows.find? fun r => decide (r.off ≤ off ∧ off < r.off + 8 * r.words)

def regKey (block off : Nat) : Nat := block * 2 ^ 24 + off

/-- The reset value of a stored register word; 0 where there is no register. -/
def regReset (key : Nat) : W64 :=
  match regRow (key / 2 ^ 24) (key % 2 ^ 24) with
  | some r => BitVec.ofNat 64 r.reset
  | none => 0

/-- A stored register word: the map lists only words that differ from their reset value. -/
def regGet (m : List (Nat × W64)) (key : Nat) : W64 := Sparse.get (regReset key) m key

def regSet (m : List (Nat × W64)) (key : Nat) (v : W64) : List (Nat × W64) := Sparse.set (regReset key) m key v

/-- The canonical form of the register words: keys strictly rising, no word equal to its reset value. -/
def regsWf (m : List (Nat × W64)) : Bool :=
  m.all (fun e => decide (e.2 ≠ regReset e.1)) && decide (m.Pairwise fun a b => a.1 < b.1)

/-- A counter register raised (64 bits, wrapping). -/
def regAdd (m : List (Nat × W64)) (key n : Nat) : List (Nat × W64) := regSet m key (regGet m key + BitVec.ofNat 64 n)

namespace Reg
/-- R30. -/
abbrev geoCaps : Nat := 0x1000000
/-- R30. -/
abbrev geoCounts : Nat := 0x1000008
/-- R30. -/
abbrev geoTeasel : Nat := 0x1000010
/-- R30. -/
abbrev geoTiles : Nat := 0x1000018
/-- R30. -/
abbrev geoSlot : Nat := 0x1000020
/-- R30. -/
abbrev geoTorusCoord : Nat := 0x1000028
/-- R30. -/
abbrev geoTorusExtent : Nat := 0x1000030
/-- R30. -/
abbrev geoSizes : Nat := 0x1000038
/-- R30. -/
abbrev geoJobMem : Nat := 0x1000040
/-- R30. -/
abbrev geoPartView : Nat := 0x1000400
/-- R30. -/
abbrev geoPartJob : Nat := 0x1000500
/-- R255. -/
abbrev xprCaps : Nat := 0xf000000
/-- R255. -/
abbrev xprPlaceGenActive : Nat := 0xf000008
/-- R255. -/
abbrev xprPlaceGenPending : Nat := 0xf000010
/-- R255. -/
abbrev xprPlaceState : Nat := 0xf000018
/-- R255. -/
abbrev xprBiasBase : Nat := 0xf000020
/-- R255. -/
abbrev xprQueueDepth : Nat := 0xf000028
/-- R255. -/
abbrev xprRoutes : Nat := 0xf000030
/-- R255. -/
abbrev xprOverflowed : Nat := 0xf000038
/-- R255. -/
abbrev xprResidual : Nat := 0xf000040
/-- R255. -/
abbrev xprNanTokens : Nat := 0xf000048
/-- R255. -/
abbrev xprEmptyEntries : Nat := 0xf000050
/-- R255. -/
abbrev xprPlaceActive : Nat := 0xf000100
/-- R255. -/
abbrev xprPlacePending : Nat := 0xf000900
/-- R303. -/
abbrev polCaps : Nat := 0x6000000
/-- R303. -/
abbrev polAllocs : Nat := 0x6000008
/-- R303. -/
abbrev polFallbacks : Nat := 0x6000010
/-- R303. -/
abbrev polEmpty : Nat := 0x6000018
/-- R303. -/
abbrev polLimit : Nat := 0x6000020
/-- R303. -/
abbrev polDoubleFree : Nat := 0x6000028
/-- R303. -/
abbrev polNotFinal : Nat := 0x6000030
/-- R303. -/
abbrev polSharesPending : Nat := 0x6000038
/-- R303. -/
abbrev polTwin : Nat := 0x6000040
/-- R303. -/
abbrev polPool : Nat := 0x6001000
/-- R303. -/
abbrev polOwner : Nat := 0x6008000
/-- R351. -/
abbrev bntCaps : Nat := 0xe000000
/-- R351. -/
abbrev bntDefined : Nat := 0xe000008
/-- R351. -/
abbrev bntOpen : Nat := 0xe000010
/-- R351. -/
abbrev bntCompleted : Nat := 0xe000018
/-- R351. -/
abbrev bntPartial : Nat := 0xe000020
/-- R351. -/
abbrev bntDeadlineOmits : Nat := 0xe000028
/-- R351. -/
abbrev bntNonfiniteOmits : Nat := 0xe000030
/-- R351. -/
abbrev bntNonfiniteResults : Nat := 0xe000038
/-- R351. -/
abbrev bntVersionGone : Nat := 0xe000040
/-- R351. -/
abbrev bntEpochFenced : Nat := 0xe000048
/-- R351. -/
abbrev bntStale : Nat := 0xe000050
/-- R351. -/
abbrev bntGatherRetries : Nat := 0xe000058
/-- R351. -/
abbrev bntEpoch : Nat := 0xe000060
/-- R351. -/
abbrev bntPermuteState : Nat := 0xe000068
/-- R351. -/
abbrev bntSealState : Nat := 0xe000070
/-- R351. -/
abbrev bntSealAborts : Nat := 0xe000078
/-- R351. -/
abbrev bntSealTimeout : Nat := 0xe000080
/-- R351. -/
abbrev bntSlowRank : Nat := 0xe000088
/-- R351. -/
abbrev bntHoldTime : Nat := 0xe000090
/-- R351. -/
abbrev bntSealStep : Nat := 0xe000100
/-- R359. -/
abbrev geoFingerprint : Nat := 0x1000100
/-- R359. -/
abbrev geoFpChanges : Nat := 0x1000108
/-- R359. -/
abbrev geoFpInput : Nat := 0x1000200
/-- R428. -/
abbrev cfgRecVerFw : Nat := 0x2000000
/-- R428. -/
abbrev cfgRecVerActive : Nat := 0x2000008
/-- R428. -/
abbrev cfgRecGen : Nat := 0x2000010
/-- R428. -/
abbrev cfgStatus : Nat := 0x2000018
/-- R428. -/
abbrev cfgStagedState : Nat := 0x2000020
/-- R428. -/
abbrev cfgBootCount : Nat := 0x2000028
/-- R428. -/
abbrev cfgResetCause : Nat := 0x2000030
/-- R428. -/
abbrev cfgStartStep : Nat := 0x2000038
/-- R428. -/
abbrev cfgStepTime : Nat := 0x2000040
/-- R428. -/
abbrev cfgSpillDefault : Nat := 0x2000100
/-- R428. -/
abbrev cfgGatherSize : Nat := 0x2000108
/-- R428. -/
abbrev cfgTorusCoord : Nat := 0x2000110
/-- R428. -/
abbrev cfgTorusExtent : Nat := 0x2000118
/-- R428. -/
abbrev cfgBypassPolicy : Nat := 0x2000120
/-- R428. -/
abbrev cfgAxisEnable : Nat := 0x2000128
/-- R428. -/
abbrev cfgTileDisable : Nat := 0x2000130
/-- R462. -/
abbrev ethCaps : Nat := 0x8000000
/-- R462. -/
abbrev ethPortCtrl : Nat := 0x8000010
/-- R462. -/
abbrev ethMac : Nat := 0x8000018
/-- R462. -/
abbrev ethIpv4 : Nat := 0x8000020
/-- R462. -/
abbrev ethIpv4Gw : Nat := 0x8000028
/-- R462. -/
abbrev ethIpv6Hi : Nat := 0x8000030
/-- R462. -/
abbrev ethIpv6Lo : Nat := 0x8000038
/-- R462. -/
abbrev ethIpv6Prefix : Nat := 0x8000040
/-- R462. -/
abbrev ethIpv6GwHi : Nat := 0x8000048
/-- R462. -/
abbrev ethIpv6GwLo : Nat := 0x8000050
/-- R462. -/
abbrev ethVlan : Nat := 0x8000058
/-- R462. -/
abbrev ethMtu : Nat := 0x8000060
/-- R462. -/
abbrev ethPfc : Nat := 0x8000068
/-- R462. -/
abbrev ethLink : Nat := 0x8000070
/-- R462. -/
abbrev ethRxFrames : Nat := 0x8000078
/-- R462. -/
abbrev ethTxFrames : Nat := 0x8000080
/-- R462. -/
abbrev ethFcsErrors : Nat := 0x8000088
/-- R462. -/
abbrev ethFecCorrected : Nat := 0x8000090
/-- R462. -/
abbrev ethFecUncorrected : Nat := 0x8000098
/-- R462. -/
abbrev ethDropped : Nat := 0x80000a0
/-- R462. -/
abbrev ethPfcSent : Nat := 0x80000a8
/-- R462. -/
abbrev ethPfcReceived : Nat := 0x80000b0
/-- R462. -/
abbrev ethCeReceived : Nat := 0x80000b8
/-- R463. -/
abbrev cmpCaps : Nat := 0x9000000
/-- R463. -/
abbrev cmpCtrlPort : Nat := 0x9000008
/-- R463. -/
abbrev cmpIngestPort : Nat := 0x9000010
/-- R463. -/
abbrev cmpRto : Nat := 0x9000018
/-- R463. -/
abbrev cmpRetryMax : Nat := 0x9000020
/-- R463. -/
abbrev cmpIdleTimeout : Nat := 0x9000028
/-- R463. -/
abbrev cmpUnauthRate : Nat := 0x9000030
/-- R463. -/
abbrev cmpSessionsOpen : Nat := 0x9000038
/-- R463. -/
abbrev cmpStreamsOpen : Nat := 0x9000040
/-- R463. -/
abbrev cmpMacFail : Nat := 0x9000048
/-- R463. -/
abbrev cmpStale : Nat := 0x9000050
/-- R463. -/
abbrev cmpDuplicates : Nat := 0x9000058
/-- R463. -/
abbrev cmpRetransmits : Nat := 0x9000060
/-- R463. -/
abbrev cmpIngestBadToken : Nat := 0x9000068
/-- R463. -/
abbrev cmpIngestCrc : Nat := 0x9000070
/-- R463. -/
abbrev cmpIngestNoCredit : Nat := 0x9000078
/-- R463. -/
abbrev cmpIngestOutOfOrder : Nat := 0x9000080
/-- R463. -/
abbrev cmpHostKey : Nat := 0x9000100
/-- R463. -/
abbrev cmpSession : Nat := 0x9000400
/-- R463. -/
abbrev cmpStream : Nat := 0x9010000
/-- R496. -/
abbrev jnlCaps : Nat := 0xa000000
/-- R496. -/
abbrev jnlEra : Nat := 0xa000008
/-- R496. -/
abbrev jnlFirst : Nat := 0xa000010
/-- R496. -/
abbrev jnlLast : Nat := 0xa000018
/-- R496. -/
abbrev jnlOutstanding : Nat := 0xa000020
/-- R496. -/
abbrev jnlCopies : Nat := 0xa000028
/-- R496. -/
abbrev jnlRepairs : Nat := 0xa000030
/-- R496. -/
abbrev jnlRefused : Nat := 0xa000038
/-- R496. -/
abbrev jnlPartState : Nat := 0xa000040
/-- R496. -/
abbrev jnlPartKind : Nat := 0xa000048
/-- R496. -/
abbrev jnlQueue : Nat := 0xa000100
/-- R496. -/
abbrev jnlMgmtQueue : Nat := 0xa000300
/-- R519. -/
abbrev lnkCaps : Nat := 0x7000000
/-- R519. -/
abbrev lnkAxisState : Nat := 0x7000008
/-- R519. -/
abbrev lnkHold : Nat := 0x7000010
/-- R519. -/
abbrev lnkLaneThreshold : Nat := 0x7000018
/-- R519. -/
abbrev lnkDownTimeout : Nat := 0x7000020
/-- R519. -/
abbrev lnkRetryNs : Nat := 0x7000028
/-- R519. -/
abbrev lnkPortState : Nat := 0x7000100
/-- R519. -/
abbrev lnkLanes : Nat := 0x7000108
/-- R519. -/
abbrev lnkFecCorrected : Nat := 0x7000110
/-- R519. -/
abbrev lnkFecUncorrected : Nat := 0x7000118
/-- R519. -/
abbrev lnkRetries : Nat := 0x7000120
/-- R519. -/
abbrev lnkRetrains : Nat := 0x7000128
/-- R519. -/
abbrev lnkTxBytes : Nat := 0x7000130
/-- R519. -/
abbrev lnkRxBytes : Nat := 0x7000138
/-- R519. -/
abbrev lnkCable : Nat := 0x7000140
/-- R519. -/
abbrev lnkPeerSerial : Nat := 0x7000148
/-- R545. -/
abbrev pwrCaps : Nat := 0x3000000
/-- R545. -/
abbrev pwrState : Nat := 0x3000008
/-- R545. -/
abbrev pwrCeiling : Nat := 0x3000010
/-- R545. -/
abbrev pwrRailLimit : Nat := 0x3000018
/-- R545. -/
abbrev pwrBoostEn : Nat := 0x3000020
/-- R545. -/
abbrev pwrTrip : Nat := 0x3000028
/-- R545. -/
abbrev pwrInput : Nat := 0x3000030
/-- R545. -/
abbrev pwrEnergyIn : Nat := 0x3000038
/-- R545. -/
abbrev pwrEnergyShared : Nat := 0x3000040
/-- R545. -/
abbrev pwrEnergyOverhead : Nat := 0x3000048
/-- R545. -/
abbrev pwrEnergyTime : Nat := 0x3000050
/-- R545. -/
abbrev pwrPaceNsCurrent : Nat := 0x3000058
/-- R545. -/
abbrev pwrPaceNsThermal : Nat := 0x3000060
/-- R545. -/
abbrev pwrPaceNsCeiling : Nat := 0x3000068
/-- R545. -/
abbrev pwrBoostNs : Nat := 0x3000070
/-- R545. -/
abbrev pwrEnergyPart : Nat := 0x3000100
/-- R545. -/
abbrev pwrEnergyQueue : Nat := 0x3000200
/-- R545. -/
abbrev pwrRailStatus : Nat := 0x3000400
/-- R545. -/
abbrev pwrGuard : Nat := 0x3000800
/-- R547. -/
abbrev thmCaps : Nat := 0x4000000
/-- R547. -/
abbrev thmHottest : Nat := 0x4000008
/-- R547. -/
abbrev thmCoolant : Nat := 0x4000010
/-- R547. -/
abbrev thmThrottled : Nat := 0x4000018
/-- R547. -/
abbrev thmThrottleEvents : Nat := 0x4000020
/-- R547. -/
abbrev thmTrips : Nat := 0x4000028
/-- R547. -/
abbrev thmDramPaced : Nat := 0x4000030
/-- R547. -/
abbrev thmIsland : Nat := 0x4000100
/-- R547. -/
abbrev thmDram : Nat := 0x4000600
/-- R570. -/
abbrev lifCaps : Nat := 0xd000000
/-- R570. -/
abbrev lifPowerOnS : Nat := 0xd000008
/-- R570. -/
abbrev lifWriteSeq : Nat := 0xd000010
/-- R570. -/
abbrev lifLastWrite : Nat := 0xd000018
/-- R570. -/
abbrev lifWriteFails : Nat := 0xd000020
/-- R570. -/
abbrev lifSpareGenActive : Nat := 0xd000028
/-- R570. -/
abbrev lifSpareGenPending : Nat := 0xd000030
/-- R570. -/
abbrev lifRepairGenActive : Nat := 0xd000038
/-- R570. -/
abbrev lifRepairGenPending : Nat := 0xd000040
/-- R570. -/
abbrev lifRebuildState : Nat := 0xd000048
/-- R570. -/
abbrev lifSubstitutions : Nat := 0xd000050
/-- R570. -/
abbrev lifReruns : Nat := 0xd000058
/-- R570. -/
abbrev lifTwin : Nat := 0xd000060
/-- R570. -/
abbrev lifTwinRepaired : Nat := 0xd000068
/-- R570. -/
abbrev lifUtcNow : Nat := 0xd000070
/-- R570. -/
abbrev lifTimePairs : Nat := 0xd000100
/-- R570. -/
abbrev lifSpareUse : Nat := 0xd000200
/-- R570. -/
abbrev lifSpareMap : Nat := 0xd000300
/-- R570. -/
abbrev lifWear : Nat := 0xd000600
/-- R570. -/
abbrev lifStress : Nat := 0xd000900
/-- R570. -/
abbrev lifCoreState : Nat := 0xd002000
/-- R570. -/
abbrev lifClusterState : Nat := 0xd002600
/-- R590. -/
abbrev evtCaps : Nat := 0x5000000
/-- R590. -/
abbrev evtOldestSeq : Nat := 0x5000008
/-- R590. -/
abbrev evtNextSeq : Nat := 0x5000010
/-- R590. -/
abbrev evtEra : Nat := 0x5000018
/-- R590. -/
abbrev evtFatalUnread : Nat := 0x5000020
/-- R590. -/
abbrev evtSuppressed : Nat := 0x5000028
/-- R590. -/
abbrev evtLost : Nat := 0x5000030
/-- R590. -/
abbrev evtOverwritten : Nat := 0x5000038
/-- R590. -/
abbrev evtRateWindow : Nat := 0x5000040
/-- R590. -/
abbrev evtRateDefault : Nat := 0x5000048
/-- R590. -/
abbrev evtSpillOldestSeq : Nat := 0x5000050
/-- R590. -/
abbrev evtSpillNext : Nat := 0x5000058
/-- R590. -/
abbrev evtSpillFails : Nat := 0x5000060
/-- R590. -/
abbrev evtRateOverride : Nat := 0x5000100
/-- R615. -/
abbrev secCaps : Nat := 0xb000000
/-- R615. -/
abbrev secStatus : Nat := 0xb000008
/-- R615. -/
abbrev secSerial : Nat := 0xb000010
/-- R615. -/
abbrev secDeviceKeyId : Nat := 0xb000020
/-- R615. -/
abbrev secFloor : Nat := 0xb000028
/-- R615. -/
abbrev secAttests : Nat := 0xb000030
/-- R615. -/
abbrev secUnlockFails : Nat := 0xb000038
/-- R616. -/
abbrev fwuCaps : Nat := 0xc000000
/-- R616. -/
abbrev fwuState : Nat := 0xc000008
/-- R616. -/
abbrev fwuRunning : Nat := 0xc000010
/-- R616. -/
abbrev fwuSlotA : Nat := 0xc000018
/-- R616. -/
abbrev fwuSlotB : Nat := 0xc000020
/-- R616. -/
abbrev fwuPointer : Nat := 0xc000028
/-- R616. -/
abbrev fwuTarget : Nat := 0xc000030
/-- R616. -/
abbrev fwuBytes : Nat := 0xc000038
/-- R616. -/
abbrev fwuBadPart : Nat := 0xc000040
/-- R616. -/
abbrev fwuActivations : Nat := 0xc000048
/-- R616. -/
abbrev fwuPartVer : Nat := 0xc000100
end Reg

/-- The range that a register's own table gives for a value (R420, R474); registers without one take any value. -/
def regInRange (key v : Nat) : Bool :=
  let off := key % 2 ^ 24
  if key = Reg.bntSealTimeout then decide (100 ≤ v ∧ v ≤ 60000)
  else if key = Reg.cfgSpillDefault then [64, 128, 256, 512, 1024].contains v
  else if key = Reg.cfgGatherSize then decide (v ≤ 32)
  else if key = Reg.cfgTorusExtent then
    [bitsOf v 5 0, bitsOf v 13 8, bitsOf v 21 16, bitsOf v 29 24].all fun x => decide (1 ≤ x ∧ x ≤ 32)
  else if key = Reg.ethPortCtrl ∨ key = Reg.ethPortCtrl + 0x100 then decide (bitsOf v 2 1 ≠ 3)
  else if key = Reg.ethMtu ∨ key = Reg.ethMtu + 0x100 then decide (1500 ≤ v ∧ v ≤ 9194)
  else if key = Reg.cmpCtrlPort ∨ key = Reg.cmpIngestPort then decide (1024 ≤ v ∧ v ≤ 65535)
  else if key = Reg.cmpRto then decide (50 ≤ v ∧ v ≤ 10000)
  else if key = Reg.cmpRetryMax then decide (4 ≤ v ∧ v ≤ 32)
  else if key = Reg.cmpIdleTimeout then decide (5 ≤ v ∧ v ≤ 3600)
  else if key = Reg.cmpUnauthRate then decide (10 ≤ v ∧ v ≤ 100000)
  else if key = Reg.lnkLaneThreshold then decide (4096 ≤ v ∧ v ≤ 2 ^ 24)
  else if key = Reg.lnkDownTimeout then decide (100 ≤ v ∧ v ≤ 10000)
  else if key = Reg.pwrCeiling then decide (4000 ≤ v ∧ v ≤ 15000)
  else if key = Reg.pwrRailLimit then decide (400 ≤ v ∧ v ≤ 1600)
  else if key = Reg.evtRateWindow then decide (1 ≤ v ∧ v ≤ 60000)
  else if key = Reg.evtRateDefault then decide (v ≤ 65535)
  else decide (off < 2 ^ 24)

end Sys2Proof
end

