-- ==== Sys2Proof/Machine/TypesCore.lean ====
section
/-! DEFINITION. Sys2Proof/Machine/TypesCore.lean: the parts of State that live in the cores and clusters: the issue unit and arrays
(spec/03), accumulation (spec/04), steal groups (spec/05), the vector and row engines with the side memory (spec/06), the
DMA engines (spec/09), and what a work item carries (spec/16 R482). -/

namespace Sys2Proof.Machine

open Sys2Proof

/-- The shadow state (R82). -/
inductive Shadow where
  | empty | loading | full
  deriving DecidableEq, Repr

/-- A stationary set (R75, R76, R79): format and the elements by (k, n): for P operand tiles, tile i holding k values 32i to
32i + 31, as the tiles stand after transposition. -/
structure StatSet where
  fmt : Fmt
  tiles : List Tile32
  deriving DecidableEq, Repr

/-- State of an accumulator slot (R77). -/
inductive SlotState where
  | empty | accum | writing
  deriving DecidableEq, Repr

/-- An accumulator slot (R77, R110, R112, R123): binary32 accumulators, the binary64 wide buffer, products since the chain
opened, products since the last spill, partials closed of the chain (R124). -/
structure Slot where
  state : SlotState
  acc : Array Nat
  wide : Array Nat
  products : Nat
  sinceSpill : Nat
  splits : Nat
  deriving DecidableEq, Repr

/-- The engine queues of R88 and R89. -/
inductive Engine where
  | matrix | vector | row | dma | barrier
  deriving DecidableEq, Repr

/-- An instruction in the window: its word, its program index, whether it has issued, the frames it counts on (R88). -/
structure WinEntry where
  word : W128
  index : Nat
  engine : Engine
  writes : List Nat
  reads : List Nat
  issued : Bool
  deriving DecidableEq, Repr

/-- A row set (R190, R191): the tag table's entry, whether its RWF named STAT, and its place: resident, with the row records, 8 bytes per row in the
layout of R185, or spilled, with the local-store addresses of its granules in the ring, in order. -/
structure RowSet where
  tag : Nat
  fn : Nat
  n : Nat
  rows : Nat
  stat : Bool
  records : List Byte
  place : List Nat
  deriving DecidableEq, Repr

/-- The side memory of a core (R190 to R193): resident sets in the order of their insertion, sets spilled to the ring. -/
structure SideMem where
  sets : List RowSet
  spilled : List RowSet
  deriving DecidableEq, Repr

/-- What the filler save area holds of a suspended filler item (R214, R218): its node and header, how long it has run, the next instruction, the
window, the slots and the shadow, and the status that has ended it, if one has. (DESIGN CHOICE, log 56) -/
structure Suspended where
  node : Nat
  hdr : ItemHdr
  ran : Nat
  ended : Option Status
  pc : Nat
  window : List WinEntry
  slots : List (Nat × Slot)
  shadow : Shadow
  shadowSet : Option StatSet
  active : Option StatSet
  /-- What R122 to R127 have counted so far: log entries, dropped flag, non-finite count, split entries. -/
  nfLog : Nat
  nfDropped : Bool
  nfCount : Nat
  splitUsed : Nat
  deriving DecidableEq, Repr

/-- An issued array instruction whose output tiles are still being written: its entry with the frames it still counts on, and the slots WRITING, each
with the bytes (start, length) of its output tile (R77, R88). -/
structure Drain where
  entry : WinEntry
  slots : List (Nat × Nat × Nat)
  deriving DecidableEq, Repr

/-- Whether a core offers to steal (R144). -/
inductive StealRole where
  | none | offering
  deriving DecidableEq, Repr

/-- A core (R92, R110 to R124, R144, R190, R482). -/
structure Core where
  /-- The work item: step of the main partition (false) or of the filler (true), node index; none when idle. -/
  item : Option (Bool × Nat)
  hdr : Option ItemHdr
  part : Nat
  startedAt : Nat
  /-- Next instruction to enter the window. -/
  pc : Nat
  window : List WinEntry
  wcounts : List (Nat × Nat)
  rcounts : List (Nat × Nat)
  shadow : Shadow
  shadowSet : Option StatSet
  active : Option StatSet
  /-- Slots by 8·array + slot; unlisted slots are EMPTY with all-zero content. -/
  slots : List (Nat × Slot)
  /-- Array instructions whose output is being written. -/
  draining : List Drain
  /-- Non-finite log count and dropped flag, non-finite count, split entries (R122 to R127). -/
  nfLog : Nat
  nfDropped : Bool
  nfCount : Nat
  splitUsed : Nat
  side : SideMem
  role : StealRole
  /-- Staging area of its OFFER (R143). -/
  offer : Nat
  given : Nat
  taken : Nat
  /-- Status that ended the item, once one has. -/
  ended : Option Status
  /-- Clock-gated hold since (R348). -/
  heldSince : Option Nat
  /-- Local store, 1 MiB (R16, R70); unlisted bytes are 0 (R279). -/
  ls : List (Nat × Byte)
  /-- A suspended filler item: node, header and issue state saved in the filler save area (R214, R218). -/
  suspended : Option Suspended
  deriving DecidableEq, Repr

/-- A DMA move in progress (R259, R267): logical core index, descriptor, the instruction with the frames it counts on. -/
structure Dma where
  core : Nat
  desc : W512
  entry : WinEntry
  deriving DecidableEq, Repr

/-- A steal group (R143 to R149). -/
structure StealGroup where
  owner : Nat
  desc : W512
  /-- The OPEN with the frames it counts on. -/
  entry : WinEntry
  /-- Partials in the merge area: output tile, and the slabs lo to hi − 1 that the entry (t, lo) sums. -/
  done : List (Nat × Nat × Nat)
  /-- Slabs that thieves took: output tile and slab. -/
  taken : List (Nat × Nat)
  /-- The owner's next slab range, output tiles whose root is written, and their non-finite elements. -/
  next : Nat
  roots : List Nat
  nf : Nat
  ring : Bool
  deriving DecidableEq, Repr

/-- What a cluster adds to its cores: DMA moves in progress and steal groups open. -/
structure ClusterSt where
  dma : List Dma
  groups : List StealGroup
  deriving DecidableEq, Repr

end Sys2Proof.Machine
end

