-- ==== Sys2Proof/Machine/State.lean ====
section
/-! DEFINITION. Sys2Proof/Machine/State.lean: the state of one Bolarron, the reasons a step can stop, and the state of a module as delivered,
unpowered, before the first rise of MOD_PWR_EN. -/

namespace Sys2Proof.Machine

open Sys2Proof

/-- No command ends in a fault: the manual describes an effect, a status or a wait for every condition a command meets, a read
outside the address map included (ADDRESS_FAULT, R264). -/
inductive Fault where
  deriving DecidableEq, Repr

/-- Why a step has no meaning. -/
inductive Refusal where
  /-- Raised by an arm of exec for a command that has no meaning yet. Safe: nothing follows from it. -/
  | notModelled (mnemonic : String)
  /-- Raised by UNIT_TEST_INSTRUCTION once test access is unlocked: the manual says that these instructions test units by
  physical coordinate and nothing of what they do (R388, R614). Safe: the module goes on, the model stops. -/
  | unitTestEffect
  deriving DecidableEq, Repr

structure State where
  /-- The part: YW-BL10 or YW-BL10E (R1). No command changes it. -/
  part : Part
  pins : Pins
  readings : Readings
  smb : Smbus
  tap : Tap
  /-- The local counter, ns since the last reset (R569). -/
  counter : Nat
  /-- MODEL'S OWN: absolute time in ns, on which the pins' intervals are measured (R370, R380 to R382). -/
  wall : Nat
  boot : Boot
  /-- The two flash devices (R408, R409); unlisted bytes read as erased, 0xFF. -/
  flash0 : List (Nat × Byte)
  flash1 : List (Nat × Byte)
  /-- Register words that differ from their reset value, by block · 2^24 + offset. -/
  regs : List (Nat × W64)
  tansy : Tansy
  jnl : Journal
  mgmt : CmdQueue
  eth : List EthPort
  cmp : Campion
  parts : List Partition
  /-- The running step of the main partitions and that of the filler (R468). -/
  step : Option StepRun
  filler : Option StepRun
  /-- Deferred queues by cluster 8t + c: node indices, head first (R202). -/
  deferred : List (Nat × List Nat)
  /-- Logical cores by index 96t + 12c + k; unlisted cores are at their reset state. -/
  cores : List (Nat × Core)
  clusters : List (Nat × ClusterSt)
  /-- The physical address space of R260; unlisted bytes are 0 (R279). -/
  mem : List (Nat × Byte)
  keep : Upkeep
  vetch : List VetchTile
  xpr : Xpr
  bnt : Burnet
  links : Links
  power : Power
  lif : Lifetime
  /-- The geometry fingerprint in force and its input (R358, R359). -/
  fp : W64
  fpInput : List Byte
  sec : Security
  upd : Update
  out : List Out
  /-- MODEL'S OWN: draws of Config.freeValue so far. -/
  freeCtr : Nat
  /-- Commands that wait, first in, first out. -/
  pending : List Instr
  deriving DecidableEq, Repr

/-- Reset values of the parts (R92, R77): an idle core with nothing in its stores. (DEDUCED, log 55) -/
def Core.reset : Core :=
  { item := none, hdr := none, part := 0, startedAt := 0, pc := 0, window := [], wcounts := [], rcounts := [],
    shadow := .empty, shadowSet := none, active := none, slots := [], draining := [], nfLog := 0, nfDropped := false,
    nfCount := 0, splitUsed := 0, side := ⟨[], []⟩, role := .none, offer := 0, given := 0, taken := 0, ended := none,
    heldSince := none, ls := [], suspended := none }

def Slot.reset : Slot := ⟨.empty, #[], #[], 0, 0, 0⟩

def Tap.reset : Tap := ⟨.bypass, List.replicate 681 false, false, [], [], 0, false⟩

def CmdQueue.reset : CmdQueue := ⟨[], 0, []⟩

def Partition.reset : Partition :=
  { state := .empty, kind := .train, main := 0, fwin := false, qmask := 0, windows := [], watchdogUs := 0, lastSealed := 0,
    qpool := 0, origin := 0, extent := 0, coord := 0, view := 0, geoPause := false,
    queues := List.replicate 8 CmdQueue.reset }

def EthPort.reset : EthPort :=
  { up := false, fecAligned := false, plugged := false, xoff := false, paused := [], neighbours := [], unresolved := [], level := 0, app := 0
    squelched := [], txq := [] }

def Session.reset : Session :=
  { isOpen := false, slot := 0, gen := 0, port := 0, peer := ⟨false, 0⟩, peerPort := 0, localPort := 0, key := [], nonce := [],
    txSeq := 0, txAcked := 0, rxNext := 0, held := [], unacked := [], waiting := [], retrans := 0, openTime := 0, heard := 0,
    ceEcho := false, ackSent := 0, part := none, ringCur := 0, spillCur := 0 }

def Campion.reset : Campion := ⟨List.replicate 16 Session.reset, [], 0, 0, 0, []⟩

def Port.reset : Port :=
  { state := .disabled, rate := 0, half := false, skip := 0, spared := false, peer := 0, peerSerial := [], lanes := [],
    laneSpare := 0, laneFailed := 0, cable := 0, txSeq := 0, replay := [], acked := [], ackAt := 0, ackLow := none,
    ackPart := false, ackHeld := 0,
    rxNext := 0, retrying := false, reqSeq := 0, reqCount := 0, rxBytes := [], rxStart := 0, retryFrom := none, retrainAt := 0,
    txCredit := List.replicate 8 65536, sendQ := [], passQ := [], txBytes := [], served := List.replicate 4 0
    ownTurn := List.replicate 4 true, mgmtBudget := 0 }

def Links.reset : Links := ⟨List.replicate 4 ⟨false, false, false, false⟩, List.replicate 8 Port.reset, 0, []⟩

def Rail.reset : Rail := ⟨false, 5, 7, [], 0, 0, 0, false, false, 0⟩

def Island.reset : Island := ⟨0, false, 0, false, 0, 0, 0, 0, 7, false⟩

def Power.reset : Power :=
  { state := .full, target := .full, moving := false, rails := List.replicate 10 Rail.reset, feeds := List.replicate 32 ⟨0, 0⟩
    islands := List.replicate 612 Island.reset, stackList := List.replicate 20 ⟨0, false, 0⟩, inputSamples := [], ceilChanged := 0,
    unmetSince := none, eIn := 0, eShared := 0, eOverhead := 0, eQueue := List.replicate 64 0, eTime := 0, eLog := [(0, 0, 0)], tripLog := [],
    pace := List.replicate 8 0, paceAt := 0 }

def SpareMap.reset : SpareMap :=
  { tileIsolated := 0, clusters := (List.range 80).map (· % 8), cores := (List.range 960).map (· % 12),
    mgmt := List.range 4 }

/-- The unit states at shipment (R555). (DEDUCED, log 11) -/
def shippedCores : List UnitSt :=
  (List.range 1350).map fun i =>
    if (i / 15) % 9 = 8 ∨ 12 ≤ i % 15 then ⟨.spare, 0, false⟩ else ⟨.inService, 0, false⟩

def shippedClusters : List UnitSt :=
  (List.range 90).map fun i => if i % 9 = 8 then ⟨.spare, 0, false⟩ else ⟨.inService, 0, false⟩

def Lifetime.reset : Lifetime :=
  { powerOn := 0, powerOnAt := 0, writeSeq := 0, lastWrite := 0, spareMap := SpareMap.reset, pendingMap := SpareMap.reset,
    spareGen := 0, spareBuild := .idle, repairGen := 0, repairBuild := .idle, repairs := [], pendingRepairs := [],
    sramRepairs := [], lastSwapWrite := 0, coreSt := shippedCores, clusterSt := shippedClusters,
    useCores := List.replicate 10 0, useClusters := List.replicate 10 0, usePcs := List.replicate 10 0,
    useRows := List.replicate 10 0, useCols := List.replicate 10 0, useLanes := List.replicate 8 0, useMgmt := 0,
    cycles := List.replicate 10 0, lowT := List.replicate 10 32767, hostKeys := List.replicate 8 [], pairs := [],
    dramErrors := [], storeErrors := [], isolateNext := 0 }

/-- The placement twin word of value 0 (R222). -/
def placeEmpty : Twin W32 := ⟨0, 0⟩

def Xpr.reset : Xpr :=
  { active := List.replicate 11 (List.replicate 256 placeEmpty), pending := List.replicate 11 (List.replicate 256 placeEmpty),
    genActive := 0, genPending := 0, genStaged := 0, place := .idle, queues := List.replicate 10 [],
    waiting := List.replicate 10 [], biasShadow := [], demand := [], stepDemand := [], params := [],
    stepParams := [], paramsDiffer := false, demandShadow := [], paramsShadow := [], biasDone := false, routes := [] }

def SealPart.reset : SealPart :=
  { epoch := 0, activeEpoch := 0, perm := .idle, oldEpoch := 0, undo := [], sealSt := .idle, confirmAt := 0, votes := [],
    firstVote := none, decisions := [], aborts := 0, abortsOf := (0, 0) }

def Burnet.reset : Burnet :=
  { defs := [], runs := [], gathers := [], exchanges := [], recv := [], sealParts := List.replicate 8 SealPart.reset, slowRank := 0,
    slowReason := 0, slowThrottled := false }

def Tansy.reset : Tansy :=
  { ring := [], wpos := ⟨0, 0⟩, oldest := ⟨0, 0⟩, next := 0, era := 0, queue := [], dropped := 0, winStart := 0,
    winMs := 1000, winDefault := 64, winOver := [], counts := [], early := [], spillNext := 0,
    spillBad := [] }

def Journal.reset : Journal :=
  { mirror := [], copy1 := [], copy2 := [], tile1 := 0, tile2 := 9, svc := 7, era := 0, eraBoot := 0, last := 0,
    floors := List.replicate 8 0, outstanding := [] }

def Security.reset : Security :=
  { identity := false, serial := [], modulus := 0, exponent := 0, privExp := 0, testModulus := 0, testExponent := 0,
    floor := 0, floorGen := 0, floorLost := false, recKey := [], floorKey := [], chain := [] }

def Update.reset : Update :=
  { state := .idle, owner := 0, header := [], units := [], target := false, bytes := 0, badPart := 0, running := 0,
    runSlot := false, fallback := false, runHeader := [], slotA := 0, slotB := 0 }

def Boot.reset : Boot :=
  { phase := .off, step := 0, stepTimes := List.replicate 11 0, cause := 0, warm := false, bootCount := 0,
    status := .record, recVerActive := 0, recGen := 0, record := none, isolated := 0, dramKept := false, testCopy := false, excluded := [], late := [] }

def Pins.reset : Pins :=
  { pwrEn := false, pgood := false, resetN := false, warmN := true, trstN := false, leakN := true, slot := 0,
    hold := .cold, resetFell := 0, warmFell := 0, enFell := 0, lockout := false, input := .openPath, alertLeak := false,
    alertTrip := false, alertBrown := false }

/-- The module before the first rise of MOD_PWR_EN: unpowered, undriven inputs at the levels of R377, both flash devices erased, every
register at the reset value of its table (those the manual gives no value for: notes/assumptions). (DESIGN CHOICE, log 1; DESIGN CHOICE, log 9; DESIGN CHOICE, log 10; DEDUCED, log 55) -/
def State.reset : State :=
  { part := .ywbl10, pins := Pins.reset, readings := ⟨0, 0, 0, 0, 0⟩, smb := ⟨0⟩, tap := Tap.reset, counter := 0, wall := 0,
    boot := Boot.reset, flash0 := [], flash1 := [], regs := [], tansy := Tansy.reset, jnl := Journal.reset,
    mgmt := CmdQueue.reset, eth := List.replicate 2 EthPort.reset, cmp := Campion.reset,
    parts := List.replicate 8 Partition.reset, step := none, filler := none, deferred := [], cores := [], clusters := [],
    mem := [], keep := ⟨[], 0, 0⟩, vetch := List.replicate 10 ⟨[], [], []⟩, xpr := Xpr.reset, bnt := Burnet.reset,
    links := Links.reset, power := Power.reset, lif := Lifetime.reset, fp := 0, fpInput := [], sec := Security.reset,
    upd := Update.reset, out := [], freeCtr := 0, pending := [] }

end Sys2Proof.Machine
end

