-- ==== Sys2Proof/Machine/Tansy.lean ====
section
/-! DEFINITION. Sys2Proof/Machine/Tansy.lean: the event recorder (spec/20): records, the ring, the flash spill and the rate windows. -/

namespace Sys2Proof.Machine

open Sys2Proof

/-! Byte maps. -/

/-- `n` bytes from address `a`, the map's entries below `a` gone already. -/
def bytesFrom (d : Byte) : List (Nat × Byte) → Nat → Nat → List Byte
  | _, _, 0 => []
  | [], _, n + 1 => List.replicate (n + 1) d
  | (k, v) :: m, a, n + 1 => if k = a then v :: bytesFrom d m (a + 1) n else d :: bytesFrom d ((k, v) :: m) (a + 1) n

/-- `n` bytes of a byte map from address `a`; unlisted bytes read as `d`. (PRESUMED, log 8) -/
def bytesAt (d : Byte) (m : List (Nat × Byte)) (a n : Nat) : List Byte :=
  bytesFrom d (m.dropWhile fun e => decide (e.1 < a)) a n

/-- Bytes as map entries from address `a`, those equal to `d` left out. -/
def byteEntries (d : Byte) : Nat → List Byte → List (Nat × Byte)
  | _, [] => []
  | a, b :: bs => if b = d then byteEntries d (a + 1) bs else (a, b) :: byteEntries d (a + 1) bs

/-- Bytes written to a byte map from address `a` on. -/
def bytesPut (d : Byte) (m : List (Nat × Byte)) (a : Nat) (bs : List Byte) : List (Nat × Byte) :=
  (m.filter fun e => decide (e.1 < a)) ++ byteEntries d a bs ++ m.filter fun e => decide (a + bs.length ≤ e.1)

/-- Flash bytes; erased bytes read 0xFF (assumption 8). -/
def flashRead (f : List (Nat × Byte)) (a n : Nat) : List Byte := bytesAt 0xFF f a n

def flashWrite (f : List (Nat × Byte)) (a : Nat) (bs : List Byte) : List (Nat × Byte) := bytesPut 0xFF f a bs

/-- A range erased: its listed bytes go. (PRESUMED, log 8) -/
def flashErase (f : List (Nat × Byte)) (a n : Nat) : List (Nat × Byte) := f.filter fun e => decide (e.1 < a ∨ a + n ≤ e.1)

/-! Coordinate words (R575). -/

/-- A coordinate word; none: the field does not apply. -/
def coordWord (tile cluster core array mcore : Option Nat) (phys : Bool) : W32 :=
  BitVec.ofNat 32 (putBits 31 28 (tile.getD 15) + putBits 27 24 (cluster.getD 15) + putBits 23 20 (core.getD 15)
    + putBits 19 16 (array.getD 15) + putBits 15 12 (mcore.getD 15) + b2n phys)

def hubWord : W32 := coordWord none none none none none false
def tileWord (t : Nat) : W32 := coordWord (some t) none none none none false
def clusterWord (t c : Nat) : W32 := coordWord (some t) (some c) none none none false
def coreWord (i : Nat) : W32 := coordWord (some (i / 96)) (some (i / 12 % 8)) (some (i % 12)) none none false
/-- No unit concerned (R574). -/
def noUnit : W32 := 0xFFFFFFFF

/-- An event of the hub with no unit concerned. -/
def hubEvent (st : Status) (time : Nat) (args : List Nat) : Event :=
  { status := st, cls := st.evClass, time, source := hubWord, logical := noUnit, physical := noUnit, part := 0xFF, step := 0,
    args, extra := [] }

/-- An event of a tile's unit. -/
def tileEvent (st : Status) (time tile part : Nat) (args : List Nat) : Event :=
  { hubEvent st time args with source := tileWord tile, logical := tileWord tile, part }

/-! Records (R573, R574). -/

/-- The 32-byte header, VALID set. -/
def recHeader (time seq boot : Nat) (source : W32) (cls : EvClass) (units code : Nat) : Nat :=
  putBits 255 192 time + putBits 191 128 seq + putBits 127 96 boot + putBits 95 64 source.toNat + putBits 63 63 1
    + putBits 62 61 cls.code + putBits 55 48 units + putBits 47 32 code

/-- The 64-byte payload and the extended data, padded to whole 32-byte units. -/
def Event.body (e : Event) : List Byte :=
  let p := leBytes 4 e.logical.toNat ++ leBytes 4 e.physical.toNat ++ leBytes 1 e.part ++ zeros 3 ++ leBytes 4 e.step
    ++ ((List.range 4).flatMap fun i => leBytes 8 (e.args.getD i 0)) ++ zeros 16
  p ++ padTo (32 * ceilDiv (min e.extra.length 928) 32) (e.extra.take 928)

/-- Ring bytes (R578, R590). -/
def ringSize : Nat := 0x02000000

/-- A record placed at the write position: older records it covers go first, oldest first (R579). Returns the records overwritten. -/
def Tansy.place (tn : Tansy) (size : Nat) (bytes : List Byte) : Tansy × Nat :=
  let off := tn.wpos.val
  let keep := tn.ring.filter fun r => decide (r.off + r.bytes.length ≤ off ∨ off + size ≤ r.off)
  let ring := keep ++ [⟨off, tn.next, true, false, bytes⟩]
  let wpos := (off + size) % ringSize
  let old := (ring.head?.map (·.seq)).getD tn.next
  ({ tn with ring, wpos := ⟨wpos, wpos⟩, oldest := ⟨old, old⟩, next := tn.next + 1 }, tn.ring.length - keep.length)

/-- Write one record of given body (R578, R579): a pad record first when the record would wrap. (DEDUCED, log 52) -/
def Tansy.write (tn : Tansy) (boot : Nat) (code : Nat) (cls : EvClass) (time : Nat) (source : W32) (body : List Byte) :
    Tansy × Nat × List Byte :=
  let size := 32 + body.length
  let gap := ringSize - tn.wpos.val
  let (tn, k1) :=
    if gap < size then
      tn.place gap (leBytes 32 (recHeader time tn.next boot hubWord .note (gap / 32) 0) ++ zeros (gap - 32))
    else (tn, 0)
  let bytes := leBytes 32 (recHeader time tn.next boot source cls (size / 32) code) ++ body
  let (tn, k2) := tn.place size bytes
  (tn, k1 + k2, bytes)

/-! The flash spill (R582). -/

def spillBase : Nat := 0x09000000

/-- One spill slot: up to 992 record bytes, then the trailer; a new 64 KiB sector is erased first. -/
def spillSlot (f : List (Nat × Byte)) (slot : Nat) (bytes : List Byte) (part : Nat) : List (Nat × Byte) :=
  let f := if slot % 64 = 0 then flashErase f (spillBase + 1024 * slot) 65536 else f
  let body := padTo 992 bytes
  flashWrite f (spillBase + 1024 * slot)
    (body ++ leBytes 4 0x59575350 ++ leBytes 4 (crc32 body).toNat ++ leBytes 1 part ++ zeros 23)

/-- A write to a slot that fails its read-back: the slot stays as the entry to its sector left it. (DESIGN CHOICE, log 34) -/
def spillMiss (f : List (Nat × Byte)) (slot : Nat) : List (Nat × Byte) :=
  if slot % 64 = 0 then flashErase f (spillBase + 1024 * slot) 65536 else f

/-- One slot written, failed writes retried in the next slot at most `tries` times: the flash, the next slot, the failures. (DESIGN CHOICE, log 34) -/
def spillOne (bad : List Nat) (bytes : List Byte) (part : Nat) :
    Nat → List (Nat × Byte) → Nat → List (Nat × Byte) × Nat × Nat
  | 0, f, slot => (spillSlot f slot bytes part, (slot + 1) % 16384, 0)
  | tries + 1, f, slot =>
    if bad.contains slot then
      let (f, next, n) := spillOne bad bytes part tries (spillMiss f slot) ((slot + 1) % 16384)
      (f, next, n + 1)
    else (spillSlot f slot bytes part, (slot + 1) % 16384, 0)

/-- A FATAL record in the spill area, in one slot or two: the flash, the next slot, the failures. (DESIGN CHOICE, log 34) -/
def spill (bad : List Nat) (f : List (Nat × Byte)) (next : Nat) (bytes : List Byte) : List (Nat × Byte) × Nat × Nat :=
  if bytes.length ≤ 992 then spillOne bad bytes 0 bad.length f next
  else
    let (f, next, n) := spillOne bad (bytes.take 992) 1 bad.length f next
    let (f, next, m) := spillOne bad (bytes.drop 992) 2 bad.length f next
    (f, next, n + m)

/-! Rate windows (R587 to R589). -/

/-- The live override entries: code and limit of every used entry. -/
def rateOverrides (regs : List (Nat × W64)) : List (Nat × Nat) :=
  ((List.range 32).map fun j => (regGet regs (Reg.evtRateOverride + 8 * j)).toNat).filterMap fun w =>
    if bitsOf w 31 16 = 0 then none else some (bitsOf w 31 16, bitsOf w 15 0)

/-- The limit of a code in the current window. -/
def Tansy.limit (tn : Tansy) (code : Nat) : Nat :=
  ((tn.winOver.find? fun e => e.1 == code).map (·.2)).getD tn.winDefault

/-- What the recorder changes: itself, flash device 0, the counter registers. -/
structure TansyOut where
  tansy : Tansy
  flash : List (Nat × Byte)
  regs : List (Nat × W64)

/-- Write a record, count what it overwrites, spill it when FATAL. -/
def TansyOut.record (o : TansyOut) (boot code : Nat) (cls : EvClass) (time : Nat) (source : W32) (body : List Byte) : TansyOut :=
  let (tn, overN, bytes) := o.tansy.write boot code cls time source body
  let regs := if overN = 0 then o.regs else regAdd o.regs Reg.evtOverwritten overN
  if cls = .fatal then
    let (f, n, fails) := spill tn.spillBad o.flash tn.spillNext bytes
    ⟨{ tn with spillNext := n }, f, if fails = 0 then regs else regAdd regs Reg.evtSpillFails fails⟩
  else ⟨tn, o.flash, regs⟩

/-- The payload of an EVENT_SUMMARY record (R588). -/
def summaryBody (c : RateCount) (start : Nat) : List Byte :=
  leBytes 2 c.code ++ zeros 2 ++ leBytes 4 c.supp ++ leBytes 8 start ++ leBytes 8 c.first ++ leBytes 8 c.last

/-- Close every window that ends at or before `t`: summaries of the window in ascending code, then the windows follow back to back
under the values in force from then on (R588, R589). -/
def TansyOut.closeWindows (o : TansyOut) (boot t : Nat) : TansyOut :=
  let tn := o.tansy
  let fin := tn.winStart + tn.winMs * 1000000
  if t < fin then o
  else
    let sums := sortBy (fun (a b : RateCount) => decide (a.code < b.code)) (tn.counts.filter fun c => decide (0 < c.supp))
    let o := sums.foldl
      (fun o c => o.record boot Status.eventSummary.code .note fin hubWord (summaryBody c tn.winStart)) o
    let w := (regGet o.regs Reg.evtRateWindow).toNat
    let len := w * 1000000
    let start := if len = 0 then fin else fin + (t - fin) / len * len
    { o with tansy := { o.tansy with
        winStart := start, winMs := w, winDefault := (regGet o.regs Reg.evtRateDefault).toNat,
        winOver := rateOverrides o.regs, counts := [] } }

/-- Count an event of a code in the window: written or suppressed. -/
def bumpCount (cs : List RateCount) (code time : Nat) (supp : Bool) : List RateCount :=
  if cs.any fun c => c.code == code then
    cs.map fun c =>
      if c.code == code then
        (if supp then { c with supp := c.supp + 1, first := if c.supp = 0 then time else c.first, last := time }
         else { c with written := c.written + 1 })
      else c
  else cs ++ [if supp then ⟨code, 0, 1, time, time⟩ else ⟨code, 1, 0, 0, 0⟩]

/-- Step 4 of start-up has applied the configuration: its values count as in force from counter 0, windows follow back to back from there, and the
events that came before count in the window that holds `now` where they lie in it (R589). -/
def Tansy.begin (tn : Tansy) (regs : List (Nat × W64)) (now : Nat) : Tansy :=
  let w := (regGet regs Reg.evtRateWindow).toNat
  let start := now / (w * 1000000) * (w * 1000000)
  let mine := tn.early.filter fun e => decide (start ≤ e.2)
  { tn with
    winStart := start, winMs := w, winDefault := (regGet regs Reg.evtRateDefault).toNat, winOver := rateOverrides regs
    counts := mine.foldl (fun cs e => bumpCount cs e.1 e.2 false) [], early := [] }

/-- An event as Tansy takes it from its queue (R587): written or suppressed. `early`: start-up has not reached step 4, so nothing is
suppressed and no window is known yet (R589). -/
def TansyOut.take (o : TansyOut) (boot : Nat) (early : Bool) (e : Event) : TansyOut :=
  let o := if early then o else o.closeWindows boot e.time
  let code := e.status.code
  if e.cls = .fatal ∨ e.status = .eventSummary ∨ e.status = .eventLost then
    o.record boot code e.cls e.time e.source e.body
  else if early then
    let o := o.record boot code e.cls e.time e.source e.body
    { o with tansy := { o.tansy with early := o.tansy.early ++ [(code, e.time)] } }
  else
    let n := ((o.tansy.counts.find? fun c => c.code == code).map (·.written)).getD 0
    if n < o.tansy.limit code then
      let o := o.record boot code e.cls e.time e.source e.body
      { o with tansy := { o.tansy with counts := bumpCount o.tansy.counts code e.time false } }
    else
      { o with
        tansy := { o.tansy with counts := bumpCount o.tansy.counts code e.time true }
        regs := regAdd o.regs Reg.evtSuppressed 1 }

/-- Every queued event taken, oldest first; once the queue has room, one EVENT_LOST record with the number dropped (R581). -/
def TansyOut.drain (o : TansyOut) (boot : Nat) (early : Bool) (now : Nat) : TansyOut :=
  let o := o.tansy.queue.foldl (fun o e => o.take boot early e) o
  let o := { o with tansy := { o.tansy with queue := [] } }
  if o.tansy.dropped = 0 then o
  else
    let o' := o.take boot early (hubEvent .eventLost now [o.tansy.dropped])
    { o' with tansy := { o'.tansy with dropped := 0 } }

def State.tansyOut (s : State) : TansyOut := ⟨s.tansy, s.flash0, s.regs⟩
def State.setTansy (s : State) (o : TansyOut) : State := { s with tansy := o.tansy, flash0 := o.flash, regs := o.regs }
def State.boot32 (s : State) : Nat := s.boot.bootCount.toNat % 2 ^ 32

/-- A unit's event reaches Tansy: whatever waits in the queue first, then the event itself. (DEDUCED, log 52) -/
def State.event (s : State) (e : Event) : State :=
  s.setTansy ((s.tansyOut.drain s.boot32 (decide (s.boot.step < 4)) e.time).take s.boot32 (decide (s.boot.step < 4)) e)

/-- Events in order. -/
def State.events (s : State) (es : List Event) : State :=
  s.setTansy (es.foldl
    (fun o e => o.take s.boot32 (decide (s.boot.step < 4)) e)
    (s.tansyOut.drain s.boot32 (decide (s.boot.step < 4)) s.counter))

/-- What waits in the queue is taken, and every rate window ended by now is closed; before step 4 of start-up there are no windows yet (R588, R589). -/
def State.closeRate (s : State) : State :=
  let early := decide (s.boot.step < 4)
  let o := s.tansyOut.drain s.boot32 early s.counter
  s.setTansy (if early then o else o.closeWindows s.boot32 s.counter)

/-- An event of the hub now. -/
def State.note (s : State) (st : Status) (args : List Nat) : State := s.event (hubEvent st s.counter args)

/-- A counter register raised. -/
def State.count (s : State) (key n : Nat) : State := { s with regs := regAdd s.regs key n }

/-- `n` twin words disagree on a second reading too (R550, R570). (DEDUCED, log 33) -/
def State.twinFound (s : State) (n : Nat) : State := s.count Reg.lifTwin n

/-- A twin word restored from its second copy (R550): counted and recorded. (DEDUCED, log 33) -/
def State.twinRestored (s : State) (e : Event) : State := (s.count Reg.lifTwinRepaired 1).event e

/-- FATAL records of the ring not yet read (R586). -/
def Tansy.fatalUnread (tn : Tansy) : Nat :=
  (tn.ring.filter fun r => r.valid && !r.read && bitsOf (leNat (r.bytes.take 32)) 62 61 == 2).length

/-- The clock moved to `t`, and the model's clock with it. (DESIGN CHOICE, log 6) -/
def State.at (s : State) (t : Nat) : State :=
  { s with counter := max s.counter t, wall := s.wall + (t - s.counter) }

/-- EVENT_RECORD (R579, R581): a unit's event arrives. Events of one instant wait in the queue of 4096, 64 of them kept for FATAL;
those of an earlier instant have been taken. A full queue drops the event, unless it is FATAL. (DEDUCED, log 52) -/
def execEventRecord (e : Event) (s : State) : Host.Outcome State Fault Refusal :=
  let early := decide (s.boot.step < 4)
  let o := s.tansyOut
  let o := if o.tansy.queue.all fun q => q.time == e.time then o else o.drain s.boot32 early e.time
  let room := if e.cls = .fatal then 4096 else 4096 - 64
  if o.tansy.queue.length < room ∨ e.cls = .fatal then
    .next (s.setTansy { o with tansy := { o.tansy with queue := o.tansy.queue ++ [e] } })
  else
    .next (s.setTansy { o with
      tansy := { o.tansy with dropped := o.tansy.dropped + 1 }, regs := regAdd o.regs Reg.evtLost 1 })

/-- EVENT_SUMMARY (R588): the rate window's end has come; the queue is taken and every window ended by now is closed. -/
def execEventSummary (t : Nat) (s : State) : Host.Outcome State Fault Refusal := .next (s.at t).closeRate

end Sys2Proof.Machine
end

