-- ==== Sys2Proof/Machine/Ops.lean ====
section
/-! DEFINITION. Sys2Proof/Machine/Ops.lean: the named operations over State: free values, the physical address map and memory (spec/09),
local stores, marks, the logical-to-physical map and the fingerprint (spec/12, spec/14), alerts (spec/13). -/

namespace Sys2Proof.Machine

open Sys2Proof

/-! Free values. -/

/-- The k-th free value after those already drawn. (DESIGN CHOICE, log 2) -/
def State.free (s : State) (k : Nat) : W64 := Config.freeValue (s.freeCtr + k)

/-- `n` free values have been drawn. (DESIGN CHOICE, log 2) -/
def State.drew (s : State) (n : Nat) : State := { s with freeCtr := s.freeCtr + n }

/-- `n` free bytes from the k-th value on. -/
def State.freeBytes (s : State) (k n : Nat) : List Byte :=
  ((List.range (ceilDiv n 8)).flatMap fun i => leBytes 8 (s.free (k + i)).toNat).take n

/-! Registers. -/

/-- A stored register's value. -/
def State.reg (s : State) (key : Nat) : Nat := (regGet s.regs key).toNat

def State.setReg (s : State) (key : Nat) (v : Nat) : State := { s with regs := regSet s.regs key (BitVec.ofNat 64 v) }

/-! The address map (R260 to R264). -/

/-- Where a physical address lies. -/
inductive Region where
  | dram (tile off : Nat)
  | tileStore (tile off : Nat)
  /-- Logical cluster 8t + c. -/
  | clusterStore (cluster off : Nat)
  | reserved
  deriving DecidableEq, Repr

/-- The region of an address; the unpopulated part of a window is reserved (R260). -/
def regionOf (a : Nat) : Region :=
  if a < 0x00A000000000 then
    (if a % 0x001000000000 < 2 ^ 36 then .dram (a / 0x001000000000) (a % 0x001000000000) else .reserved)
  else if a < 0x00A0A0000000 then
    let o := a - 0x00A000000000
    if o % 0x10000000 < 160 * 2 ^ 20 then .tileStore (o / 0x10000000) (o % 0x10000000) else .reserved
  else if 0x00B000000000 ≤ a ∧ a < 0x00B0A0000000 then
    let o := a - 0x00B000000000
    if o % 0x10000000 < 8 * 0x01000000 ∧ o % 0x01000000 < 12 * 2 ^ 20 then
      .clusterStore (8 * (o / 0x10000000) + o % 0x10000000 / 0x01000000) (o % 0x01000000)
    else .reserved
  else .reserved

def dramAddr (tile off : Nat) : Nat := tile * 0x001000000000 + off
def tileStoreAddr (tile off : Nat) : Nat := 0x00A000000000 + tile * 0x10000000 + off
def clusterStoreAddr (cluster off : Nat) : Nat :=
  0x00B000000000 + (cluster / 8) * 0x10000000 + (cluster % 8) * 0x01000000 + off

/-! The place of the bias tables. -/

/-- Bytes of one version of a tile's bias table: 4096 rows of 256 binary32 biases (R251). -/
def biasBytes : Nat := 4096 * 256 * 4

/-- The table's offset in each tile's slice, in its firmware region (R251, R263): XPR_BIAS_BASE names it in T0's slice, and the other tiles hold theirs at the same offset of
their own. (DESIGN CHOICE, log 9) -/
def biasOffset : Nat := 0xFE0000000 + Config.biasSlot.toNat * biasBytes

/-- The address of a bias in a tile's table. -/
def biasAddr (t layer e : Nat) : Nat := dramAddr t (biasOffset + 4 * (256 * layer + e))

/-- A range of at least one byte lies in one populated region. -/
def rangePopulated (a n : Nat) : Bool :=
  match regionOf a, regionOf (a + n - 1) with
  | .dram t _, .dram t' _ => t == t'
  | .tileStore t _, .tileStore t' _ => t == t'
  | .clusterStore c _, .clusterStore c' _ => c == c'
  | _, _ => false

/-- Slice offset at which the journal slot begins (R263). -/
def journalBase : Nat := 0xFDC000000
/-- The gather region's bytes: CFG_GATHER_SIZE in units of 256 MiB (R263). -/
def State.gatherSize (s : State) : Nat := s.reg Reg.cfgGatherSize * 2 ^ 28
/-- Slice offset at which the gather region begins; job memory lies below it (R263). -/
def State.gatherBase (s : State) : Nat := journalBase - s.gatherSize

/-! Bytes of the physical address space. -/

/-- The canonical form of the memory: addresses strictly rising, no entry equal to the 0 that an unlisted address reads as (R279). (DEDUCED, log 55) -/
def Memory.wf (m : List (Nat × Byte)) : Bool := Sparse.wf 0 m

def State.readMem (s : State) (a n : Nat) : List Byte := bytesAt 0 s.mem a n

/-- The protected word of an address (R277): 64 bytes in DRAM, 8 in a store. -/
def wordOf (a : Nat) : Nat :=
  match regionOf a with
  | .dram .. => a / 64 * 64
  | _ => a / 8 * 8

def wordSize (a : Nat) : Nat :=
  match regionOf a with
  | .dram .. => 64
  | _ => 8

/-- Some word of the range is marked uncorrectable (R278). -/
def marked (marks : List Nat) (a n : Nat) : Bool :=
  marks.any fun w => decide (w < a + n ∧ a < w + wordSize w)

/-- A full write of a word clears its mark (R278). -/
def clearMarks (marks : List Nat) (a n : Nat) : List Nat :=
  marks.filter fun w => !(decide (a ≤ w ∧ w + wordSize w ≤ a + n))

/-- Bytes written at a physical address. -/
def State.writeMem (s : State) (a : Nat) (bs : List Byte) : State :=
  { s with mem := bytesPut 0 s.mem a bs, keep := { s.keep with marks := clearMarks s.keep.marks a bs.length } }

/-- Several writes, in order. -/
def State.writeAll (s : State) (ws : List (Nat × List Byte)) : State :=
  { s with
    mem := ws.foldl (fun m w => bytesPut 0 m w.1 w.2) s.mem
    keep := { s.keep with marks := ws.foldl (fun k w => clearMarks k w.1 w.2.length) s.keep.marks } }

/-- The key of a local-store byte in `marks` and in a Health: outside the 48-bit space (R261). -/
def lsKey (core byte : Nat) : Nat := 2 ^ 48 + core * 2 ^ 20 + byte

/-- Uncorrectable words found join the marks (R278). -/
def State.mark (s : State) (ws : List Nat) : State :=
  { s with keep := { s.keep with marks := ws.foldl (fun k w => if k.contains w then k else insertBy (· < ·) w k) s.keep.marks } }

/-! Cores. -/

def State.core (s : State) (i : Nat) : Core := Sparse.get Core.reset s.cores i
def State.setCore (s : State) (i : Nat) (c : Core) : State := { s with cores := Sparse.set Core.reset s.cores i c }

def State.cluster (s : State) (i : Nat) : ClusterSt := Sparse.get ⟨[], []⟩ s.clusters i
def State.setCluster (s : State) (i : Nat) (c : ClusterSt) : State := { s with clusters := Sparse.set ⟨[], []⟩ s.clusters i c }

/-- Local-store bytes (R70). -/
def Core.read (c : Core) (a n : Nat) : List Byte := bytesAt 0 c.ls a n
def Core.write (c : Core) (a : Nat) (bs : List Byte) : Core := { c with ls := bytesPut 0 c.ls a bs }

/-- The physical core of a logical core by the units' own mapping (R563), or none when it is out of service (R414). -/
def State.physCore (s : State) (i : Nat) : Option Nat :=
  let t := i / 96
  let cl := s.lif.pendingMap.clusters.getD (i / 12) 0
  let k := s.lif.pendingMap.cores.getD i 0xF
  if k = 0xF then none else some (135 * t + 15 * cl + k)

def physCoreWord (p : Nat) : W32 := coordWord (some (p / 135)) (some (p / 15 % 9)) (some (p % 15)) none none true

/-- A tile is in service: not isolated (R431). -/
def State.tileIn (s : State) (t : Nat) : Bool := !s.boot.isolated.testBit t

/-- A tile is powered for work: no latched trip (R532). -/
def State.tileTrip (s : State) (t : Nat) : Option Status :=
  let r := s.power.rails.getD t Rail.reset
  if r.tripI then some .railTrip else if r.tripT then some .thermalTrip
  else if !s.tileIn t then some .tileIsolated else none

/-! Pace (R346, R541). -/

/-- A pace condition of R346 is in force: 1 a rail stretched at the full limit, 2 an island throttled or a stack paced, 3 a rail stretched
under a lower limit or a permitted point below 5, 4 a stack above 85 °C, 5 a port in retry or retraining (R506), 7 a port on spare lanes or fewer lanes. -/
def State.paceNow (s : State) (reason : Nat) : Bool :=
  let stretched := s.power.rails.any fun r => decide (0 < r.stretchPct)
  let full := s.reg Reg.pwrRailLimit == 1600
  match reason with
  | 1 => stretched && full
  | 2 => (s.power.islands.any fun i => i.throttled) || s.power.stackList.any fun k => k.paced
  | 3 => (stretched && !full) || s.power.rails.any fun r => decide (r.permitted < 5)
  | 4 => s.power.stackList.any fun k => decide (85 * 16 < k.temp)
  | 5 => s.links.ports.any fun p => p.state == .retraining || p.retryFrom.isSome
  | 7 => s.links.ports.any fun p => p.state == .up && (p.half || p.spared)
  | _ => false

/-- The time since the last account goes to the conditions in force: to the running step's pace, to PWR_PACE_NS for the three reasons of
R541, and to PWR_BOOST_NS while a tile runs above point 5. -/
def State.accrue (s : State) : State :=
  let dt := s.counter - s.power.paceAt
  let running := s.step.isSome || s.filler.isSome
  let add (regs : List (Nat × W64)) (key : Nat) (b : Bool) : List (Nat × W64) := if b then regAdd regs key dt else regs
  let p := s.power.pace.zipIdx.map fun (e : Nat × Nat) => if running && s.paceNow e.2 then e.1 + dt else e.1
  let regs := add s.regs Reg.pwrPaceNsCurrent (running && s.paceNow 1)
  let regs := add regs Reg.pwrPaceNsThermal (running && s.paceNow 2)
  let regs := add regs Reg.pwrPaceNsCeiling (running && s.paceNow 3)
  let regs := add regs Reg.pwrBoostNs (s.power.rails.any fun r => decide (5 < r.point))
  if dt = 0 then s else { s with power := { s.power with pace := p, paceAt := s.counter }, regs }

/-! The fingerprint (R358, R359). -/

def SpareMap.coreMask (m : SpareMap) (t c : Nat) : Nat :=
  ((List.range 12).map fun k => if m.cores.getD (96 * t + 12 * c + k) 0xF = 0xF then 0 else 2 ^ k).sum

/-- The 164-byte fingerprint input. -/
def fingerprintInput (part : Part) (isolated : Nat) (m : SpareMap) : List Byte :=
  leBytes 1 1 ++ leBytes 1 (if part = .ywbl10 then 7 else 0)
    ++ leBytes 2 (((List.range 10).map fun t => if isolated.testBit t then 0 else 2 ^ t).sum)
    ++ (List.range 80).flatMap fun i => leBytes 2 (if isolated.testBit (i / 8) then 0 else m.coreMask (i / 8) (i % 8))

/-- Bytes 0 to 7 of the digest, byte 0 in bits [63:56]. -/
def fingerprintOf (input : List Byte) : W64 := BitVec.ofNat 64 (beNat ((sha512 input).take 8))

/-- The new fingerprint takes effect (R359): at start-up and at step boundaries. -/
def State.takeFingerprint (s : State) (count : Bool) : State :=
  let inp := fingerprintInput s.part s.boot.isolated s.lif.pendingMap
  let changed := decide (inp ≠ s.fpInput)
  { s with
    fpInput := inp
    fp := if changed then fingerprintOf inp else s.fp
    regs := if changed && count then regAdd s.regs Reg.geoFpChanges 1 else s.regs }

/-! Alerts (R383). -/

/-- The level of MOD_ALERT_N: low while a condition is pending. -/
def State.alertN (s : State) : Bool :=
  !(s.pins.alertLeak || s.pins.alertTrip || s.pins.alertBrown || decide (0 < s.tansy.fatalUnread)
    || decide (s.boot.phase = .halted))

/-! Partitions. -/

def State.partition (s : State) (p : Nat) : Partition := s.parts.getD p Partition.reset
def State.modPart (s : State) (p : Nat) (f : Partition → Partition) : State := { s with parts := modifyAt s.parts p f }

/-- The resident filler partition, if any (R466). -/
def State.fillerPart (s : State) : Option Nat :=
  (List.range 8).find? fun p => (s.partition p).kind = .filler ∧ (s.partition p).state ≠ .empty

/-- Bytes of a filler window (R217). -/
def Partition.fillerWindow (p : Partition) : Nat := if p.fwin then 256 * 1024 else 128 * 1024

/-- The filler that names partition p (R213, R466). -/
def State.fillerOf (s : State) (p : Nat) : Option Nat :=
  match s.fillerPart with
  | some f => if (s.partition f).main = p ∧ f ≠ p then some f else none
  | none => none

/-- The filler window that partition p meets, in bytes: a filler's own; for a main partition that of the filler that names it, which it must keep out of,
0 without one. A main partition that the filler does not name keeps the whole local store and cluster stores, as its view says (R31, R217). (DEDUCED, log 59) -/
def State.fillerWindow (s : State) (p : Nat) : Nat :=
  if (s.partition p).kind = .filler then (s.partition p).fillerWindow else ((s.fillerOf p).map fun f => (s.partition f).fillerWindow).getD 0

/-- Bytes of a cluster store that partition p's main items may address (R31, R217). (DEDUCED, log 59) -/
def State.csLimit (s : State) (p : Nat) : Nat := if (s.fillerOf p).isSome then 10752 * 1024 else 12288 * 1024

/-- A range lies in a window the partition may read, or write (R264): its DRAM windows, every tile-store window, and the part of the
cluster stores that its geometry view reports (R31, R217). -/
def State.addrOk (s : State) (p : Nat) (a n : Nat) (write : Bool) : Bool :=
  let pt := s.partition p
  if n = 0 then false
  else
    match regionOf a with
    | .dram t off => rangePopulated a n && pt.windows.any fun w =>
        w.tile == t && decide (w.off ≤ off ∧ off + n ≤ w.off + w.size) && !(write && w.ro)
    | .tileStore .. => rangePopulated a n
    | .clusterStore _ off => rangePopulated a n &&
        (if pt.kind = .filler then decide (10752 * 1024 ≤ off)
         else decide (off + n ≤ s.csLimit p))
    | .reserved => false

/-- The job memory of a tile's windows that are writable (R455, R472). -/
def State.jobMemOk (s : State) (p tile a n : Nat) : Bool :=
  match regionOf a with
  | .dram t _ => t == tile && s.addrOk p a n true
  | _ => false

/-! Little structure words. -/

/-- A little-endian word of `n` bytes at a physical address. -/
def State.memNat (s : State) (a n : Nat) : Nat := leNat (s.readMem a n)

/-- The hub runs commands: start-up is complete and the power state is not OFF (R402, R523). -/
def State.up (s : State) : Bool := decide (s.boot.phase = .ready) && s.pins.pgood && decide (s.power.state ≠ .off)

/-- The Ethernet ports serve Campion: while the hub runs commands, and under the recovery loader (R612). -/
def State.netUp (s : State) : Bool := s.up || (decide (s.boot.phase = .recovery) && s.pins.pgood)

end Sys2Proof.Machine
end

