-- ==== Sys2Proof/Machine/Vetch.lean ====
section
/-! DEFINITION. Sys2Proof/Machine/Vetch.lean: the buffer pool manager of a tile (spec/10). -/

namespace Sys2Proof.Machine

open Sys2Proof

/-- Buffer bytes of a class (R285). -/
def classBytes (c : Nat) : Nat := 4096 * 4 ^ c

def Twin.both {α : Type} (a : α) : Twin α := ⟨a, a⟩

/-- A twin word checks (R550). -/
def twinOk {α : Type} [DecidableEq α] (t : Twin α) : Bool := decide (t.val = t.cmp)

def VetchTile.pool (v : VetchTile) (i : Nat) : Option Pool := (v.pools.find? fun e => e.1 == i).map (·.2)
def VetchTile.owner (v : VetchTile) (i : Nat) : Option (Twin Owner) := (v.owners.find? fun e => e.1 == i).map (·.2)

def setAssoc {α : Type} (l : List (Nat × α)) (k : Nat) (a : α) : List (Nat × α) :=
  insertBy (fun x y => decide (x.1 < y.1)) (k, a) (l.filter fun e => e.1 != k)

def eraseAssoc {α : Type} (l : List (Nat × α)) (k : Nat) : List (Nat × α) := l.filter fun e => e.1 != k

def VetchTile.setPool (v : VetchTile) (i : Nat) (p : Pool) : VetchTile := { v with pools := setAssoc v.pools i p }

/-- Buffers of pool `p` that owner `o` holds (R291). -/
def Pool.heldBy (p : Pool) (o : Nat) : Nat := (p.bufs.filter fun b => b.2.holder == o).length

/-- held(o): buffers held over all pools (R291). -/
def VetchTile.held (v : VetchTile) (o : Nat) : Nat := (v.pools.map fun p => p.2.heldBy o).sum

/-- reserve(p): the sum of max(0, MIN − held_home) over the owners homed in p (R291). -/
def VetchTile.reserveOf (v : VetchTile) (i : Nat) (p : Pool) : Nat :=
  (v.owners.map fun e => if e.2.val.pool = i then e.2.val.min - p.heldBy e.1 else 0).sum

/-- Every pool's reserve count brought up to date; a count whose twin fails stays as it is. -/
def VetchTile.refresh (v : VetchTile) : VetchTile :=
  { v with pools := v.pools.map fun (i, p) =>
      (i, if twinOk p.reserve then { p with reserve := Twin.both (v.reserveOf i p) } else p) }

/-- The pool's counts check (R301). -/
def Pool.countsOk (p : Pool) : Bool := twinOk p.free && twinOk p.reserve

/-- The pool's twins check (R301). -/
def Pool.twinsOk (p : Pool) : Bool := p.countsOk && p.badBits.isEmpty && p.bufs.all fun b => twinOk b.2.bit

/-- The general pool of a partition for a class (R287). -/
def VetchTile.general (v : VetchTile) (part cls : Nat) : Option (Nat × Pool) :=
  v.pools.find? fun e => e.2.general && e.2.part == part && e.2.cls == cls

/-- The free buffer of lowest index (R292). -/
def Pool.lowestFree (p : Pool) : Nat :=
  let rec go : Nat → List (Nat × Buffer) → Nat
    | i, [] => i
    | i, b :: bs => if b.1 = i then go (i + 1) bs else i
  go 0 p.bufs

/-- take(p, o): the lowest free buffer allocated to o (R292). -/
def VetchTile.take (v : VetchTile) (i o : Nat) (fallback : Bool) : VetchTile × Nat :=
  match v.pool i with
  | none => (v, 0)
  | some p =>
    let b := p.lowestFree
    let free := p.free.val - 1
    let p := { p with
      bufs := setAssoc p.bufs b ⟨Twin.both true, o⟩, free := Twin.both free, lowWater := min p.lowWater free,
      fallbacks := if fallback then p.fallbacks + 1 else p.fallbacks }
    ((v.setPool i p).refresh, b)

/-- What a request answers (R298). -/
structure VetchResult where
  status : Status
  handle : Nat
  addr : Nat
  cls : Nat
  fallback : Bool
  deriving DecidableEq, Repr

def vetchFail (st : Status) : VetchResult := ⟨st, 0, 0, 0, false⟩

/-- A handle (R293). -/
def handleOf (tile pool buf : Nat) : Nat := putBits 31 28 tile + putBits 27 22 pool + putBits 21 0 buf

/-- The fallback search of R291: the classes above the home class, in order. It stops at the first pool that has a buffer to give, or whose
counts, which the search reads, fail their twins (R301). -/
def VetchTile.fallbackPool (v : VetchTile) (part cls : Nat) : Nat → Nat → Option Nat
  | 0, _ => none
  | n + 1, step =>
    if 5 < cls + step then none
    else
      match v.general part (cls + step) with
      | some (i, q) => if !q.countsOk ∨ (q.reserve.val < q.free.val ∧ !q.frozen) then some i else v.fallbackPool part cls n (step + 1)
      | none => v.fallbackPool part cls n (step + 1)

/-- ALLOC for owner `o` (R291). A frozen pool hands out no buffer (R551). -/
def VetchTile.alloc (v : VetchTile) (tile o : Nat) : VetchTile × VetchResult :=
  match v.owner o with
  | none => (v, vetchFail .badHandle)
  | some ow =>
    match v.pool ow.val.pool with
    | none => (v, vetchFail .badHandle)
    | some p =>
      if !twinOk ow || !p.twinsOk then (v.setPool ow.val.pool { p with frozen := true }, vetchFail .twinMismatch)
      else
        let w := ow.val
        if w.max ≠ 0 ∧ v.held o = w.max then (v, vetchFail .ownerLimit)
        else if !p.frozen ∧ ((p.heldBy o < w.min ∧ 0 < p.free.val) ∨ p.reserve.val < p.free.val) then
          let (v, b) := v.take w.pool o false
          (v, ⟨.ok, handleOf tile w.pool b, p.base + b * classBytes p.cls, p.cls, false⟩)
        else
          match v.fallbackPool w.part p.cls w.fallback 1 with
          | some i =>
            match v.pool i with
            | some q =>
              if !q.twinsOk then (v.setPool i { q with frozen := true }, vetchFail .twinMismatch)
              else
                let (v, b) := v.take i o true
                (v, ⟨.ok, handleOf tile i b, q.base + b * classBytes q.cls, q.cls, true⟩)
            | none => (v, vetchFail .poolEmpty)
          | none => (v.setPool w.pool { p with emptyEvents := p.emptyEvents + 1 }, vetchFail .poolEmpty)

/-- The share record of a buffer. -/
def VetchTile.shareOf (v : VetchTile) (pool buf : Nat) : Option (Nat × Twin Share) :=
  v.shares.find? fun e => e.2.val.pool == pool && e.2.val.buf == buf

/-- A buffer returned to its pool. -/
def VetchTile.giveBack (v : VetchTile) (pool buf : Nat) : VetchTile :=
  match v.pool pool with
  | none => v
  | some p =>
    { v.setPool pool { p with bufs := eraseAssoc p.bufs buf, free := Twin.both (p.free.val + 1) } with
      shares := v.shares.filter fun e => !(e.2.val.pool == pool && e.2.val.buf == buf) }.refresh

/-- The pool of a handle when the handle is known (R293). -/
def VetchTile.byHandle (v : VetchTile) (tile h : Nat) : Option (Nat × Pool × Nat) :=
  let i := bitsOf h 27 22
  match v.pool i with
  | some p => if bitsOf h 31 28 = tile ∧ bitsOf h 21 0 < p.count then some (i, p, bitsOf h 21 0) else none
  | none => none

def Pool.buffer (p : Pool) (b : Nat) : Option Buffer := (p.bufs.find? fun e => e.1 == b).map (·.2)

/-- The twins that a request about buffer `b` reads check (R301): the pool's counts and the buffer's state bit. A frozen pool still takes
frees (R551). -/
def Pool.bufferOk (p : Pool) (b : Nat) : Bool := p.countsOk && !p.badBits.contains b && (p.buffer b).all fun x => twinOk x.bit

/-- An owner entry reads and fails its twin (R301). -/
def VetchTile.ownerBad (v : VetchTile) (o : Nat) : Bool := (v.owner o).any fun w => !twinOk w

/-- FREE by owner `o` of a handle (R294, R296). -/
def VetchTile.freeBuf (v : VetchTile) (tile o h : Nat) : VetchTile × VetchResult :=
  match v.byHandle tile h with
  | none => (v, vetchFail .badHandle)
  | some (i, p, b) =>
    if !p.bufferOk b then (v.setPool i { p with frozen := true }, vetchFail .twinMismatch)
    else
      match p.buffer b with
      | none => (v, vetchFail .doubleFree)
      | some buf =>
        match v.shareOf i b with
        | none =>
          if buf.holder ≠ o then (v, vetchFail .notFinalOwner)
          else (v.giveBack i b, ⟨.ok, h, 0, p.cls, false⟩)
        | some (k, sh) =>
          if !twinOk sh then (v.setPool i { p with frozen := true }, vetchFail .twinMismatch)
          else if sh.val.freePending then (v, vetchFail .doubleFree)
          else if sh.val.final ≠ o then (v, vetchFail .notFinalOwner)
          else if sh.val.cos.all (·.2) then (v.giveBack i b, ⟨.ok, h, 0, p.cls, false⟩)
          else
            ({ v with shares := setAssoc v.shares k (Twin.both { sh.val with freePending := true }) },
              ⟨.ok, h, 0, p.cls, false⟩)

/-- SHARE by holder `o` with final owner `f` and co-owners (R295). -/
def VetchTile.share (v : VetchTile) (tile o h f : Nat) (cos : List Nat) : VetchTile × VetchResult :=
  match v.byHandle tile h with
  | none => (v, vetchFail .badHandle)
  | some (i, p, b) =>
    if !p.bufferOk b then (v.setPool i { p with frozen := true }, vetchFail .twinMismatch)
    else
      match p.buffer b, v.owner o, v.owner f with
      | some buf, some ow, some fo =>
        if (v.shareOf i b).isSome ∨ buf.holder ≠ o then (v, vetchFail .notFinalOwner)
        else if !twinOk ow || !twinOk fo || cos.any v.ownerBad then (v.setPool i { p with frozen := true }, vetchFail .twinMismatch)
        else if cos.length < 1 ∨ 7 < cos.length ∨ !(f == o || cos.contains o) ∨ fo.val.part ≠ ow.val.part
            ∨ !(cos.all fun c => match v.owner c with
              | some co => co.val.part == ow.val.part
              | none => false) then
          (v, vetchFail .badHandle)
        else if f ≠ o ∧ fo.val.max ≠ 0 ∧ v.held f = fo.val.max then (v, vetchFail .ownerLimit)
        else
          match (List.range 4096).find? fun k => !(v.shares.any fun e => e.1 == k) with
          | none =>
            let home := ow.val.pool
            (match v.pool home with
              | some q => v.setPool home { q with emptyEvents := q.emptyEvents + 1 }
              | none => v, vetchFail .poolEmpty)
          | some k =>
            let p := { p with bufs := setAssoc p.bufs b { buf with holder := f } }
            let v := { v.setPool i p with
              shares := setAssoc v.shares k (Twin.both ⟨i, b, f, cos.map fun c => (c, false), false⟩) }
            (v.refresh, ⟨.ok, h, 0, p.cls, false⟩)
      | none, _, _ => (v, vetchFail .doubleFree)
      | _, _, _ => (v, vetchFail .badHandle)

/-- Mark the first outstanding release of co-owner `o`. -/
def releaseCo (o : Nat) : List (Nat × Bool) → Option (List (Nat × Bool))
  | [] => none
  | (c, r) :: l => if c = o ∧ !r then some ((c, true) :: l) else (releaseCo o l).map ((c, r) :: ·)

/-- RELEASE by co-owner `o` (R296). -/
def VetchTile.release (v : VetchTile) (tile o h : Nat) : VetchTile × VetchResult :=
  match v.byHandle tile h with
  | none => (v, vetchFail .badHandle)
  | some (i, p, b) =>
    if !p.bufferOk b then (v.setPool i { p with frozen := true }, vetchFail .twinMismatch)
    else
      match p.buffer b with
      | none => (v, vetchFail .doubleFree)
      | some _ =>
        match v.shareOf i b with
        | none => (v, vetchFail .notCoOwner)
        | some (k, sh) =>
          if !twinOk sh then (v.setPool i { p with frozen := true }, vetchFail .twinMismatch)
          else
            match releaseCo o sh.val.cos with
            | none => (v, vetchFail .notCoOwner)
            | some cos =>
              if cos.all (·.2) && sh.val.freePending then (v.giveBack i b, ⟨.ok, h, 0, p.cls, false⟩)
              else
                ({ v with shares := setAssoc v.shares k (Twin.both { sh.val with cos }) }, ⟨.ok, h, 0, p.cls, false⟩)

/-- The lowest free index of the owner table, when a new owner is allowed (R290): the entries homed in its pool and the pool's counts are read,
and TWIN_MISMATCH answers where one of them fails (R301). -/
def VetchTile.newOwner (v : VetchTile) (o : Owner) : Except Status Nat :=
  match v.pool o.pool with
  | none => .error .poolConfig
  | some p =>
    let homed := v.owners.filter fun e => e.2.val.pool == o.pool
    let mins := (homed.map fun e => e.2.val.min).sum
    if !p.countsOk ∨ homed.any fun e => !twinOk e.2 then .error .twinMismatch
    else if p.part ≠ o.part ∨ 5 < o.fallback ∨ (o.max ≠ 0 ∧ o.max < o.min) ∨ p.count < mins + o.min then .error .poolConfig
    else
      match (List.range 1024).find? fun k => !(v.owners.any fun e => e.1 == k) with
      | some k => .ok k
      | none => .error .poolConfig

def VetchTile.addOwner (v : VetchTile) (k : Nat) (o : Owner) : VetchTile :=
  { v with owners := setAssoc v.owners k (Twin.both o) }.refresh

/-- The holder of a buffer whose owner is gone: no entry of the owner table (R289: 1024 entries), so nobody is charged for it. -/
def noOwner : Nat := 1024

/-- The requests of a list made one after another, with what each answers. -/
def VetchTile.each (v : VetchTile) (f : VetchTile → Nat → VetchTile × VetchResult) (hs : List Nat) : VetchTile × List VetchResult :=
  hs.foldl (fun (x : VetchTile × List VetchResult) h =>
    let (v, r) := f x.1 h
    (v, x.2 ++ [{ r with handle := h }])) (v, [])

/-- Removing an owner: a RELEASE for every share it co-owns, then a FREE for every buffer it holds or finally owns (R297), with what they answer.
A buffer that stays out, because releases are outstanding, is charged to nobody from then on. -/
def VetchTile.removeOwner (v : VetchTile) (tile o : Nat) : VetchTile × List VetchResult :=
  let rel := v.shares.filter fun e => e.2.val.cos.any fun c => c.1 == o && !c.2
  let (v, rs) := v.each (fun v h => v.release tile o h) (rel.map fun e => handleOf tile e.2.val.pool e.2.val.buf)
  let held := v.pools.flatMap fun (i, p) => (p.bufs.filter fun b => b.2.holder == o).map fun b => handleOf tile i b.1
  let (v, fs) := v.each (fun v h => v.freeBuf tile o h) held
  let pools := v.pools.map fun (i, p) =>
    (i, { p with bufs := p.bufs.map fun (k, b) => (k, if b.holder = o then { b with holder := noOwner } else b) })
  ({ v with pools, owners := eraseAssoc v.owners o }.refresh, rs ++ fs)

/-- Removing a partition: queues, streams and buckets, then the partition's owners, then its pools with whatever is still shared
(R297). What each owner's requests answer stands beside it. -/
def VetchTile.removePart (v : VetchTile) (tile part : Nat) : VetchTile × List (Nat × VetchResult) :=
  let mine := v.owners.filter fun e => e.2.val.part == part
  let first := mine.filter fun e => e.2.val.kind != .partition
  let rest := mine.filter fun e => e.2.val.kind == .partition
  let (v, rs) := (first ++ rest).foldl (fun (x : VetchTile × List (Nat × VetchResult)) e =>
    let (v, rs) := x.1.removeOwner tile e.1
    (v, x.2 ++ rs.map fun r => (e.1, r))) (v, [])
  let dead := (v.pools.filter fun e => e.2.part == part).map (·.1)
  ({ v with pools := v.pools.filter fun e => e.2.part != part
            shares := v.shares.filter fun e => !(dead.contains e.2.val.pool) }, rs)

/-- The credits of a stream's owner (R302): max(0, MIN − held_home) + common free, at most MAX − held. -/
def VetchTile.credits (v : VetchTile) (o : Nat) : Int :=
  match v.owner o with
  | none => 0
  | some ow =>
    match v.pool ow.val.pool with
    | none => 0
    | some p =>
      let c : Int := ((ow.val.min - p.heldBy o : Nat) : Int) + ((p.free.val : Int) - (p.reserve.val : Int))
      if ow.val.max = 0 then c else min c ((ow.val.max : Int) - (v.held o : Int))

/-! The requests as commands. -/

def State.vetchOf (s : State) (t : Nat) : VetchTile := s.vetch.getD t ⟨[], [], []⟩
def State.setVetch (s : State) (t : Nat) (v : VetchTile) : State := { s with vetch := modifyAt s.vetch t fun _ => v }

/-- The counter that a result raises (R303). -/
def vetchCounter : Status → Option Nat
  | .poolEmpty => some Reg.polEmpty
  | .ownerLimit => some Reg.polLimit
  | .doubleFree => some Reg.polDoubleFree
  | .notFinalOwner | .notCoOwner => some Reg.polNotFinal
  | .twinMismatch => some Reg.polTwin
  | _ => none

/-- Counters and events of a request's result (R303, R305). -/
def State.vetchDone (s : State) (tile part o : Nat) (alloc : Bool) (r : VetchResult) : State :=
  let s := if alloc ∧ r.status = .ok then s.count Reg.polAllocs 1 else s
  let s := if r.fallback then s.count Reg.polFallbacks 1 else s
  let s := if r.status = .twinMismatch then s.twinFound 1 else s
  match vetchCounter r.status with
  | some k => (s.count k 1).event (tileEvent r.status s.counter tile part [tile, bitsOf r.handle 27 22, r.handle, o])
  | none =>
    if r.status = .ok then s else s.event (tileEvent r.status s.counter tile part [tile, bitsOf r.handle 27 22, r.handle, o])

/-- The 16-byte response (R298). -/
def VetchResult.word (r : VetchResult) : Nat :=
  putBits 127 112 r.status.code + putBits 111 80 r.handle + putBits 79 32 r.addr + putBits 31 29 r.cls

/-- The home pool of an owner whose entry fails its twin hands out no further buffer (R551). -/
def VetchTile.freezeHome (v : VetchTile) (o : Nat) : VetchTile :=
  match v.owner o with
  | some ow =>
    match v.pool ow.val.pool with
    | some p => v.setPool ow.val.pool { p with frozen := true }
    | none => v
  | none => v

/-- Owner `o` may make requests for partition `part` (R293); its entry is read, so its twin must check (R301). -/
def VetchTile.mayAsk (v : VetchTile) (o part : Nat) : Bool :=
  match v.owner o with
  | some ow => twinOk ow && ow.val.part == part
  | none => false

/-- An owner's requests answered: each raises its counter and records its event (R303, R305). -/
def State.vetchEach (s : State) (tile part : Nat) (rs : List (Nat × VetchResult)) : State :=
  rs.foldl (fun s e => s.vetchDone tile part e.1 false e.2) s

/-- FREE by an owner inside the module, with its counter and its event. -/
def State.vetchFree (s : State) (tile part o h : Nat) : State :=
  let (v, r) := (s.vetchOf tile).freeBuf tile o h
  (s.setVetch tile v).vetchDone tile part o false { r with handle := h }

/-- An owner removed, with the counters and events of its requests (R297). -/
def State.vetchRemove (s : State) (tile part o : Nat) : State :=
  let (v, rs) := (s.vetchOf tile).removeOwner tile o
  (s.setVetch tile v).vetchEach tile part (rs.map fun r => (o, r))

/-- A refused pool or owner of a tile is recorded (R305). -/
def State.vetchRefused (s : State) (tile part pool : Nat) (st : Status) : State :=
  s.vetchDone tile part noOwner false { vetchFail st with handle := handleOf tile pool 0 }

/-- A buffer just handed out holds no earlier sample of a stream (R459). -/
def State.forgetHandle (s : State) (tile h : Nat) : State :=
  { s with cmp := { s.cmp with streams := s.cmp.streams.map fun (e : Nat × Stream) =>
      if e.2.tile = tile then (e.1, { e.2 with heldSamples := e.2.heldSamples.filter fun x => x.2 != h }) else e } }

/-- One request of R298 to a tile's Vetch: a handle of another tile goes to that tile's Vetch; the response is sent out. `op` is the
operation the row names; a request word with another OP is that other row's. -/
def State.vetchRequest (s : State) (op tile : Nat) (req : W256) (part : Nat) : State :=
  let w := req.toNat
  let h := bitsOf w 223 192
  let t := if op = 0 then tile else bitsOf h 31 28
  let o := bitsOf w 251 242
  let v := s.vetchOf t
  let r : VetchTile × VetchResult :=
    if bitsOf w 255 252 ≠ op ∨ 9 < t then (v, { vetchFail .badHandle with handle := h })
    else if v.ownerBad o then (v.freezeHome o, { vetchFail .twinMismatch with handle := h })
    else if !v.mayAsk o part then (v, { vetchFail .badHandle with handle := h })
    else if op = 0 then v.alloc t o
    else
      let (v, r) :=
        if op = 1 then v.freeBuf t o h
        else if op = 2 then
          v.share t o h (bitsOf w 241 232)
            ((List.range (bitsOf w 231 229)).map fun i => bitsOf w (191 - 10 * i) (182 - 10 * i))
        else v.release t o h
      (v, { r with handle := h })
  let s := (s.setVetch t r.1).vetchDone t part o (decide (op = 0)) r.2
  let s := if op = 0 ∧ r.2.status = .ok then s.forgetHandle t r.2.handle else s
  { s with out := s.out ++ [.vetch t (leBytes 16 r.2.word)] }

/-- ALLOC (R291, R298). -/
def execAlloc (tile : Tile) (req : W256) (part : Nat) (s : State) : Host.Outcome State Fault Refusal :=
  .next (s.vetchRequest 0 tile.val req part)

/-- FREE (R294, R298). -/
def execFree (tile : Tile) (req : W256) (part : Nat) (s : State) : Host.Outcome State Fault Refusal :=
  .next (s.vetchRequest 1 tile.val req part)

/-- SHARE (R295, R298). -/
def execShare (tile : Tile) (req : W256) (part : Nat) (s : State) : Host.Outcome State Fault Refusal :=
  .next (s.vetchRequest 2 tile.val req part)

/-- RELEASE (R296, R298). -/
def execRelease (tile : Tile) (req : W256) (part : Nat) (s : State) : Host.Outcome State Fault Refusal :=
  .next (s.vetchRequest 3 tile.val req part)

end Sys2Proof.Machine
end

