-- ==== Sys2Proof/Machine/Journal.lean ====
section
/-! DEFINITION. Sys2Proof/Machine/Journal.lean: the journal (spec/16 R487 to R492), the command queues (R469), and the control frames that the
module sends in a session (spec/15 R440, R447, R448). -/

namespace Sys2Proof.Machine

open Sys2Proof

/-! Frames out. -/

/-- The frame leaves, or waits while its priority is paused (R437). -/
def State.sendRaw (s : State) (port : Fin 2) (prio : Nat) (o : Out) : State :=
  let e := s.eth.getD port.val EthPort.reset
  if e.paused.any fun p => p.1 == prio && decide (s.counter < p.2) then
    { s with eth := modifyAt s.eth port.val fun e => { e with txq := e.txq ++ [(prio, o)] } }
  else { s with out := s.out ++ [o], regs := regAdd s.regs (Reg.ethTxFrames + 0x100 * port.val) 1 }

/-- The priority of control or ingest frames: their PCP (R462). -/
def State.sendPrio (s : State) (port : Fin 2) (ingest : Bool) : Nat :=
  let vlan := s.reg (Reg.ethVlan + 0x100 * port.val)
  if ingest then bitsOf vlan 22 20 else bitsOf vlan 18 16

/-- The head of a frame (R434): the VLAN tag of a tagged port with the PCP of its kind; ECT(0) on an IP packet (R438). -/
def State.ethHead (s : State) (port : Fin 2) (ingest ip : Bool) (mac : BitVec 48) : EthHead :=
  let vlan := s.reg (Reg.ethVlan + 0x100 * port.val)
  { dstMac := mac
    vlan := if vlan.testBit 12 then some (BitVec.ofNat 12 (bitsOf vlan 11 0), BitVec.ofNat 3 (s.sendPrio port ingest)) else none
    ecn := if ip then 2 else 0 }

/-- The next hop toward an address (R434, R462): itself on the port's own prefix, on the link (fe80::/10), or where no gateway is set; else the gateway. -/
def State.nextHop (s : State) (port : Fin 2) (dst : Addr) : Addr :=
  let r (k : Nat) : Nat := s.reg (k + 0x100 * port.val)
  let near (own n : Nat) : Bool := own != 0 && dst.bits.toNat / 2 ^ n == own / 2 ^ n
  if dst.ipv6 then
    let gw := r Reg.ethIpv6GwHi * 2 ^ 64 + r Reg.ethIpv6GwLo
    let own := r Reg.ethIpv6Hi * 2 ^ 64 + r Reg.ethIpv6Lo
    if bitsOf dst.bits.toNat 127 118 = 0x3FA ∨ near own (128 - bitsOf (r Reg.ethIpv6Prefix) 7 0) ∨ gw = 0 then dst
    else ⟨true, BitVec.ofNat 128 gw⟩
  else
    let w := r Reg.ethIpv4
    let gw := bitsOf (r Reg.ethIpv4Gw) 31 0
    if near (bitsOf w 31 0) (32 - bitsOf w 37 32) ∨ gw = 0 then dst else ⟨false, BitVec.ofNat 128 gw⟩

/-- The MAC address of the next hop toward an address, once it is resolved. -/
def State.hopMac (s : State) (port : Fin 2) (dst : Addr) : Option (BitVec 48) :=
  let hop := s.nextHop port dst
  ((s.eth.getD port.val EthPort.reset).neighbours.find? fun n => n.1 == hop).map (·.2)

/-- Send a frame from a port. Toward a hop whose MAC is not known it waits, and the first that does asks for the MAC (R434). (DEDUCED, log 5) -/
def State.sendUdp (s : State) (port : Fin 2) (ingest : Bool) (dst : Addr) (o : EthHead → Out) : State :=
  match s.hopMac port dst with
  | some mac => s.sendRaw port (s.sendPrio port ingest) (o (s.ethHead port ingest true mac))
  | none =>
    let hop := s.nextHop port dst
    let asked := (s.eth.getD port.val EthPort.reset).unresolved.any fun e => e.1 == hop
    let s := { s with eth := modifyAt s.eth port.val fun e =>
      { e with unresolved := e.unresolved ++ [(hop, s.sendPrio port ingest, o (s.ethHead port ingest true 0))] } }
    if asked then s else s.sendRaw port (s.sendPrio port false) (.solicit port (s.ethHead port false hop.ipv6 0xFFFFFFFFFFFF) hop)

/-- The control frame header (R440). -/
def ctrlHeader (type flags sess len gen seq ack reqId status : Nat) : Nat :=
  putBits 255 248 1 + putBits 247 240 type + putBits 239 232 flags + putBits 231 228 sess + putBits 223 208 len
    + putBits 207 192 gen + putBits 191 144 seq + putBits 143 96 ack + putBits 95 32 reqId + putBits 31 16 status

/-- An authenticated frame's UDP payload (R440). -/
def Session.frame (x : Session) (i : Nat) (f : TxFrame) : List Byte :=
  let flags := f.flags ||| (if x.ceEcho then 2 else 0)
  let h := leBytes 32 (ctrlHeader f.type flags i f.body.length x.gen f.seq (x.rxNext - 1) f.reqId.toNat f.status)
  h ++ f.body ++ hmac256 x.key (h ++ f.body)

def State.session (s : State) (i : Nat) : Session := s.cmp.sessions.getD i Session.reset
def State.setSession (s : State) (i : Nat) (x : Session) : State :=
  { s with cmp := { s.cmp with sessions := modifyAt s.cmp.sessions i fun _ => x } }

/-- A frame of session `i` goes out on the port of its last authenticated frame (R450), from the UDP port its peer addressed. -/
def State.sendFrame (s : State) (i : Nat) (f : TxFrame) : State :=
  let x := s.session i
  let s := s.sendUdp x.port false x.peer fun h => .udp x.port h x.peer x.localPort x.peerPort (x.frame i f)
  s.setSession i { x with ceEcho := false, ackSent := x.rxNext - 1 }

/-- An ACK frame: SEQ 0, carries ACK alone (R441, R447). -/
def State.sendAck (s : State) (i : Nat) : State := s.sendFrame i ⟨0, 0x08, 0, 0, 0, [], 0, s.counter⟩

/-- A frame of type S: numbered, kept until acknowledged, held back behind 64 unacknowledged ones (R447, R448). A SEQ past
2^48 − 1 ends the session (R446). -/
def State.sendS (s : State) (i type flags : Nat) (reqId : W64) (status : Nat) (body : List Byte) : State :=
  let x := s.session i
  if !x.isOpen then s
  else if 2 ^ 48 ≤ x.txSeq then s.setSession i Session.reset
  else if 64 ≤ x.unacked.length then
    s.setSession i { x with waiting := x.waiting ++ [⟨0, type, flags, reqId, status, body, 0, 0⟩] }
  else
    let f : TxFrame := ⟨x.txSeq, type, flags, reqId, status, body, 0, s.counter⟩
    (s.setSession i { x with txSeq := x.txSeq + 1, unacked := x.unacked ++ [f] }).sendFrame i f

/-- Held-back frames sent as far as the limit of 64 allows (R448). -/
def State.flushWaiting (s : State) (i : Nat) : State :=
  let x := s.session i
  let n := 64 - x.unacked.length
  (x.waiting.take n).foldl (fun s f => s.sendS i f.type f.flags f.reqId f.status f.body)
    (s.setSession i { x with waiting := x.waiting.drop n })

/-- Body bytes of one control frame under ETH_MTU: IP, UDP, header and trailer taken off. -/
def State.bodyRoom (s : State) (x : Session) : Nat :=
  s.reg (Reg.ethMtu + 0x100 * x.port.val) - (if x.peer.ipv6 then 40 else 20) - 8 - 64

/-- A body in consecutive frames, every one but the last with MORE (R451, R584). -/
def chunks (room : Nat) : Nat → List Byte → List (List Byte)
  | 0, _ => []
  | n + 1, bs => if bs.length ≤ room ∨ room = 0 then [bs] else bs.take room :: chunks room n (bs.drop room)

/-- The RESPONSE to a command (R441, R473). -/
def State.respond (s : State) (i : Nat) (reqId : W64) (status : Status) (body : List Byte) : State :=
  let parts := chunks (s.bodyRoom (s.session i)) (body.length + 1) body
  (parts.zipIdx).foldl
    (fun s (b, k) => s.sendS i 0x11 (if k + 1 < parts.length then 1 else 0) reqId status.code b) s

/-! The journal. -/

/-- Entry kinds (R488). -/
inductive EntryKind where
  | accepted | started | completed | abandoned | restarted | prepared | sealedStep | aborted | replayed | paused | reset
  | eraStart
  deriving DecidableEq, Repr

def EntryKind.code : EntryKind → Nat
  | .accepted => 0
  | .started => 1
  | .completed => 2
  | .abandoned => 3
  | .restarted => 4
  | .prepared => 5
  | .sealedStep => 6
  | .aborted => 7
  | .replayed => 8
  | .paused => 9
  | .reset => 10
  | .eraStart => 11

/-- A journal entry's value (R487). -/
def entryWord (jseq reqId kind family op slot part queue : Nat) (mgmt : Bool) (status summary : Nat) : W256 :=
  BitVec.ofNat 256 (putBits 255 192 jseq + putBits 191 128 reqId + putBits 127 124 kind + putBits 123 120 family
    + putBits 119 112 op + putBits 111 109 slot + putBits 108 106 part + putBits 105 103 queue + putBits 102 102 (b2n mgmt)
    + putBits 101 86 status + putBits 63 0 summary)

def ringSlots : Nat := 2 ^ 20

def setSlot (m : List (Nat × Twin W256)) (k : Nat) (w : W256) : List (Nat × Twin W256) := setAssoc m k (Twin.both w)

/-- The oldest JSEQ in the ring (R496). -/
def Journal.first (j : Journal) : Nat := max (j.era + 1) (j.last + 1 - ringSlots)

/-- The first copy of a slot's entry whose twin checks, and how many copies in service fail (R489). -/
def Journal.readSlot (j : Journal) (k : Nat) : Option W256 × Nat :=
  let cs := [(0, j.mirror), (1, j.copy1), (2, j.copy2)].filterMap fun (b, m) =>
    if j.svc.testBit b then (m.find? fun e => e.1 == k).map (·.2) else none
  let good := (cs.find? twinOk).map (·.val)
  (good, (cs.filter fun t => !twinOk t).length)

/-- Append one entry to every copy in service (R489). What the ring loses raises its slot's FLOOR (R452), as the first copy whose twin checks gives it; an
entry that no copy gives raises none. (DEDUCED, log 51) -/
def Journal.append (j : Journal) (w : W256) : Journal :=
  let k := (j.last + 1) % ringSlots
  let floors :=
    match (j.readSlot k).1 with
    | some old => modifyAt j.floors (bitsOf old.toNat 111 109) fun f => max f (bitsOf old.toNat 191 128)
    | none => j.floors
  { j with
    mirror := if j.svc.testBit 0 then setSlot j.mirror k w else j.mirror
    copy1 := if j.svc.testBit 1 then setSlot j.copy1 k w else j.copy1
    copy2 := if j.svc.testBit 2 then setSlot j.copy2 k w else j.copy2
    last := j.last + 1
    floors }

/-- An entry of a command (R487, R488). -/
def Cmd.entry (c : Cmd) (jseq : Nat) (kind : EntryKind) (status summary : Nat) : W256 :=
  entryWord jseq c.reqId.toNat kind.code c.family c.op c.slot c.part c.queue c.mgmt status summary

/-- SUMMARY of an entry that is not final: STEP_RUN carries its step number (R487). -/
def Cmd.summary (c : Cmd) : Nat := if c.family = 4 ∧ c.op = 1 then leAt c.params 56 8 else 0

/-- Append an entry of command `c`. -/
def State.jnlCode (s : State) (c : Cmd) (kind : EntryKind) (code summary : Nat) : State :=
  { s with jnl := s.jnl.append (c.entry (s.jnl.last + 1) kind code summary) }

def State.jnlEntry (s : State) (c : Cmd) (kind : EntryKind) (status : Status) (summary : Nat) : State := s.jnlCode c kind status.code summary

/-- Rewrite every failing copy of a slot from the good one (R489). -/
def Journal.repair (j : Journal) (k : Nat) (w : W256) : Journal :=
  let fix (m : List (Nat × Twin W256)) := m.map fun e => if e.1 = k ∧ !twinOk e.2 then (k, Twin.both w) else e
  { j with mirror := fix j.mirror, copy1 := fix j.copy1, copy2 := fix j.copy2 }

/-- Read one entry by JSEQ (R489): a failing entry reads as KIND 15 with TWIN_MISMATCH. (DEDUCED, log 33; DEDUCED, log 51) -/
def State.jnlRead (s : State) (jseq : Nat) : State × W256 :=
  match s.jnl.readSlot (jseq % ringSlots) with
  | (some w, 0) => (s, w)
  | (some w, n + 1) =>
    let s := ({ s with jnl := s.jnl.repair (jseq % ringSlots) w }.count Reg.jnlRepairs (n + 1)).twinFound (n + 1)
    ((List.replicate (n + 1) (hubEvent .twinRepaired s.counter [])).foldl State.twinRestored s, w)
  | (none, 0) => (s, entryWord jseq 0 15 0 0 0 0 0 false Status.twinMismatch.code 0)
  | (none, n + 1) => (s.twinFound (n + 1), entryWord jseq 0 15 0 0 0 0 0 false Status.twinMismatch.code 0)

/-- Every entry of the ring read once, as the duplicate check does (R452, R489): failing copies are rewritten and counted. -/
def State.checkRing (s : State) : State :=
  let j := s.jnl
  let m := if j.svc.testBit 0 then j.mirror else if j.svc.testBit 1 then j.copy1 else j.copy2
  m.foldl (fun s e => (s.jnlRead e.1).1) s

/-! Queues (R469). -/

def State.queueOf (s : State) (c : Cmd) : CmdQueue :=
  if c.mgmt then s.mgmt else (s.partition c.part).queues.getD c.queue CmdQueue.reset

def State.setQueue (s : State) (c : Cmd) (q : CmdQueue) : State :=
  if c.mgmt then { s with mgmt := q }
  else s.modPart c.part fun p => { p with queues := modifyAt p.queues c.queue fun _ => q }

/-- Every queue's commands. -/
def State.allCmds (s : State) : List Cmd :=
  s.mgmt.cmds ++ s.parts.flatMap fun p => p.queues.flatMap fun q => q.cmds

/-- A command is final once it is not outstanding (R469, R491). -/
def State.isFinal (s : State) (jseq : Nat) : Bool := !(s.jnl.outstanding.any fun e => e.1 == jseq)

/-- The accepted command `jseq` of a family and operation, when it may run: first of its queue, its AFTER command final (R469). -/
def State.runnable (s : State) (family op jseq : Nat) : Option Cmd :=
  match s.allCmds.find? fun c => c.jseq == jseq with
  | none => none
  | some c =>
    if c.family = family ∧ c.op = op ∧ ((s.queueOf c).cmds.head?.map (·.jseq)) = some jseq
        ∧ (c.after = 0 ∨ s.isFinal c.after) then some c else none

/-- STARTED, or RESTARTED after a warm reset (R488, R493). -/
def State.start (s : State) (c : Cmd) : State :=
  if c.started then s
  else
    let q := s.queueOf c
    (s.jnlEntry c (if c.restart then .restarted else .started) .ok c.summary).setQueue c
      { q with cmds := q.cmds.map fun d => if d.jseq = c.jseq then { d with started := true } else d }

/-- A NOTIFY frame with the sequence number and the completion record, while the session that sent the command is open (R453, R473). -/
def State.notifyDone (s : State) (c : Cmd) (status : Status) (rec : List Byte) : State :=
  let x := s.session c.sess
  if c.notify ∧ x.isOpen ∧ x.gen = c.sessGen then s.sendS c.sess 0x12 0 c.reqId status.code (leBytes 8 c.jseq ++ rec)
  else s

/-- A command becomes final: its entry, its completion record among the last 256 of the queue (R492), the NOTIFY. -/
def State.finish (s : State) (c : Cmd) (kind : EntryKind) (status : Status) (summary : Nat) (rec : List Byte) : State :=
  let s := s.jnlEntry c kind status summary
  let q := s.queueOf c
  let s := s.setQueue c
    { q with cmds := q.cmds.filter fun d => d.jseq != c.jseq, lastFinal := s.jnl.last
             results := ((c.jseq, rec) :: q.results).take 256 }
  let s := { s with jnl := { s.jnl with outstanding := s.jnl.outstanding.filter fun e => e.1 != c.jseq } }
  s.notifyDone c status rec

/-- COMPLETED with a status and no completion record of its own. (DEDUCED, log 24) -/
def State.complete (s : State) (c : Cmd) (status : Status) : State := s.finish c .completed status 0 []

/-- ABANDONED (R476, R493): final without completing, so it leaves no completion record and sends no NOTIFY (R470, R492). (DEDUCED, log 24) -/
def State.abandon (s : State) (c : Cmd) : State :=
  let s := s.jnlEntry c .abandoned .commandAbandoned c.summary
  let q := s.queueOf c
  let s := s.setQueue c { q with cmds := q.cmds.filter fun d => d.jseq != c.jseq, lastFinal := s.jnl.last }
  { s with jnl := { s.jnl with outstanding := s.jnl.outstanding.filter fun e => e.1 != c.jseq } }

/-- Run a queued command when it is its turn: nothing happens otherwise, it waits. (DEDUCED, log 5) -/
def State.runQueued (s : State) (family op jseq : Nat) (f : Cmd → State → State) : State :=
  if !s.up then s
  else
    match s.runnable family op jseq with
    | none => s
    | some c => f c (s.start c)

end Sys2Proof.Machine
end

