-- ==== Sys2Proof/Machine/Records.lean ====
section
/-! DEFINITION. Sys2Proof/Machine/Records.lean: what the configuration flash holds (spec/14): its layout, the test record and voltage table, the
spare map, the configuration record with its checks and its migration, and the rail voltages (spec/18 R528, R529). -/

namespace Sys2Proof.Machine

open Sys2Proof

/-! Layout (R409). -/

def flPointer : Nat := 0x00000
def flConfig : Nat := 0x10000
def flStaged : Nat := 0x20000
def flIdentity : Nat := 0x30000
def flFloor : Nat := 0x40000
def flTest : Nat := 0x50000
def flImage : Nat := 0x1000000
def flLifetime : Nat := 0x9000000

/-- The device of a copy: copy 0 on device 0, copy 1 on device 1 (R409). -/
def State.flash (s : State) (copy : Bool) : List (Nat × Byte) := if copy then s.flash1 else s.flash0

def State.setFlash (s : State) (copy : Bool) (f : List (Nat × Byte)) : State :=
  if copy then { s with flash1 := f } else { s with flash0 := f }

/-- Bytes of a copy rewritten: its sectors erased first, then the bytes in order, checking fields last within them (R410). -/
def State.putFlash (s : State) (copy : Bool) (off len : Nat) (bs : List Byte) : State :=
  s.setFlash copy (flashWrite (flashErase (s.flash copy) off len) off bs)

/-! The test record (R411 to R413). -/

def testLen : Nat := 76800

/-- Bytes of the test record in use. -/
def State.testRead (s : State) (off n : Nat) : List Byte := flashRead (s.flash s.boot.testCopy) (flTest + off) n

/-- A copy passes R412: magic, layout version, the signature under the test key, the serial number of the identity. -/
def testCopyOk (f : List (Nat × Byte)) (n e : Nat) (serial : List Byte) : Bool :=
  let body := flashRead f flTest 0x12A00
  leNat (body.take 4) == 0x59575452 && leAt body 4 2 == 1 && slice body 8 16 == serial
    && pssVerify n e body (flashRead f (flTest + 0x12A00) 512)

/-- Voltage table entry of island i at point p (R413): BASE, GSTEP, GCOUNT. -/
def State.voltEntry (s : State) (i p : Nat) : Nat × Nat × Nat :=
  let w := leNat (s.testRead (0x100 + 2 * (8 * i + p)) 2)
  (bitsOf w 15 8, bitsOf w 7 5, bitsOf w 4 2)

/-- Guard steps in use of an island at a point: min(GCOUNT, ⌊w/32⌋) (R529). -/
def State.guardAt (s : State) (i p : Nat) : Nat :=
  min (s.voltEntry i p).2.2 ((s.power.islands.getD i Island.reset).wear / 32)

/-- The highest point an island holds: points whose GCOUNT lies below ⌊w/32⌋ are withdrawn (R529). -/
def State.highestPoint (s : State) (i : Nat) : Nat :=
  let w := (s.power.islands.getD i Island.reset).wear / 32
  ((List.range 8).filter fun p => decide (w ≤ (s.voltEntry i p).2.2)).foldl max 0

/-- Voltage that an island needs at a point, in units of 2.5 mV (R528). -/
def State.islandVolt (s : State) (i p : Nat) : Nat :=
  let (b, g, _) := s.voltEntry i p
  220 + b + s.guardAt i p * (g + 1)

/-- The voltage that `n` islands from island `i` on need at a point, in mV (R528): the largest over them. -/
def State.voltMv (s : State) (i n p : Nat) : Nat := 5 * ((List.range n).map fun j => s.islandVolt (i + j) p).foldl max 0 / 2

/-- Voltage of tile t's core rail, in mV (R528). -/
def State.railMv (s : State) (t : Nat) : Nat :=
  let r := s.power.rails.getD t Rail.reset
  if r.on then s.voltMv (60 * t) 40 r.point else 0

/-- Array clock of a point, in units of 10 MHz (R413). -/
def pointClock (p : Nat) : Nat := [75, 85, 95, 105, 115, 125, 133, 140].getD p 75

/-- A rail's clock after stretching, never below 0.75 GHz (R530), in units of 10 MHz. -/
def Rail.clock (r : Rail) : Nat := max 75 (pointClock r.point * (100 - r.stretchPct) / 100)

/-- Mean of the samples of the sliding 2 µs window (R530). -/
def Rail.mean (r : Rail) : Nat := if r.samples.isEmpty then 0 else r.samples.sum / r.samples.length

/-- An island of tile t's core rail is throttled (R533). -/
def State.railThrottled (s : State) (t : Nat) : Bool :=
  (List.range 40).any fun j => (s.power.islands.getD (60 * t + j) Island.reset).throttled

/-- The rail status word (R546). -/
def State.railStatus (s : State) (t : Nat) : Nat :=
  let r := s.power.rails.getD t Rail.reset
  putBits 63 52 r.mean + putBits 51 42 (s.railMv t) + putBits 41 39 r.point + putBits 38 31 r.clock
    + putBits 30 30 (b2n (decide (0 < r.stretchPct))) + putBits 29 29 (b2n (decide (5 < r.point)))
    + putBits 28 28 (b2n r.tripI) + putBits 27 27 (b2n r.tripT) + putBits 26 26 (b2n (s.railThrottled t))

/-! The spare map (R414). -/

def SpareMap.tileEntry (m : SpareMap) (t : Nat) : List Byte :=
  leBytes 1 (b2n (m.tileIsolated.testBit t))
    ++ leBytes 4 (((List.range 8).map fun c => putBits (4 * c + 3) (4 * c) (m.clusters.getD (8 * t + c) 0)).sum)
    ++ ((List.range 8).flatMap fun c =>
      leBytes 6 (((List.range 12).map fun k => putBits (4 * k + 3) (4 * k) (m.cores.getD (96 * t + 12 * c + k) 0xF)).sum))
    ++ zeros 11

/-- The 704 bytes of a map. -/
def SpareMap.bytes (m : SpareMap) : List Byte :=
  ((List.range 10).flatMap m.tileEntry)
    ++ leBytes 2 (((List.range 4).map fun i => putBits (3 * i + 2) (3 * i) (m.mgmt.getD i 0)).sum) ++ zeros 62

def parseSpareMap (bs : List Byte) : SpareMap :=
  { tileIsolated := ((List.range 10).map fun t => if leAt bs (64 * t) 1 = 1 then 2 ^ t else 0).sum
    clusters := (List.range 80).map fun i =>
      bitsOf (leAt bs (64 * (i / 8) + 1) 4) (4 * (i % 8) + 3) (4 * (i % 8))
    cores := (List.range 960).map fun i =>
      let k := i % 12
      bitsOf (leAt bs (64 * (i / 96) + 5 + 6 * (i / 12 % 8)) 6) (4 * k + 3) (4 * k)
    mgmt := (List.range 4).map fun i => bitsOf (leAt bs 640 2) (3 * i + 2) (3 * i) }

/-! The configuration record (R417 to R424). -/

def parseEntry (w : Nat) : CfgEntry := ⟨bitsOf w 127 120, bitsOf w 119 96, BitVec.ofNat 64 (bitsOf w 63 0)⟩

def CfgEntry.word (e : CfgEntry) : Nat := putBits 127 120 e.block + putBits 119 96 e.off + e.value.toNat

def CfgEntry.key (e : CfgEntry) : Nat := regKey e.block e.off

/-- The record's own fields, MAC aside: MAGIC, ENTRIES and BODY_CRC (R421, R424). -/
def parseCfg (bs : List Byte) : Option CfgRec :=
  let h := leNat (bs.take 64)
  let n := bitsOf h 463 448
  if bitsOf h 511 480 = 0x59574352 ∧ n ≤ 252 ∧ 64 + 16 * n ≤ bs.length
      ∧ bitsOf h 415 384 = (crc32 (slice bs 64 (16 * n))).toNat then
    some { ver := bitsOf h 479 464, gen := bitsOf h 447 416, target := slice bs 32 16
           entries := (List.range n).map fun i => parseEntry (leAt bs (64 + 16 * i) 16) }
  else none

/-- The MAC of a record's bytes: over the header with MAC as 0 and the entries (R417). -/
def cfgMac (key bs : List Byte) : List Byte :=
  let n := bitsOf (leNat (bs.take 64)) 463 448
  hmac256 key (zeros 32 ++ slice bs 32 (32 + 16 * n))

/-- A copy checks: MAGIC, ENTRIES, BODY_CRC and MAC (R421). -/
def cfgChecks (key bs : List Byte) : Option CfgRec :=
  match parseCfg bs with
  | some r => if bs.take 32 = cfgMac key bs then some r else none
  | none => none

/-- The 4096 bytes of a record with its MAC. -/
def CfgRec.bytes (key : List Byte) (r : CfgRec) : List Byte :=
  let es := r.entries.flatMap fun e => leBytes 16 e.word
  let hi := putBits 511 480 0x59574352 + putBits 479 464 r.ver + putBits 463 448 r.entries.length
    + putBits 447 416 r.gen + putBits 415 384 (crc32 es).toNat
  let body := zeros 32 ++ padTo 16 r.target ++ (leBytes 64 hi).drop 48 ++ es
  let bs := cfgMac key body ++ body.drop 32
  padTo 4096 bs

/-- The record version that firmware of this generation reads (R422). -/
def fwRecVer : Nat := 3

/-- Registers that a version does not know (R422). -/
def verKnows (ver key : Nat) : Bool := decide (2 ≤ ver) || !(key == Reg.cfgBypassPolicy || key == Reg.cfgAxisEnable)

/-- A value lies in its register's range, in the record's own version (R420, R424). -/
def verInRange (ver key v : Nat) : Bool :=
  if key = Reg.bntSealTimeout ∧ ver < 3 then decide (10 ≤ v ∧ v ≤ 6000) else regInRange key v

/-- Two override entries name one code (R590). -/
def overrideClash (ws : List Nat) : Bool :=
  let cs := (ws.map fun w => bitsOf w 31 16).filter (· != 0)
  cs.length != cs.eraseDups.length

/-- The coordinate and extent words obey R424: COORD below EXTENT on every axis, at most 4096 modules (R33). -/
def torusOk (coord extent : Nat) : Bool :=
  let ax := [0, 8, 16, 24]
  (ax.all fun i => decide (bitsOf coord (i + 4) i < bitsOf extent (i + 5) i))
    && decide ((ax.map fun i => bitsOf extent (i + 5) i).foldl (· * ·) 1 ≤ 4096)

/-- The value a record gives a register, or its reset value. (DEDUCED, log 28) -/
def CfgRec.value (r : CfgRec) (key : Nat) : Nat :=
  match r.entries.find? fun e => e.key == key with
  | some e => e.value.toNat
  | none => (regReset key).toNat

/-- Every entry obeys R420. -/
def CfgRec.entriesOk (r : CfgRec) : Bool :=
  (r.entries.all fun e =>
    match regRow e.block e.off with
    | some row => (row.access == .rwl || row.access == .rw) && e.off % 8 == 0 && verKnows r.ver e.key
        && verInRange r.ver e.key e.value.toNat
    | none => false)
  && (r.entries.map CfgEntry.key).eraseDups.length == r.entries.length
  && !overrideClash ((r.entries.filter fun e =>
      decide (Reg.evtRateOverride ≤ e.key ∧ e.key < Reg.evtRateOverride + 256)).map fun e => e.value.toNat)
  && torusOk (r.value Reg.cfgTorusCoord) (r.value Reg.cfgTorusExtent)
  && r.value Reg.cmpCtrlPort != r.value Reg.cmpIngestPort

/-- Migration up to the firmware's record version (R422, R423): the record and the number of entries dropped. -/
def CfgRec.migrate (r : CfgRec) (fw : Nat) : CfgRec × Nat :=
  if 3 ≤ r.ver ∨ fw < 3 then ({ r with ver := max r.ver fw }, 0)
  else
    let es := r.entries.filterMap fun e =>
      if e.key = Reg.bntSealTimeout then
        (let v := 10 * e.value.toNat
         if 100 ≤ v ∧ v ≤ 60000 then some { e with value := BitVec.ofNat 64 v } else none)
      else some e
    ({ r with ver := fw, entries := es }, r.entries.length - es.length)

/-! The slot pointer and the image headers (R597, R601). -/

/-- A copy of the slot pointer that checks: generation and slot (false A, true B). -/
def pointerCopy (f : List (Nat × Byte)) : Option (Nat × Bool) :=
  let bs := flashRead f flPointer 64
  if leNat (bs.take 4) = 0x59575054 ∧ leAt bs 60 4 = (crc32 (bs.take 60)).toNat then
    some (leAt bs 4 4, leAt bs 8 1 == 1)
  else none

/-- The pointer in force: the checking copy with the higher generation, copy 0 on equal ones; generation 0 naming slot A where neither
checks. -/
def State.pointer (s : State) : Nat × Bool :=
  match pointerCopy s.flash0, pointerCopy s.flash1 with
  | some a, some b => if a.1 < b.1 then b else a
  | some a, none => a
  | none, some b => b
  | none, none => (0, false)

/-- Image bytes of a slot: A on device 0, B on device 1 (R409). -/
def State.imageRead (s : State) (slot : Bool) (off n : Nat) : List Byte := flashRead (s.flash slot) (flImage + off) n

/-- REC_VER_FW of a header (R597). -/
def headerRecVer (h : List Byte) : Nat := leAt h 0xC 2

/-- CFG_REC_VER_FW: the running image's, 3 before one runs (R422, R428). -/
def State.recVerFw (s : State) : Nat := if s.upd.runHeader.isEmpty then fwRecVer else headerRecVer s.upd.runHeader

/-- The record version of the firmware that the slot pointer names for the next start (R424). (DEDUCED, log 28) -/
def State.nextRecVer (s : State) : Nat := headerRecVer (s.imageRead s.pointer.2 0 4096)

/-- A configuration copy, and the staged one, when it checks. -/
def State.cfgCopy (s : State) (copy : Bool) : Option CfgRec :=
  cfgChecks s.sec.recKey (flashRead (s.flash copy) flConfig 4096)

def State.cfgStaged (s : State) : Option CfgRec := cfgChecks s.sec.recKey (flashRead s.flash0 flStaged 4096)

/-- A value as a register holds it: its reserved bits do not stay (R9). -/
def maskedValue (key v : Nat) : Nat :=
  match regRow (key / 2 ^ 24) (key % 2 ^ 24) with
  | some row => v &&& row.mask
  | none => v

/-- Applying the record changes a COLD register (R425). -/
def State.stagedCold (s : State) (r : CfgRec) : Bool :=
  let m := (r.migrate s.nextRecVer).1
  [Reg.cfgSpillDefault, Reg.cfgGatherSize, Reg.cfgTorusCoord, Reg.cfgTorusExtent, Reg.cfgTileDisable].any fun k =>
    maskedValue k (m.value k) != s.reg k

/-- CFG_STAGED_STATE (R428): 0 NONE, 1 STAGED, 2 STAGED_COLD. -/
def State.stagedState (s : State) : Nat :=
  match s.cfgStaged with
  | none => 0
  | some r => if s.stagedCold r then 2 else 1

/-- The defaults state (R421). -/
def State.defaults (s : State) : Bool :=
  decide (s.boot.status = .defaultsNone ∨ s.boot.status = .defaultsTooNew ∨ s.boot.status = .defaultsSerial)

/-- A record's values take effect: every RWL and RW register at its value or its reset value; counters stay (R420, R421). -/
def applyCfg (regs : List (Nat × W64)) (r : Option CfgRec) : List (Nat × W64) :=
  let keep := regs.filter fun e =>
    match regRow (e.1 / 2 ^ 24) (e.1 % 2 ^ 24) with
    | some row => !(row.access == .rwl || row.access == .rw)
    | none => true
  match r with
  | none => keep
  | some r => r.entries.foldl
      (fun m e =>
        match regRow e.block e.off with
        | some row => regSet m e.key (BitVec.ofNat 64 (e.value.toNat &&& row.mask))
        | none => m)
      keep

end Sys2Proof.Machine
end

