-- ==== Sys2Proof/Machine/RegView.lean ====
section
/-! DEFINITION. Sys2Proof/Machine/RegView.lean: what a read of each register returns. Registers with state of their own (RWL, RW and the RC
counters) are stored words; the rest are views of State, computed here block by block (the chapters' block tables). -/

namespace Sys2Proof.Machine

open Sys2Proof

/-- Word i of a structure wider than 64 bits (R636). -/
def wordAt (w i : Nat) : Nat := bitsOf w (64 * i + 63) (64 * i)

/-- Word i of a byte string (R636). -/
def byteWord (bs : List Byte) (i : Nat) : Nat := leAt bs (8 * i) 8

/-- Two 64-bit words of 16 ASCII bytes, earlier bytes lower. -/
def serialWord (serial : List Byte) (i : Nat) : Nat := leAt (padTo 16 serial) (8 * i) 8

/-! GEO (R30, R31, R359). -/

def State.readGeo (s : State) (off : Nat) : Nat :=
  let full := decide (s.part = .ywbl10)
  if off = 0x00 then
    putBits 23 16 (leNat (s.testRead 7 1)) + (if full then 0x0007 else 0x0100)
  else if off = 0x08 then (if full then 0x000F_0902_040C_080A else 0x000F_0900_040C_080A)
  else if off = 0x10 then (if full then 0x2C00_0C00 else 0)
  else if off = 0x18 then ((List.range 10).map fun t => if s.tileIn t then 2 ^ t else 0).sum
  else if off = 0x20 then s.pins.slot.toNat
  else if off = 0x28 then s.reg Reg.cfgTorusCoord
  else if off = 0x30 then s.reg Reg.cfgTorusExtent
  else if off = 0x38 then 0x0040_00A0_3000_0400
  else if off = 0x40 then s.gatherBase / 2 ^ 20
  else if off = 0x100 then s.fp.toNat
  else if off = 0x108 then s.reg Reg.geoFpChanges
  else if 0x200 ≤ off ∧ off < 0x2A8 then byteWord s.fpInput ((off - 0x200) / 8)
  else if 0x400 ≤ off ∧ off < 0x440 then (s.partition ((off - 0x400) / 8)).view.toNat
  else if 0x500 ≤ off ∧ off < 0x580 then
    let p := s.partition ((off - 0x500) / 16)
    if (off - 0x500) % 16 = 0 then p.origin.toNat + 2 ^ 32 * p.extent.toNat else p.coord.toNat
  else 0

/-! CFG (R428). -/

def CfgStatus.code : CfgStatus → Nat
  | .record => 0
  | .migrated => 1
  | .defaultsNone => 2
  | .defaultsTooNew => 3
  | .defaultsSerial => 4

def State.readCfg (s : State) (off : Nat) : Nat :=
  if off = 0x00 then s.recVerFw
  else if off = 0x08 then s.boot.recVerActive
  else if off = 0x10 then s.boot.recGen
  else if off = 0x18 then s.boot.status.code
  else if off = 0x20 then s.stagedState
  else if off = 0x28 then s.boot.bootCount.toNat
  else if off = 0x30 then s.boot.cause
  else if off = 0x38 then s.boot.step
  else if 0x40 ≤ off ∧ off < 0x98 then s.boot.stepTimes.getD ((off - 0x40) / 8) 0
  else s.reg (regKey 0x02 off)

/-! PWR and THM (R545 to R547). -/

def PowerState.code : PowerState → Nat
  | .full => 0
  | .hold => 1
  | .park => 2
  | .dormant => 3
  | .off => 4

/-- A temperature in 1/16 °C as a signed 16-bit value (R547). -/
def temp16 (t : Int) : Nat := (BitVec.ofInt 16 t).toNat

def Power.tripWord (p : Power) : Nat :=
  (p.rails.zipIdx.map fun (r, t) => b2n r.tripI * 2 ^ t + b2n r.tripT * 2 ^ (16 + t)).sum

/-- A partition's energy is the sum of its queues' (R543). -/
def Power.ePart (p : Power) (i : Nat) : W64 := ((List.range 8).map fun q => p.eQueue.getD (8 * i + q) 0).foldl (· + ·) 0

/-- Bytes of a per-island list, eight to a word. -/
def packBytes (l : List Nat) (i : Nat) : Nat := leNat (((l.drop (8 * i)).take 8).map fun n => BitVec.ofNat 8 n)

def State.readPwr (s : State) (off : Nat) : Nat :=
  let p := s.power
  if off = 0x00 then 0x34BC_0640_0000_0805
  else if off = 0x08 then p.state.code + putBits 5 3 p.target.code + putBits 8 8 (b2n p.moving)
  else if off = 0x28 then p.tripWord
  else if off = 0x30 then
    putBits 55 32 s.readings.pinW + putBits 31 16 s.readings.vinMv + putBits 15 0 s.readings.iinDa
  else if off = 0x38 then p.eIn.toNat
  else if off = 0x40 then p.eShared.toNat
  else if off = 0x48 then p.eOverhead.toNat
  else if off = 0x50 then p.eTime
  else if 0x100 ≤ off ∧ off < 0x140 then (p.ePart ((off - 0x100) / 8)).toNat
  else if 0x200 ≤ off ∧ off < 0x400 then (p.eQueue.getD ((off - 0x200) / 8) 0).toNat
  else if 0x400 ≤ off ∧ off < 0x450 then s.railStatus ((off - 0x400) / 8)
  else if 0x800 ≤ off ∧ off < 0xA68 then
    packBytes (p.islands.map fun i => i.guard + 16 * i.highest) ((off - 0x800) / 8)
  else s.reg (regKey 0x03 off)

/-- The hottest island: index and temperature, the lowest index on ties. -/
def hottest (is : List Island) : Nat × Int :=
  (is.zipIdx.foldl (fun (b : Option (Nat × Int)) (i, k) =>
    match b with
    | some (j, t) => if t < i.temp then some (k, i.temp) else some (j, t)
    | none => some (k, i.temp)) none).getD (0, 0)

def State.readThm (s : State) (off : Nat) : Nat :=
  let p := s.power
  if off = 0x00 then 0x0264_6973
  else if off = 0x08 then (let (i, t) := hottest p.islands; putBits 25 16 i + temp16 t)
  else if off = 0x10 then 2 ^ 16 * temp16 s.readings.outletT + temp16 s.readings.inletT
  else if off = 0x18 then (p.islands.filter (·.throttled)).length
  else if off = 0x30 then (p.stackList.zipIdx.map fun (x, k) => b2n x.paced * 2 ^ k).sum
  else if 0x100 ≤ off ∧ off < 0x5C8 then
    let i := 4 * ((off - 0x100) / 8)
    (((p.islands.drop i).take 4).zipIdx.map fun (x, k) => temp16 x.temp * 2 ^ (16 * k)).sum
  else if 0x600 ≤ off ∧ off < 0x6A0 then temp16 ((p.stackList.getD ((off - 0x600) / 8) ⟨0, false, 0⟩).temp)
  else s.reg (regKey 0x04 off)

/-! EVT (R590) and the spill area's records (R582). -/

/-- A spill slot whose trailer checks: its part byte and the 992 bytes. -/
def spillSlotAt (f : List (Nat × Byte)) (k : Nat) : Option (Nat × List Byte) :=
  let base := spillBase + 1024 * k
  if leNat (flashRead f (base + 992) 4) = 0x59575350 then
    let body := flashRead f base 992
    if leNat (flashRead f (base + 996) 4) = (crc32 body).toNat then some (leNat (flashRead f (base + 1000) 1), body) else none
  else none

/-- Bytes of a record, from its LENGTH (R573). -/
def recLen (bs : List Byte) : Nat := 32 * bitsOf (leNat (bs.take 32)) 55 48

def recSeq (bs : List Byte) : Nat := bitsOf (leNat (bs.take 32)) 191 128

/-- The readable spilled records, oldest first: slots in the order of writing, two-slot records joined. -/
def spillRecords (f : List (Nat × Byte)) (next : Nat) : List (List Byte) :=
  (List.range 16384).filterMap fun i =>
    let k := (next + i) % 16384
    match spillSlotAt f k with
    | some (0, b) => some (b.take (recLen b))
    | some (1, b) =>
      match spillSlotAt f ((k + 1) % 16384) with
      | some (2, b') => some ((b ++ b').take (recLen b))
      | _ => none
    | _ => none

def State.spilled (s : State) : List (List Byte) := spillRecords s.flash0 s.tansy.spillNext

/-- The slot after the newest spilled record, where the writer goes on after a loss of power (R582, EVT_SPILL_NEXT of R590). -/
def spillNextOf (f : List (Nat × Byte)) : Nat :=
  let slots := f.filterMap fun (a, _) =>
    if spillBase ≤ a ∧ a < spillBase + 0x1000000 ∧ (a - spillBase) % 1024 = 992 then some ((a - spillBase) / 1024) else none
  let recs : List (Nat × Nat) := slots.filterMap fun k => (spillSlotAt f k).bind fun x =>
    if x.1 = 2 then none else some (recSeq x.2, (k + 1 + x.1) % 16384)
  (recs.foldl (fun (m : Nat × Nat) x => if m.1 ≤ x.1 then x else m) (0, 0)).2

def State.readEvt (s : State) (off : Nat) : Nat :=
  if off = 0x00 then 0x0000_4000_2020_0400
  else if off = 0x08 then s.tansy.oldest.val
  else if off = 0x10 then s.tansy.next
  else if off = 0x18 then s.tansy.era
  else if off = 0x20 then s.tansy.fatalUnread
  else if off = 0x50 then ((s.spilled.head?.map recSeq).getD 0)
  else if off = 0x58 then s.tansy.spillNext
  else s.reg (regKey 0x05 off)

/-! POL (R303, R304, R289). -/

def OwnerKind.code : OwnerKind → Nat
  | .partition => 0
  | .queue => 1
  | .stream => 2
  | .bucket => 3

def Pool.word (p : Pool) : Nat :=
  putBits 255 208 p.base + putBits 207 205 p.cls + putBits 204 202 p.part + putBits 201 201 1
    + putBits 200 200 (b2n p.region) + putBits 191 169 p.count + putBits 159 137 p.free.val
    + putBits 127 105 p.reserve.val + putBits 95 73 p.lowWater + putBits 63 32 p.emptyEvents + putBits 31 0 p.fallbacks

def Owner.word (o : Owner) : Nat :=
  putBits 127 125 o.kind.code + putBits 124 122 o.part + putBits 121 116 o.pool + putBits 115 113 o.fallback
    + putBits 112 112 1 + putBits 111 90 o.min + putBits 89 68 o.max + o.ref.toNat

def State.readPol (s : State) (off : Nat) : Nat :=
  if off = 0x00 then 0x1000_0400_4006
  else if off = 0x38 then (s.vetch.map fun v => (v.shares.filter fun e => e.2.val.freePending).length).sum
  else if 0x1000 ≤ off ∧ off < 0x6000 then
    let k := (off - 0x1000) / 32
    match (s.vetchOf (k / 64)).pool (k % 64) with
    | some p => wordAt p.word ((off - 0x1000) % 32 / 8)
    | none => 0
  else if 0x8000 ≤ off then
    let k := (off - 0x8000) / 16
    match (s.vetchOf (k / 1024)).owner (k % 1024) with
    | some o => wordAt o.val.word ((off - 0x8000) % 16 / 8)
    | none => 0
  else s.reg (regKey 0x06 off)

/-! LNK (R519, R520). -/

def PortState.code : PortState → Nat
  | .disabled => 0
  | .noCable => 1
  | .cableFault => 2
  | .loop => 3
  | .held => 4
  | .training => 5
  | .up => 6
  | .retraining => 7
  | .down => 8
  | .miswired => 9
  | .bypassed => 10

/-- The physical lanes in service. -/
def Port.laneUse (p : Port) : Nat := (p.lanes.map (2 ^ ·)).sum

def Port.stateWord (p : Port) : Nat :=
  putBits 63 60 p.state.code + putBits 59 58 p.rate + putBits 57 57 (b2n p.half) + putBits 56 55 p.skip
    + putBits 54 54 (b2n p.spared) + putBits 47 28 p.peer.toNat

def State.readLnk (s : State) (off : Nat) : Nat :=
  if off = 0x00 then 0x0812_104C
  else if off = 0x08 then
    (s.links.axes.zipIdx.map fun (a, k) =>
      (b2n a.through + 2 * b2n a.loopPassed + 4 * b2n a.trained + 8 * b2n a.held) * 2 ^ (4 * k)).sum
  else if off = 0x10 then (s.links.axes.zipIdx.map fun (a, k) => b2n a.held * 2 ^ k).sum
  else if 0x100 ≤ off ∧ off < 0x500 then
    let p := s.links.ports.getD ((off - 0x100) / 0x80) Port.reset
    let o := (off - 0x100) % 0x80
    if o = 0x00 then p.stateWord
    else if o = 0x08 then putBits 17 0 p.laneUse + putBits 35 18 p.laneSpare + putBits 53 36 p.laneFailed
    else if o = 0x40 then p.cable
    else if o = 0x48 then serialWord p.peerSerial 0
    else if o = 0x50 then serialWord p.peerSerial 1
    else s.reg (regKey 0x07 off)
  else s.reg (regKey 0x07 off)

/-! ETH and CMP (R462 to R464, R454). -/

/-- MAC address of a port, from the test record (R411): its first byte in bits [47:40]. -/
def State.mac (s : State) (port : Nat) : Nat := beNat (s.testRead (0x20 + 6 * port) 6)

def State.readEth (s : State) (off : Nat) : Nat :=
  let port := if 0x110 ≤ off then 1 else 0
  let o := if 0x110 ≤ off then off - 0x100 else off
  let e := s.eth.getD port EthPort.reset
  if off = 0x00 then 0x2400_0207
  else if o = 0x18 then s.mac port
  else if o = 0x70 then
    b2n e.up + putBits 2 1 (bitsOf (s.reg (Reg.ethPortCtrl + 0x100 * port)) 2 1) + putBits 3 3 (b2n e.fecAligned)
      + putBits 4 4 (b2n e.plugged)
  else s.reg (regKey 0x08 off)

/-- A session record (R464). -/
def Session.word (x : Session) (i : Nat) : Nat :=
  if !x.isOpen then 0
  else
    putBits 511 508 i + putBits 507 507 1 + putBits 506 503 x.slot + putBits 502 487 x.gen + putBits 486 486 (b2n x.peer.ipv6)
      + putBits 485 485 x.port.val + putBits 479 464 x.peerPort.toNat + putBits 463 336 x.peer.bits.toNat
      + putBits 335 288 x.txSeq + putBits 287 240 x.txAcked + putBits 239 192 x.rxNext + putBits 191 176 x.unacked.length
      + putBits 175 144 x.retrans + putBits 143 80 x.openTime

/-- A stream record; TOKEN reads as 0 (R454). -/
def Stream.word (x : Stream) (j : Nat) : Nat :=
  putBits 511 502 j + putBits 501 499 x.part + putBits 498 495 x.tile + putBits 494 494 (b2n x.isOpen)
    + putBits 493 493 (b2n x.src.ipv6) + putBits 479 464 x.srcPort.toNat + putBits 463 336 x.src.bits.toNat
    + putBits 271 224 x.ringBase + putBits 223 220 x.ringLog2 + putBits 219 210 x.owner + putBits 209 162 x.nextSeq
    + putBits 161 98 x.nextSample + putBits 97 34 x.limit

def State.stream (s : State) (j : Nat) : Option Stream := (s.cmp.streams.find? fun e => e.1 == j).map (·.2)

def State.readCmp (s : State) (off : Nat) : Nat :=
  if off = 0x00 then 0x0000_0400_1014_0040
  else if off = 0x38 then (s.cmp.sessions.filter (·.isOpen)).length
  else if off = 0x40 then (s.cmp.streams.filter fun e => e.2.isOpen).length
  else if 0x400 ≤ off ∧ off < 0x800 then
    wordAt ((s.session ((off - 0x400) / 64)).word ((off - 0x400) / 64)) ((off - 0x400) % 64 / 8)
  else if 0x10000 ≤ off then
    match s.stream ((off - 0x10000) / 64) with
    | some x => wordAt (x.word ((off - 0x10000) / 64)) ((off - 0x10000) % 64 / 8)
    -- the reset values of R454: NEXT_SEQ 1, the rest 0
    | none => wordAt (putBits 209 162 1) ((off - 0x10000) % 64 / 8)
  else s.reg (regKey 0x09 off)

/-! JNL (R496). -/

def PartState.code : PartState → Nat
  | .empty => 0
  | .loading => 1
  | .loaded => 2
  | .running => 3
  | .paused => 4
  | .stopping => 5
  | .unloading => 6

def PartKind.code : PartKind → Nat
  | .train => 0
  | .filler => 1
  | .selftest => 2
  | .bringup => 3
  | .recovery => 4

/-- JNL_QUEUE: the last final JSEQ's low half, a command running, commands waiting. (DEDUCED, log 51) -/
def CmdQueue.word (q : CmdQueue) : Nat :=
  putBits 63 32 q.lastFinal + putBits 16 16 (b2n (q.cmds.any (·.started)))
    + putBits 15 0 (q.cmds.filter fun c => !c.started).length

def State.readJnl (s : State) (off : Nat) : Nat :=
  let j := s.jnl
  if off = 0x00 then 0x0000_0014_0100_0040
  else if off = 0x08 then j.era
  else if off = 0x10 then j.first
  else if off = 0x18 then j.last
  else if off = 0x20 then j.outstanding.length
  else if off = 0x28 then putBits 3 0 j.tile1 + putBits 7 4 j.tile2 + putBits 10 8 j.svc
  else if off = 0x40 then (s.parts.zipIdx.map fun (p, k) => p.state.code * 2 ^ (4 * k)).sum
  else if off = 0x48 then
    (s.parts.zipIdx.map fun (p, k) => (if p.state = .empty then 0 else p.kind.code) * 2 ^ (4 * k)).sum
  else if 0x100 ≤ off ∧ off < 0x300 then
    let k := (off - 0x100) / 8
    ((s.partition (k / 8)).queues.getD (k % 8) CmdQueue.reset).word
  else if off = 0x300 then s.mgmt.word
  else s.reg (regKey 0x0A off)

/-! SEC and FWU (R615, R616). -/

/-- The public key in the form of R443: modulus of 512 bytes, exponent of 4, big-endian. -/
def keyForm (modulus exponent : Nat) : List Byte := beBytes 512 modulus ++ beBytes 4 exponent

/-- SEC_STATUS. -/
def State.secStatus (s : State) : Nat :=
  b2n s.sec.identity + putBits 1 1 (b2n s.sec.floorLost) + putBits 2 2 (b2n s.tap.unlocked)
    + putBits 3 3 (b2n (decide (s.boot.phase = .recovery)))

def State.readSec (s : State) (off : Nat) : Nat :=
  if off = 0x00 then 0x0020_1000
  else if off = 0x08 then s.secStatus
  else if off = 0x10 then serialWord s.sec.serial 0
  else if off = 0x18 then serialWord s.sec.serial 1
  else if off = 0x20 then
    (if s.sec.identity then beNat ((sha512 (keyForm s.sec.modulus s.sec.exponent)).take 8) else 0)
  else if off = 0x28 then putBits 31 0 s.sec.floor + putBits 63 32 s.sec.floorGen
  else s.reg (regKey 0x0B off)

/-- A manifest entry of a header (R598): type, version, offset, length, digest. -/
structure ManEntry where
  type : Nat
  ver : Nat
  off : Nat
  len : Nat
  digest : List Byte

def manEntry (h : List Byte) (i : Nat) : ManEntry :=
  let b := 0x100 + 80 * i
  ⟨leAt h b 1, leAt h (b + 4) 4, leAt h (b + 8) 4, leAt h (b + 12) 4, slice h (b + 16) 64⟩

def manifest (h : List Byte) : List ManEntry := (List.range 6).map (manEntry h)

/-- Image version of a header (R597). -/
def headerVer (h : List Byte) : Nat := leAt h 8 4

def State.readFwu (s : State) (off : Nat) : Nat :=
  let u := s.upd
  if off = 0x00 then 0x0006_0080
  else if off = 0x08 then
    (match u.state with
     | .idle => 0
     | .receiving => 1 + putBits 6 4 u.owner
     | .activated => 2 + putBits 6 4 u.owner)
  else if off = 0x10 then u.running + putBits 32 32 (b2n u.runSlot) + putBits 33 33 (b2n u.fallback)
  else if off = 0x18 then u.slotA
  else if off = 0x20 then u.slotB
  else if off = 0x28 then putBits 31 0 s.pointer.1 + putBits 32 32 (b2n s.pointer.2)
  else if off = 0x30 then (if u.state = .idle then 0 else headerVer u.header)
  else if off = 0x38 then u.bytes
  else if off = 0x40 then u.badPart
  else if 0x100 ≤ off ∧ off < 0x130 then
    (((manifest u.runHeader).find? fun e => e.type == (off - 0x100) / 8 + 1).map (·.ver)).getD 0
  else s.reg (regKey 0x0C off)

/-! LIF (R570, R571). -/

def UnitState.code : UnitState → Nat
  | .inService => 0
  | .spare => 1
  | .suspect => 2
  | .failed => 3

def UnitSt.byte (u : UnitSt) : Nat := u.state.code + 4 * (u.suspicion % 4) + 16 * b2n u.worn

def Build.code : Build → Nat
  | .idle => 0
  | .building => 1
  | .ready => 2

/-- Spare use of tile n, 8 bytes (R567). -/
def Lifetime.useBytes (l : Lifetime) (n : Nat) : List Byte :=
  leBytes 2 (l.useCores.getD n 0) ++ leBytes 1 (l.useClusters.getD n 0) ++ leBytes 1 (l.usePcs.getD n 0)
    ++ leBytes 2 (l.useRows.getD n 0) ++ leBytes 2 (l.useCols.getD n 0)

/-- The UTC estimate of a counter value: from the latest pair at or before it; 0 unknown (R569). -/
def Lifetime.utc (l : Lifetime) (t : Nat) : Nat :=
  match l.pairs.find? fun p => decide (p.2 ≤ t) with
  | some (u, c) => u + (t - c)
  | none => 0

def State.readLif (s : State) (off : Nat) : Nat :=
  let l := s.lif
  if off = 0x00 then 0x8001
  else if off = 0x08 then l.powerOn + (s.counter - l.powerOnAt) / 1000000000
  else if off = 0x10 then l.writeSeq
  else if off = 0x18 then l.lastWrite
  else if off = 0x28 then l.spareGen
  else if off = 0x30 then (if l.spareBuild = .idle then 0 else l.spareGen + 1)
  else if off = 0x38 then l.repairGen
  else if off = 0x40 then (if l.repairBuild = .idle then 0 else l.repairGen + 1)
  else if off = 0x48 then l.spareBuild.code + 4 * l.repairBuild.code
  else if off = 0x70 then l.utc s.counter
  else if 0x100 ≤ off ∧ off < 0x200 then
    let (u, c) := l.pairs.getD ((off - 0x100) / 16) (0, 0)
    if (off - 0x100) % 16 = 0 then u else c
  else if 0x200 ≤ off ∧ off < 0x250 then leNat (l.useBytes ((off - 0x200) / 8))
  else if 0x300 ≤ off ∧ off < 0x5C0 then byteWord l.spareMap.bytes ((off - 0x300) / 8)
  else if 0x600 ≤ off ∧ off < 0x868 then packBytes (s.power.islands.map (·.wear)) ((off - 0x600) / 8)
  else if 0x900 ≤ off ∧ off < 0x1C20 then (s.power.islands.getD ((off - 0x900) / 8) Island.reset).stress
  else if 0x2000 ≤ off ∧ off < 0x2548 then packBytes (l.coreSt.map UnitSt.byte) ((off - 0x2000) / 8)
  else if 0x2600 ≤ off ∧ off < 0x2660 then packBytes (l.clusterSt.map UnitSt.byte) ((off - 0x2600) / 8)
  else s.reg (regKey 0x0D off)

/-! BNT and XPR (R351, R255). -/

def PermState.code : PermState → Nat
  | .idle => 0
  | .fenced => 1
  | .moved => 2

def SealState.code : SealState → Nat
  | .idle => 0
  | .prepared => 1
  | .committed => 2
  | .aborted => 3

def State.readBnt (s : State) (off : Nat) : Nat :=
  let b := s.bnt
  if off = 0x00 then (if s.part = .ywbl10 then 0x1000_1000_1000_0001 else 0x1000_1000_1000_0000)
  else if off = 0x08 then b.defs.length
  else if off = 0x10 then
    (b.runs.filter fun r => !r.done).length + b.gathers.length + (b.exchanges.filter (·.sent)).length
      + (b.sealParts.filter fun q => q.perm == .fenced).length
  else if off = 0x60 then (b.sealParts.zipIdx.map fun (x, p) => (x.activeEpoch % 256) * 2 ^ (8 * p)).sum
  else if off = 0x68 then (b.sealParts.zipIdx.map fun (x, p) => x.perm.code * 2 ^ (4 * p)).sum
  else if off = 0x70 then (b.sealParts.zipIdx.map fun (x, p) => x.sealSt.code * 2 ^ (4 * p)).sum
  else if off = 0x88 then putBits 16 5 b.slowRank + putBits 4 1 b.slowReason + b2n b.slowThrottled
  else if 0x100 ≤ off ∧ off < 0x140 then (s.partition ((off - 0x100) / 8)).lastSealed
  else s.reg (regKey 0x0E off)

def PlaceState.code : PlaceState → Nat
  | .idle => 0
  | .building => 1
  | .ready => 2
  | .confirmed => 3

/-- A placement twin word in a 64-bit register word (R636): the value low, its complement high. -/
def placeWord (t : Twin W32) : Nat := t.val.toNat + 2 ^ 32 * (~~~ t.cmp).toNat

def State.readXpr (s : State) (off : Nat) : Nat :=
  let x := s.xpr
  if off = 0x00 then 0x1000_0404_0100
  else if off = 0x08 then x.genActive
  else if off = 0x10 then x.genPending
  else if off = 0x18 then x.place.code
  else if off = 0x20 then dramAddr 0 biasOffset
  else if off = 0x28 then (x.queues.map List.length).sum
  else if 0x100 ≤ off ∧ off < 0x900 then placeWord ((x.active.getD 10 []).getD ((off - 0x100) / 8) placeEmpty)
  else if 0x900 ≤ off ∧ off < 0x1100 then placeWord ((x.pending.getD 10 []).getD ((off - 0x900) / 8) placeEmpty)
  else s.reg (regKey 0x0F off)

/-- What a register word reads as, RC or not. -/
def State.readReg (s : State) (block off : Nat) : Nat :=
  match block with
  | 0x01 => s.readGeo off
  | 0x02 => s.readCfg off
  | 0x03 => s.readPwr off
  | 0x04 => s.readThm off
  | 0x05 => s.readEvt off
  | 0x06 => s.readPol off
  | 0x07 => s.readLnk off
  | 0x08 => s.readEth off
  | 0x09 => s.readCmp off
  | 0x0A => s.readJnl off
  | 0x0B => s.readSec off
  | 0x0C => s.readFwu off
  | 0x0D => s.readLif off
  | 0x0E => s.readBnt off
  | 0x0F => s.readXpr off
  | _ => 0

end Sys2Proof.Machine
end

