-- ==== Sys2Proof/Machine/Links.lean ====
section
/-! DEFINITION. Sys2Proof/Machine/Links.lean: the operations of the Gystoura ports (spec/17) and of the switch sets (spec/13 R394 to R399): training and the
identity check, codewords with their retry, packets, routes, holds. The commands' meanings are in LinkExec.lean. -/

namespace Sys2Proof.Machine

open Sys2Proof

def State.port (s : State) (i : Nat) : Port := s.links.ports.getD i Port.reset
def State.axis (s : State) (a : Nat) : Axis := s.links.axes.getD a ⟨false, false, false, false⟩

def State.setPort (s : State) (i : Nat) (p : Port) : State :=
  { s with links := { s.links with ports := modifyAt s.links.ports i fun _ => p } }

def State.setAxis (s : State) (a : Nat) (x : Axis) : State :=
  { s with links := { s.links with axes := modifyAt s.links.axes a fun _ => x } }

/-- The tile of a port (R498). -/
def portTile (i : Nat) : Nat := i + 2

/-- A register of port i. -/
def lnkReg (base i : Nat) : Nat := base + 0x80 * i

/-- An event of a port. -/
def State.portEvent (s : State) (st : Status) (i : Nat) (args : List Nat) : State :=
  s.event (tileEvent st s.counter (portTile i) 0xFF args)

/-! Coordinates. -/

/-- Axis a's field of CFG_TORUS_COORD and CFG_TORUS_EXTENT (R428). -/
def coordOf (w a : Nat) : Nat := bitsOf w (8 * a + 4) (8 * a)
def extentOf (w a : Nat) : Nat := bitsOf w (8 * a + 5) (8 * a)

/-- Axis a's field of DST (R504): X highest. -/
def dstOf (w : BitVec 20) (a : Nat) : Nat := bitsOf w.toNat (19 - 5 * a) (15 - 5 * a)

/-- Coordinates in the layout of DST. -/
def dstWord (coord : Nat) : BitVec 20 :=
  BitVec.ofNat 20 (((List.range 4).map fun a => putBits (19 - 5 * a) (15 - 5 * a) (coordOf coord a)).sum)

def State.coord (s : State) : Nat := s.reg Reg.cfgTorusCoord
def State.extent (s : State) : Nat := s.reg Reg.cfgTorusExtent

/-- An axis that start-up trains (R499). -/
def State.axisEnabled (s : State) (a : Nat) : Bool :=
  decide (1 < extentOf s.extent a) && (s.reg Reg.cfgAxisEnable).testBit a

/-- The skip that a neighbour's coordinate shows on port i: (n − c − 1) mod S on the + side, its mirror on the − side (R511). -/
def skipOf (i c n size : Nat) : Nat :=
  if i % 2 = 0 then (n + 2 * size - c - 1) % size else (c + 2 * size - n - 1) % size

/-- The identity check (R511): b when the port may enter UP. -/
def State.identityOk (s : State) (i : Nat) (tr : PortTrain) : Option Nat :=
  let a := i / 2
  let size := extentOf s.extent a
  let b := skipOf i (coordOf s.coord a) (dstOf tr.coord a) size
  if tr.extent.toNat = s.extent ∧ ((List.range 4).all fun x => x == a || dstOf tr.coord x == coordOf s.coord x)
      ∧ (b = 0 ∨ (b ≤ 2 ∧ !tr.fast)) then some b else none

/-- Coordinates on axis a that lie bypassed beside this module (R511). -/
def State.bypassed (s : State) (a n : Nat) : Bool :=
  let size := extentOf s.extent a
  let c := coordOf s.coord a
  [2 * a, 2 * a + 1].any fun i =>
    let p := s.port i
    p.state == .up && (List.range p.skip).any fun k =>
      if i % 2 = 0 then (c + 1 + k) % size == n else (c + 2 * size - 1 - k) % size == n

/-! Cables and lanes (R511, R514). -/

/-- A cable outside R391. -/
def cableBad (w : Nat) : Bool :=
  bitsOf w 7 0 == 1 && (decide (1000 < bitsOf w 23 8) || decide (160 < bitsOf w 31 24))

/-- The lowest n of the good lanes. (DESIGN CHOICE, log 22) -/
def lowestLanes (good n : Nat) : Nat := (((bitsSet good 18).take n).map (2 ^ ·)).sum

/-- The eight lanes taken at half width: the best of the good ones, which the manual leaves to the silicon (R514). (DESIGN CHOICE, log 22) -/
def halfLanes (good : Nat) : Nat :=
  let b := Config.bestLanes good &&& good
  if popcountBelow b 18 = 8 then b % 2 ^ 18 else lowestLanes good 8

/-- Lanes after a training: in service, spares ready, failed, half width; none with fewer than 8 good (R511). -/
def trainLanes (good : Nat) : Option (Nat × Nat × Nat × Bool) :=
  let g := good % 2 ^ 18
  let n := popcountBelow g 18
  if 16 ≤ n then (let u := lowestLanes g 16; some (u, g - u, 2 ^ 18 - 1 - g, false))
  else if 8 ≤ n then (let u := halfLanes g; some (u, 0, 2 ^ 18 - 1 - g, true))
  else none

/-- The payload rate of a port in GB/s per direction (R501). -/
def Port.payloadRate (p : Port) : Nat := if p.state = .up then 25 * p.rate * p.lanes.length / 2 else 0

/-! The code of a codeword (R502). The field, its generator and the order of the symbols are IEEE 802.3's: x^10 + x^3 + 1, the roots α^0 to α^29, the
message symbols first. (PRESUMED, log 64) -/

/-- A product in GF(2^10): `n` bits of `b` still to go. -/
def gfMul : Nat → Nat → Nat → Nat
  | 0, _, _ => 0
  | n + 1, a, b =>
    let d := 2 * a
    Nat.xor (if b % 2 = 1 then a else 0) (gfMul n (if d < 1024 then d else Nat.xor d 0x409) (b / 2))

/-- The generator polynomial's thirty lower coefficients, the highest first. -/
def rsGen : List Nat :=
  ((List.range 30).foldl (fun (e : List Nat × Nat) _ =>
    let (g, r) := e
    ((g ++ [0]).zipWith Nat.xor (0 :: g.map fun c => gfMul 10 c r), gfMul 10 r 2)) ([1], 1)).1.drop 1

/-- The thirty parity symbols of a message. -/
def rsParity (m : List Nat) : List Nat :=
  m.foldl (fun p x =>
    let f := Nat.xor x (p.headD 0)
    (p.drop 1 ++ [0]).zipWith (fun y g => Nat.xor y (gfMul 10 f g)) rsGen) (List.replicate 30 0)

/-- The control field (R503). -/
def Codeword.control (c : Codeword) : Nat :=
  putBits 19 8 c.seq.toNat + putBits 7 7 (b2n c.ackPart) + putBits 6 6 (b2n c.retryReq) + putBits 5 0 c.ackBits.toNat

/-- The 514 message symbols: 640 bytes of payload, then the control field. -/
def Codeword.message (c : Codeword) : List Nat :=
  let fill := (List.range (640 - c.payload.length)).map fun k => Config.linkIdle (c.payload.length + k)
  let w := leNat (c.payload ++ fill) + c.control * 2 ^ 5120
  (List.range 514).map fun k => w / 2 ^ (10 * k) % 1024

/-- The symbols that each logical lane of n carries, in order: round-robin. -/
def Codeword.laneSymbols (c : Codeword) (n : Nat) : List (List Nat) :=
  let all := c.message ++ rsParity c.message
  (List.range n).map fun j => (all.zipIdx.filter fun e => e.2 % n == j).map (·.1)

/-- Wrong symbols of a codeword that the code corrects. (PRESUMED, log 64) -/
def rsReach : Nat := 15

/-! The codeword stream (R503 to R506). -/

/-- Link packet header (R504). -/
def LinkPacket.header (p : LinkPacket) : Nat :=
  putBits 255 254 p.vc + putBits 253 253 (b2n p.cls) + putBits 247 228 p.dst.toNat + putBits 227 208 p.src.toNat
    + putBits 207 204 p.dtile + putBits 203 192 (p.payload.length / 16) + putBits 191 160 p.tag.toNat
    + putBits 159 112 p.offset

def LinkPacket.bytes (p : LinkPacket) : List Byte :=
  let b := leBytes 32 p.header ++ p.payload
  b ++ leBytes 4 (crc32 b).toNat ++ zeros 12

def parsePacket (bs : List Byte) : LinkPacket :=
  let h := leNat (bs.take 32)
  { vc := bitsOf h 255 254, cls := bitOf h 253, dst := BitVec.ofNat 20 (bitsOf h 247 228)
    src := BitVec.ofNat 20 (bitsOf h 227 208), dtile := bitsOf h 207 204, tag := BitVec.ofNat 32 (bitsOf h 191 160)
    offset := bitsOf h 159 112, payload := slice bs 32 (16 * bitsOf h 203 192) }

/-- What the head of the received bytes is: not a whole packet yet, a packet with its length, or one that fails its CRC. -/
inductive RxHead where
  | more
  | good (p : LinkPacket) (len : Nat)
  | bad

def rxHead (bs : List Byte) : RxHead :=
  if bs.length < 32 then .more
  else
    let len := 48 + 16 * bitsOf (leNat (bs.take 32)) 203 192
    if bs.length < len then .more
    else if leAt bs (len - 16) 4 = (crc32 (bs.take (len - 16))).toNat then .good (parsePacket bs) len
    else .bad

/-- Packets that the received bytes complete, in order, with the bytes left and whether they begin with a packet that failed its CRC. -/
def rxScan : Nat → List Byte → List LinkPacket × List Byte × Bool
  | 0, bs => ([], bs, false)
  | n + 1, bs =>
    match rxHead bs with
    | .more => ([], bs, false)
    | .good p len => let (ps, r, bad) := rxScan n (bs.drop len); (p :: ps, r, bad)
    | .bad => ([], bs, true)

/-- Where the last `rest` received bytes begin, when codeword `seq` with `len` bytes came last: the codeword, and the bytes of it before them. A packet
that goes on in the next codeword leaves none of its own idle. -/
def rxPlace (seq len rest : Nat) : Nat × Nat :=
  if rest ≤ len then (seq, len - rest)
  else ((seq + 4096 - ceilDiv (rest - len) 640) % 4096, (640 - (rest - len) % 640) % 640)

/-! Sharing a port (R508, R509). -/

/-- A credit return (R509) uses MANAGEMENT's own space; any other packet needs credit for its channel and class. MANAGEMENT sends within its 5 %. The
port's own MANAGEMENT packets are its credit returns. -/
def Port.mayGo (p : Port) (own : Bool) (q : LinkPacket) : Bool :=
  ((own && q.vc == 3) || decide (q.bytes.length ≤ p.txCredit.getD (2 * q.vc + b2n q.cls) 0))
    && (q.vc != 3 || decide (q.bytes.length ≤ p.mgmtBudget))

/-- The packet of a channel that is ready: own packets and those that pass through take turns. -/
def Port.readyOf (p : Port) (vc : Nat) : Option (Bool × LinkPacket) :=
  let own := (p.sendQ.find? fun q => q.vc == vc).filter (p.mayGo true)
  let pass := (p.passQ.find? fun q => q.vc == vc).filter (p.mayGo false)
  match own, pass with
  | some x, some y => some (if p.ownTurn.getD vc true then (true, x) else (false, y))
  | some x, none => some (true, x)
  | none, some y => some (false, y)
  | none, none => none

/-- The next packet of a port: of the channels that have one ready, the one that has had the fewest bytes, the lowest on a tie. (DEDUCED, log 35) -/
def Port.nextPacket (p : Port) : Option (Bool × LinkPacket) :=
  (sortBy (fun (a b : Nat) => decide (p.served.getD a 0 < p.served.getD b 0 ∨ p.served.getD a 0 = p.served.getD b 0 ∧ a < b))
    ((List.range 4).filter fun vc => (p.readyOf vc).isSome)).head?.bind p.readyOf

/-- A packet moves into the byte stream: it uses credit and its channel's part. -/
def Port.begin (p : Port) (own : Bool) (q : LinkPacket) : Port :=
  let len := q.bytes.length
  let least := p.served.getD q.vc 0
  { p with
    sendQ := if own then p.sendQ.erase q else p.sendQ, passQ := if own then p.passQ else p.passQ.erase q
    txBytes := p.txBytes ++ q.bytes
    served := p.served.zipIdx.map fun (e : Nat × Nat) =>
      if e.2 = q.vc then e.1 + len else if (p.readyOf e.2).isSome then e.1 else max e.1 least
    ownTurn := modifyAt p.ownTurn q.vc fun _ => !own
    mgmtBudget := if q.vc = 3 then p.mgmtBudget - len else p.mgmtBudget
    txCredit := if own && q.vc == 3 then p.txCredit else modifyAt p.txCredit (2 * q.vc + b2n q.cls) fun c => c - len }

/-- Packets moved into the byte stream until it fills a codeword. -/
def Port.fillBytes : Nat → Port → Port × Nat
  | 0, p => (p, 0)
  | n + 1, p =>
    if 640 ≤ p.txBytes.length then (p, 0)
    else
      match p.nextPacket with
      | none => (p, 0)
      | some (own, q) => let (p', k) := Port.fillBytes n (p.begin own q); (p', k + q.bytes.length)

/-! Sending and acknowledging (R503, R505). -/

/-- The control field that a codeword leaves with: the halves of ACK in turn, both of one value, and the retry request. (DEDUCED, log 35) -/
def Port.stamp (p : Port) (c : Codeword) : Port × Codeword :=
  let ack := if p.ackPart then p.ackHeld else p.rxNext % 4096
  ({ p with ackPart := !p.ackPart, ackHeld := ack },
    { c with ackPart := p.ackPart, retryReq := p.retrying, ackBits := BitVec.ofNat 6 (if p.ackPart then ack / 64 else ack % 64) })

/-- One codeword goes out: the stream's next 640 bytes. At most 2048 stay unacknowledged. MANAGEMENT may have 5 % of each. Returns the port, what it
sends and the packet bytes begun. -/
def Port.sendCodeword (p : Port) : Port × List Codeword × Nat :=
  if 2048 ≤ p.replay.length then (p, [], 0)
  else
    let (p, k) := Port.fillBytes (p.sendQ.length + p.passQ.length) { p with mgmtBudget := min 8240 (p.mgmtBudget + 32) }
    let (p, cw) := p.stamp ⟨BitVec.ofNat 12 p.txSeq, false, false, 0, p.txBytes.take 640⟩
    ({ p with txBytes := p.txBytes.drop 640, txSeq := (p.txSeq + 1) % 4096, replay := p.replay ++ [cw] }, [cw], k)

/-- The codewords that the longest packet, 8240 bytes, can lie in before its last one. -/
def packetSpan : Nat := 14

/-- An acknowledgement of everything below `ack`. The codewords last acknowledged are kept aside, since the peer may ask again for the start of a packet
that fails its CRC: a request for one of them makes it unacknowledged again. (DEDUCED, log 35) -/
def Port.takeAck (p : Port) (ack : Nat) : Port :=
  let all := p.acked ++ p.replay
  match all with
  | [] => p
  | c :: _ =>
    let n := (ack + 4096 - c.seq.toNat) % 4096
    if n ≤ all.length then { p with acked := (all.take n).drop (n - packetSpan), replay := all.drop n } else p

/-- The codewords of the replay buffer as they are sent again: SEQ and payload as they were, the control field as it is now. -/
def Port.stampAll : Port → List Codeword → Port × List Codeword
  | p, [] => (p, [])
  | p, c :: cs =>
    let (p, c) := p.stamp c
    let (p, cs) := Port.stampAll p cs
    (p, c :: cs)

/-- Codewords numbered from a SEQ on: after a training the replay buffer starts at 0, and what was acknowledged before it lies below 0 (R503, R515).
(DEDUCED, log 35) -/
def renumber (seq : Nat) (cs : List Codeword) : List Codeword := cs.zipIdx.map fun (c, k) => { c with seq := BitVec.ofNat 12 (seq + k) }

/-- The replay buffer is sent again (R505, R515). -/
def State.resend (s : State) (i : Nat) : State :=
  let p := s.port i
  let (p, cs) := p.stampAll p.replay
  let s := s.setPort i p
  { s with out := s.out ++ cs.map fun c => Out.codeword i c p.lanes }

/-! States of a port. -/

/-- Retry time counted (R506). -/
def State.addRetry (s : State) (ns : Nat) : State :=
  { s with links := { s.links with retryNs := s.links.retryNs + ns }, regs := regAdd s.regs Reg.lnkRetryNs ns }

/-- Since when a port has been in retry or retraining. -/
def Port.retrySince (p : Port) : Option Nat := if p.state = .retraining then some p.retrainAt else p.retryFrom

/-- A port's retry or retraining ends now: its interval is retry time (R506). -/
def State.countRetry (s : State) (i : Nat) : State :=
  let p := s.port i
  match p.retrySince with
  | some t => (s.setPort i { p with retryFrom := none }).addRetry (s.counter - t)
  | none => s

/-- The retry time of all ports up to now, the intervals that still run among it (R362). -/
def State.retryNow (s : State) : Nat :=
  s.links.retryNs + ((s.links.ports.filterMap fun p => p.retrySince.map (s.counter - ·)).sum)

/-- A port starts to retrain: the channels hold their packets (R515). (DEDUCED, log 35) -/
def State.startRetrain (s : State) (i : Nat) : State :=
  let s := s.countRetry i
  ((s.setPort i { s.port i with state := .retraining, retrainAt := s.counter }).count (lnkReg Reg.lnkRetrains i) 1).portEvent
    .linkRetrain i []

/-- What a training leaves (R511 stages 5 and 6, R515). `discarded`: the neighbour's serial number changed and the replay buffer held
codewords, so what had packets in it ends with LINK_DOWN. A retrain that finds no link goes on until R516 ends it. -/
structure TrainEnd where
  state : State
  discarded : Bool

def State.endTraining (s : State) (i : Nat) (tr : PortTrain) : TrainEnd :=
  let p := s.port i
  let missed : Port := if p.state = .retraining then p else { p with state := .down }
  let changed := decide (p.peerSerial ≠ [] ∧ p.peerSerial ≠ tr.serial)
  if !tr.trained then ⟨s.setPort i missed, false⟩
  else
    match trainLanes ((2 ^ 18 - 1 - p.laneFailed) &&& tr.lanes) with
    | none => ⟨s.setPort i missed, false⟩
    | some (use, spare, failed, half) =>
      -- stage 6: this end's half, then what the neighbour's says
      let s := { s with out := s.out ++ [Out.identity i (dstWord s.coord) s.extent (padTo 16 s.sec.serial) (BitVec.ofNat 12 p.rxNext)] }
      let p : Port := { p with peer := tr.coord, peerSerial := tr.serial, rate := if tr.fast then 2 else 1, cable := tr.cable }
      -- what belongs to a former neighbour is discarded on both sides
      let p : Port := if changed then { p with replay := [], acked := [], txBytes := [], rxBytes := [], rxStart := 0 } else p
      match s.identityOk i tr with
      | none =>
        ⟨(s.setPort i { p with state := .miswired }).portEvent .coordMismatch i [], changed && !(s.port i).replay.isEmpty⟩
      | some b =>
        let p := p.takeAck tr.peerNext.toNat
        let q : Port := { p with
          state := .up, half := half, skip := b, spared := p.spared || half || (b == 0 && !tr.fast), lanes := bitsSet use 18
          laneSpare := spare, laneFailed := failed, txSeq := p.replay.length, replay := renumber 0 p.replay
          acked := renumber (4096 - p.acked.length) p.acked, ackAt := s.counter, ackLow := none, ackPart := false, ackHeld := 0
          rxNext := 0, retrying := false, reqCount := 0, retryFrom := none }
        ⟨(s.setPort i q).resend i, changed && !(s.port i).replay.isEmpty⟩

/-- The tiles of both ports of an axis are in service: an isolated one keeps the switch set in BYPASS (R431). -/
def State.axisTiles (s : State) (a : Nat) : Bool := s.tileIn (portTile (2 * a)) && s.tileIn (portTile (2 * a + 1))

/-- The link command: HELD axes of the mask open at stage 4 (R512); their ports go on to train. -/
def State.releaseHold (s : State) (mask : Nat) : State :=
  (List.range 4).foldl (fun s a =>
    if mask.testBit a ∧ (s.axis a).held ∧ s.axisTiles a then
      let s := s.setAxis a { s.axis a with held := false, through := true }
      [2 * a, 2 * a + 1].foldl (fun s i =>
        if (s.port i).state = .held then s.setPort i { s.port i with state := .training } else s) s
    else s) s

/-- An axis's switch set closes (R394, R398, R431): its ports go to BYPASSED and hold nothing. -/
def State.closeAxis (s : State) (a : Nat) : State :=
  let s := s.accrue.setAxis a { s.axis a with through := false, held := false }
  [2 * a, 2 * a + 1].foldl (fun s i =>
    match (s.port i).state with
    | .disabled | .noCable | .cableFault => s
    | _ =>
      let s := s.countRetry i
      s.setPort i { Port.reset with state := .bypassed, cable := (s.port i).cable, laneFailed := (s.port i).laneFailed }) s

/-! Routes (R500, R509). -/

/-- The port toward coordinate n on axis a: the shorter direction, + on a tie. -/
def State.portToward (s : State) (a n : Nat) : Nat :=
  let size := extentOf s.extent a
  let up := (n + size - coordOf s.coord a) % size
  if 2 * up ≤ size then 2 * a else 2 * a + 1

/-- The first axis on which a destination differs from this module: dimension order. -/
def State.nextAxis (s : State) (dst : BitVec 20) : Option Nat :=
  (List.range 4).find? fun a => dstOf dst a != coordOf s.coord a

/-- The port by which a packet for `dst` leaves; none: it is for this module. -/
def State.routePort (s : State) (dst : BitVec 20) : Option Nat :=
  (s.nextAxis dst).map fun a => s.portToward a (dstOf dst a)

/-- The port by which a packet of a channel leaves: PIPELINE never takes the wrap-around link (R507), so it goes the way that does not wrap.
(DEDUCED, log 35) -/
def State.channelPort (s : State) (vc : Nat) (dst : BitVec 20) : Option Nat :=
  if vc = 2 then (s.nextAxis dst).map fun a => if coordOf s.coord a < dstOf dst a then 2 * a else 2 * a + 1
  else s.routePort dst

/-- The classes of R266 in which the tile network carries a packet. -/
inductive MeshClass where
  | collective | exchange | bulk | management
  deriving DecidableEq, Repr

/-- The class of a virtual channel's traffic on the bridge edges (R500). A class decides only when a packet moves. -/
def meshClass (vc : Nat) : MeshClass :=
  if vc = 0 then .collective else if vc = 1 then .exchange else if vc = 2 then .bulk else .management

/-- The ports that carry a transfer of Burnet along an axis, with their shares: both, in proportion to their payload rates at its start (R508). -/
def State.axisShares (s : State) (a : Nat) : List (Nat × Nat) :=
  [2 * a, 2 * a + 1].map fun i => (i, (s.port i).payloadRate)

/-- A hop out of port i, over the modules that it skips, crosses the wrap-around link of its axis: between coordinates S − 1 and 0 (R509). -/
def State.wraps (s : State) (i : Nat) : Bool :=
  let c := coordOf s.coord (i / 2)
  let b := (s.port i).skip
  if i % 2 = 0 then decide (extentOf s.extent (i / 2) ≤ c + 1 + b) else decide (c < 1 + b)

/-- The dateline class of a packet that leaves by port `o` after entering by axis `a`: 1 from the wrap-around link on, 0 again on a turn
to the next axis. -/
def State.dateline (s : State) (a o : Nat) (cls : Bool) : Bool := s.wraps o || (cls && o / 2 == a)

end Sys2Proof.Machine
end

