-- ==== Sys2Proof/Machine/Immediate.lean ====
section
/-! DEFINITION. Sys2Proof/Machine/Immediate.lean: the immediate commands (spec/16 R469, R472): the register window (R474, with the live registers of
R512 and R589), sessions, attestation (spec/21 R613), journal reading (R491, R492) and event reading (spec/20 R583 to R586). -/

namespace Sys2Proof.Machine

open Sys2Proof

/-! The frame of an immediate command. -/

/-- What an immediate command answers: a refusal, or a status, a result and what it changed. -/
abbrev ImmOut := Except Status (Status × List Byte × State)

/-- One COMPLETED entry, then the RESPONSE with the sequence number and the result; a refused command gets neither number nor effect
(R473, R488). The recovery loader keeps no journal (R612). -/
def State.immediate (s : State) (family op sess : Nat) (reqId : W64) (r : ImmOut) : State :=
  match r with
  | .error st => (s.count Reg.jnlRefused 1).respond sess reqId st []
  | .ok (st, body, s') =>
    if s'.boot.phase = .recovery then s'.respond sess reqId st (leBytes 8 0 ++ body)
    else
      let e := entryWord (s'.jnl.last + 1) reqId.toNat EntryKind.completed.code family op (s.session sess).slot 0 0 true st.code 0
      let s' := { s' with jnl := s'.jnl.append e }
      s'.respond sess reqId st (leBytes 8 s'.jnl.last ++ body)

/-- An immediate command of an open session while the module serves Campion; `loader`: the recovery loader serves it (R612). (DEDUCED, log 5) -/
def State.runImmediate (s : State) (family op sess : Nat) (reqId : W64) (loader : Bool) (f : State → ImmOut) : State :=
  if s.netUp ∧ (s.session sess).isOpen then
    s.immediate family op sess reqId
      (if s.boot.phase = .recovery ∧ !loader then .error .recoveryMode else f s)
  else s

/-! The register window (R474). -/

/-- The block, offset and word count of a window are in range. -/
def windowOk (block off n : Nat) : Bool :=
  match regBlock block with
  | some rows => decide (1 ≤ n ∧ n ≤ 512 ∧ off % 8 = 0 ∧ off + 8 * n ≤ regBlockEnd rows)
  | none => false

def isRc (block off : Nat) : Bool :=
  match regRow block off with
  | some r => r.access == .rc
  | none => false

/-- A read clears an RC word (R11). -/
def clearRc (regs : List (Nat × W64)) (block : Nat) (offs : List Nat) : List (Nat × W64) :=
  offs.foldl (fun m o => if isRc block o then regSet m (regKey block o) 0 else m) regs

/-- REG_READ. (DEDUCED, log 25) -/
def State.regRead (s : State) (params : List Byte) : ImmOut :=
  let block := leAt params 0 1
  let off := leAt params 4 4
  let n := leAt params 8 2
  if params.length ≠ 10 then .error .badCommand
  else if !windowOk block off n then .error .regRange
  else
    let offs := (List.range n).map fun i => off + 8 * i
    .ok (.ok, offs.flatMap (fun o => leBytes 8 (s.readReg block o)), { s with regs := clearRc s.regs block offs })

/-- What a live write of a word does: whether the word is one the host may write, and the register values after it. -/
def liveWrite (regs : List (Nat × W64)) (block off v : Nat) : Bool × List (Nat × W64) :=
  match regRow block off with
  | some r =>
    if r.access = .rw then (true, regSet regs (regKey block off) (BitVec.ofNat 64 (v &&& r.mask)))
    else (r.access == .w1c, regs)
  | none => (false, regs)

/-- A live value lies in its register's range (R474). -/
def liveOk (block off v : Nat) : Bool :=
  match regRow block off with
  | some r => !(r.access == .rw || r.access == .w1c) || regInRange (regKey block off) v
  | none => true

/-- What time has done before a live write changes the values in force: pace conditions accounted for (R541), rate windows ended by now closed (R589). -/
def State.beforeWrite (s : State) (block : Nat) : State :=
  if block = 0x03 then s.accrue else if block = 0x05 then s.closeRate else s

/-- REG_WRITE: nothing of it is applied when a word is out of range or two rate overrides name one code. LNK_HOLD is the link command
(R512). -/
def State.regWrite (s : State) (params : List Byte) : ImmOut :=
  let block := leAt params 0 1
  let off := leAt params 4 4
  let n := (params.length - 8) / 8
  let ws := (List.range n).map fun i => (off + 8 * i, leAt params (8 + 8 * i) 8)
  if params.length < 16 ∨ params.length % 8 ≠ 0 then .error .badCommand
  else if !windowOk block off n then .error .regRange
  else if !(ws.all fun (o, v) => liveOk block o v) then .error .regValue
  else
    let s := s.beforeWrite block
    let regs := ws.foldl (fun m (o, v) => (liveWrite m block o v).2) s.regs
    if overrideClash ((List.range 32).map fun j => (regGet regs (Reg.evtRateOverride + 8 * j)).toNat) then .error .regValue
    else
      let hold := if block = 0x07 then (ws.find? fun (o, _) => o == 0x10).map (·.2) else none
      let s' := ({ s with regs }).releaseHold (hold.getD 0)
      .ok (.ok, leBytes 4 (ws.filter fun (o, v) => (liveWrite s.regs block o v).1).length, s')

/-- The parameters of a REG_WRITE of one word. -/
def writeParams (key : Nat) (v : W64) : List Byte :=
  leBytes 4 (key / 2 ^ 24) ++ leBytes 4 (key % 2 ^ 24) ++ leBytes 8 v.toNat

/-- REG_READ (R474). -/
def execRegRead (sess : Nat) (reqId : W64) (params : List Byte) (s : State) : Host.Outcome State Fault Refusal :=
  .next (s.runImmediate 0x07 0x01 sess reqId (leAt params 0 1 == 0x0B || leAt params 0 1 == 0x0C) fun s => s.regRead params)

/-- REG_WRITE (R474). -/
def execRegWrite (sess : Nat) (reqId : W64) (params : List Byte) (s : State) : Host.Outcome State Fault Refusal :=
  .next (s.runImmediate 0x07 0x02 sess reqId false fun s => s.regWrite params)

/-- LNK_HOLD: a REG_WRITE of the register (R512). -/
def execLnkHold (sess : Nat) (reqId : W64) (value : W64) (s : State) : Host.Outcome State Fault Refusal :=
  .next (s.runImmediate 0x07 0x02 sess reqId false fun s => s.regWrite (writeParams Reg.lnkHold value))

/-- EVT_RATE_WINDOW: in force from the next rate window on (R589). -/
def execEvtRateWindow (sess : Nat) (reqId : W64) (value : W64) (s : State) : Host.Outcome State Fault Refusal :=
  .next (s.runImmediate 0x07 0x02 sess reqId false fun s => s.regWrite (writeParams Reg.evtRateWindow value))

/-- EVT_RATE_DEFAULT (R589). -/
def execEvtRateDefault (sess : Nat) (reqId : W64) (value : W64) (s : State) : Host.Outcome State Fault Refusal :=
  .next (s.runImmediate 0x07 0x02 sess reqId false fun s => s.regWrite (writeParams Reg.evtRateDefault value))

/-- EVT_RATE_OVERRIDE (R589, R590). -/
def execEvtRateOverride (sess : Nat) (reqId : W64) (entry : Fin 32) (value : W64) (s : State) :
    Host.Outcome State Fault Refusal :=
  .next (s.runImmediate 0x07 0x02 sess reqId false fun s =>
    s.regWrite (writeParams (Reg.evtRateOverride + 8 * entry.val) value))

/-! Sessions (R446, R472). -/

/-- A session ends: what it had to send is discarded (R453). -/
def State.endSession (s : State) (i : Nat) : State := s.setSession i Session.reset

/-- SESS_LIST: the sixteen session records. -/
def State.sessList (s : State) (params : List Byte) : ImmOut :=
  if params ≠ [] then .error .badCommand
  else .ok (.ok, (s.cmp.sessions.zipIdx.flatMap fun (x, i) => leBytes 64 (x.word i)), s)

/-- SESS_END: ends another session of the same host key slot. (DEDUCED, log 26) -/
def State.sessEnd (s : State) (sess : Nat) (params : List Byte) : ImmOut :=
  let i := leAt params 0 1
  if params.length ≠ 1 ∨ i = sess then .error .badCommand
  else if (s.session i).isOpen ∧ (s.session i).slot = (s.session sess).slot then
    .ok (.ok, [], (s.sendS i 0x07 0 0 0 []).endSession i)
  else .ok (.sessionStale, [], s)

/-- SESS_LIST (R472). -/
def execSessList (sess : Nat) (reqId : W64) (params : List Byte) (s : State) : Host.Outcome State Fault Refusal :=
  .next (s.runImmediate 0x01 0x01 sess reqId false fun s => s.sessList params)

/-- SESS_END (R472). -/
def execSessEnd (sess : Nat) (reqId : W64) (params : List Byte) (s : State) : Host.Outcome State Fault Refusal :=
  .next (s.runImmediate 0x01 0x02 sess reqId false fun s => s.sessEnd sess params)

/-! Attestation (R613). -/

/-- Bytes 0 to 575 of a report. -/
def State.reportBody (s : State) (nonce : List Byte) : List Byte :=
  let loader := decide (s.boot.phase = .recovery)
  let h := s.upd.runHeader
  let flags := b2n s.defaults + 2 * b2n s.tap.unlocked + 4 * b2n s.sec.floorLost + 8 * b2n s.upd.fallback
    + 16 * b2n (decide (s.upd.state = .activated)) + 32 * b2n loader
  leBytes 4 0x59574154 ++ leBytes 2 1 ++ leBytes 1 (if s.part = .ywbl10 then 0 else 1) ++ leBytes 1 flags
    ++ padTo 16 s.sec.serial ++ leBytes 8 s.boot.bootCount.toNat ++ leBytes 8 s.counter
    ++ leBytes 4 (if loader then 0 else s.upd.running) ++ leBytes 1 (b2n s.upd.runSlot) ++ zeros 3
    ++ leBytes 4 s.sec.floor ++ zeros 4 ++ padTo 8 (slice h 0x600 8)
    ++ (if loader then zeros 8 else beBytes 8 s.fp.toNat) ++ padTo 32 nonce
    ++ ((List.range 6).flatMap fun t =>
      match (manifest h).find? fun e => e.type == t + 1 with
      | some e => leBytes 4 e.ver ++ padTo 64 e.digest
      | none => zeros 68)
    ++ (match s.boot.record with
        | some r => sha512 (r.bytes s.sec.recKey)
        | none => zeros 64)

/-- ATTEST: the salt is fresh from the TRNG. -/
def State.attest (s : State) (params : List Byte) : ImmOut :=
  if params.length ≠ 32 then .error .badCommand
  else
    let body := s.reportBody params
    let sig := pssSign s.sec.modulus s.sec.privExp (sha512 body) (s.freeBytes 0 64)
    .ok (.ok, body ++ sig, (s.drew 8).count Reg.secAttests 1)

/-- ATTEST (R613). -/
def execAttest (sess : Nat) (reqId : W64) (params : List Byte) (s : State) : Host.Outcome State Fault Refusal :=
  .next (s.runImmediate 0x01 0x03 sess reqId true fun s => s.attest params)

/-! Journal reading (R491, R492). -/

/-- The ERA_START entry of the current era; read from the ring while it is there. -/
def State.eraStart (s : State) : State × W256 :=
  if s.jnl.first ≤ s.jnl.era + 1 then s.jnlRead (s.jnl.era + 1)
  else (s, entryWord (s.jnl.era + 1) 0 EntryKind.eraStart.code 0 0 0 0 0 false 0 s.jnl.eraBoot)

/-- Entries read in order. -/
def State.jnlReadMany : Nat → State → Nat → State × List Byte
  | 0, s, _ => (s, [])
  | n + 1, s, j =>
    let (s, w) := s.jnlRead j
    let (s, bs) := State.jnlReadMany n s (j + 1)
    (s, leBytes 32 w.toNat ++ bs)

/-- JNL_READ. -/
def State.jnlReadCmd (s : State) (params : List Byte) : ImmOut :=
  let j := leAt params 0 8
  let n := leAt params 8 2
  if params.length ≠ 10 ∨ n = 0 ∨ 1000 < n then .error .badCommand
  else if j / 2 ^ 44 < s.jnl.era / 2 ^ 44 then
    let (s, w) := s.eraStart
    .ok (.journalEra, leBytes 32 w.toNat, s)
  else if j < s.jnl.first then .ok (.journalGone, leBytes 8 s.jnl.first, s)
  else
    let (s, bs) := State.jnlReadMany (min n (s.jnl.last + 1 - j)) s j
    .ok (.ok, bs, s)

/-- JNL_OUTSTANDING: the ACCEPTED entries of the outstanding table. -/
def State.jnlOutstanding (s : State) (params : List Byte) : ImmOut :=
  if params ≠ [] then .error .badCommand
  else .ok (.ok, s.jnl.outstanding.flatMap fun e => leBytes 32 e.2.toNat, s)

/-- Every queue's kept completion records. -/
def State.allResults (s : State) : List (Nat × List Byte) :=
  s.mgmt.results ++ s.parts.flatMap fun p => p.queues.flatMap fun q => q.results

/-- JNL_RESULT. -/
def State.jnlResult (s : State) (params : List Byte) : ImmOut :=
  if params.length ≠ 8 then .error .badCommand
  else
    match s.allResults.find? fun r => r.1 == leAt params 0 8 with
    | some r => .ok (.ok, r.2, s)
    | none => .ok (.resultGone, [], s)

/-- JNL_READ (R492). -/
def execJnlRead (sess : Nat) (reqId : W64) (params : List Byte) (s : State) : Host.Outcome State Fault Refusal :=
  .next (s.runImmediate 0x0A 0x01 sess reqId false fun s => s.jnlReadCmd params)

/-- JNL_OUTSTANDING (R491). -/
def execJnlOutstanding (sess : Nat) (reqId : W64) (params : List Byte) (s : State) : Host.Outcome State Fault Refusal :=
  .next (s.runImmediate 0x0A 0x02 sess reqId false fun s => s.jnlOutstanding params)

/-- JNL_RESULT (R492). -/
def execJnlResult (sess : Nat) (reqId : W64) (params : List Byte) (s : State) : Host.Outcome State Fault Refusal :=
  .next (s.runImmediate 0x0A 0x03 sess reqId false fun s => s.jnlResult params)

/-! Event reading (R583 to R586). -/

/-- The oldest and the next SEQ of a source: false the ring, true the spill area. -/
def State.evtBounds (s : State) (spill : Bool) : Nat × Nat :=
  if spill then
    let rs := s.spilled
    match rs.head?, rs.getLast? with
    | some a, some b => (recSeq a, recSeq b + 1)
    | _, _ => (s.tansy.next, s.tansy.next)
  else (s.tansy.oldest.val, s.tansy.next)

def Session.cursor (x : Session) (spill : Bool) : Nat := if spill then x.spillCur else x.ringCur

def State.setCursor (s : State) (i : Nat) (spill : Bool) (v : Nat) : State :=
  let x := s.session i
  s.setSession i (if spill then { x with spillCur := v } else { x with ringCur := v })

/-- EVT_CURSOR. -/
def State.evtCursor (s : State) (sess : Nat) (params : List Byte) : ImmOut :=
  if params.length ≠ 16 ∨ 1 < leAt params 0 1 then .error .badCommand
  else
    let spill := leAt params 0 1 == 1
    let (lo, hi) := s.evtBounds spill
    let q := leAt params 8 8
    let q := if q = 0 then lo else if q = 2 ^ 64 - 1 then hi else q
    if q < lo then .error .eventGone
    else if hi < q then .error .eventCursor
    else .ok (.ok, leBytes 8 lo ++ leBytes 8 hi, s.setCursor sess spill q)

/-- Records a read may copy, oldest first, as bytes: the ring's up to the first invalid one, pads left out. -/
def State.evtSource (s : State) (spill : Bool) : List (List Byte) :=
  if spill then s.spilled
  else ((s.tansy.ring.takeWhile (·.valid)).map (·.bytes)).filter fun b => bitsOf (leNat (b.take 32)) 47 32 != 0

/-- Whole records while they fit in `room`. -/
def takeFit : Nat → List (List Byte) → List (List Byte)
  | _, [] => []
  | room, b :: bs => if b.length ≤ room then b :: takeFit (room - b.length) bs else []

/-- The window header (R584). -/
def windowHeader (first next bytes count : Nat) : Nat :=
  putBits 255 192 first + putBits 191 128 first + putBits 127 64 next + putBits 63 32 bytes + putBits 31 0 count

/-- FATAL records returned from the ring count as read (R586). -/
def Tansy.markRead (tn : Tansy) (seqs : List Nat) : Tansy :=
  { tn with ring := tn.ring.map fun r => if seqs.contains r.seq then { r with read := true } else r }

/-- Alert conditions that no longer hold are released (R383). -/
def State.releaseAlerts (s : State) : State :=
  { s with pins := { s.pins with
      alertBrown := false, alertTrip := s.power.rails.any fun r => r.tripI || r.tripT } }

/-- EVT_READ. -/
def State.evtRead (s : State) (sess : Nat) (params : List Byte) : ImmOut :=
  let mx := leAt params 4 4
  if params.length ≠ 8 ∨ 1 < leAt params 0 1 ∨ mx < 32 ∨ 65504 < mx then .error .badCommand
  else
    let spill := leAt params 0 1 == 1
    let cur := (s.session sess).cursor spill
    if cur < (s.evtBounds spill).1 then .ok (.eventGone, [], s)
    else
      let rs := takeFit mx ((s.evtSource spill).filter fun b => decide (cur ≤ recSeq b))
      let next := match rs.getLast? with
        | some b => recSeq b + 1
        | none => cur
      let first := (rs.head?.map recSeq).getD 0
      let body := leBytes 32 (windowHeader first next (rs.map List.length).sum rs.length) ++ rs.flatten
      let s' := s.setCursor sess spill next
      let s' := if rs.isEmpty then s' else s'.releaseAlerts
      .ok (.ok, body, if spill then s' else { s' with tansy := s'.tansy.markRead (rs.map recSeq) })

/-- EVT_READ (R584). -/
def execEvtRead (sess : Nat) (reqId : W64) (params : List Byte) (s : State) : Host.Outcome State Fault Refusal :=
  .next (s.runImmediate 0x0B 0x01 sess reqId false fun s => s.evtRead sess params)

/-- EVT_CURSOR (R583). -/
def execEvtCursor (sess : Nat) (reqId : W64) (params : List Byte) (s : State) : Host.Outcome State Fault Refusal :=
  .next (s.runImmediate 0x0B 0x02 sess reqId false fun s => s.evtCursor sess params)

end Sys2Proof.Machine
end

