-- ==== Sys2Proof/Machine/Update.lean ====
section
/-! DEFINITION. Sys2Proof/Machine/Update.lean: firmware images, the slot pointer and the update commands (spec/21 R597 to R610), and configuration
staging (spec/14 R424). -/

namespace Sys2Proof.Machine

open Sys2Proof

/-! Headers and images (R597 to R600). -/

def partBit : Part → Nat
  | .ywbl10 => 0
  | .ywbl10e => 1

/-- Manifest rules of R598, and FLOOR_SET at most the image version. (DEDUCED, log 29) -/
def manifestOk (h : List Byte) : Bool :=
  let es := manifest h
  let len := leAt h 0x18 4
  (List.range 6).all (fun t => (es.filter fun e => e.type == t + 1).length == 1)
    && es.all (fun e => decide (e.off % 4096 = 0 ∧ 0x1000 ≤ e.off ∧ e.off + e.len ≤ len))
    && es.zipIdx.all (fun (a, i) => es.zipIdx.all fun (b, j) => i == j || decide (a.off + a.len ≤ b.off ∨ b.off + b.len ≤ a.off))
    && slice h (0x100 + 480) 800 == zeros 800
    && decide (leAt h 0x1C 4 ≤ headerVer h)

/-- The checks of R600 in order; OK when the header is valid. -/
def checkHeader (part : Part) (floor : Nat) (h : List Byte) : Status :=
  let ver := headerVer h
  let rec_ := slice h 0x600 1536
  if leNat (h.take 4) ≠ 0x5957494D ∨ leAt h 4 2 ≠ 1 ∨ leAt h 7 1 ≠ 6 ∨ 2 ^ 27 < leAt h 0x18 4 then .imageHeader
  else if !pssVerify Config.rootKey.1 Config.rootKey.2 (rec_.take 0x400) (slice rec_ 0x400 512) then .imageSignature
  else if ver < leAt rec_ 8 4 ∨ leAt rec_ 0xC 4 < ver then .imageSignature
  else if !pssVerify (beNat (slice rec_ 0x10 512)) (beNat (slice rec_ 0x210 4)) (h.take 0xE00) (slice h 0xE00 512) then
    .imageSignature
  else if ver < floor then .imageRollback
  else if !(leAt h 6 1).testBit (partBit part) then .imagePart
  else if !manifestOk h then .imageHeader
  else .ok

/-- The first part, in manifest order, whose digest differs from its entry. -/
def State.badPart (s : State) (slot : Bool) (h : List Byte) : Option Nat :=
  ((manifest h).find? fun e => sha512 (s.imageRead slot e.off e.len) != e.digest).map (·.type)

/-- The image of a slot is valid: its header and every part's digest (R600). -/
def State.imageValid (s : State) (slot : Bool) : Bool :=
  let h := s.imageRead slot 0 4096
  decide (checkHeader s.part s.sec.floor h = .ok) && (s.badPart slot h).isNone

/-! The slot pointer (R601). -/

def pointerBytes (gen : Nat) (slot : Bool) (ver : Nat) : List Byte :=
  let b := leBytes 4 0x59575054 ++ leBytes 4 gen ++ leBytes 1 (b2n slot) ++ zeros 3 ++ leBytes 4 ver ++ zeros 44
  b ++ leBytes 4 (crc32 b).toNat

/-- A new pointer, copy 0 first. -/
def State.writePointer (s : State) (slot : Bool) (ver : Nat) : State :=
  let bs := pointerBytes (s.pointer.1 + 1) slot ver
  (s.putFlash false flPointer 65536 bs).putFlash true flPointer 65536 bs

/-! The rollback floor (R602, R603). -/

def floorCopy (key : List Byte) (f : List (Nat × Byte)) : Option (Nat × Nat) :=
  let bs := flashRead f flFloor 64
  if leNat (bs.take 4) = 0x5957464C ∧ bs.drop 32 = hmac256 key (bs.take 32) then some (leAt bs 4 4, leAt bs 8 4) else none

/-- The floor record in force: generation and floor; none where neither copy checks. -/
def State.floorRec (s : State) : Option (Nat × Nat) :=
  match floorCopy s.sec.floorKey s.flash0, floorCopy s.sec.floorKey s.flash1 with
  | some a, some b => some (if a.1 < b.1 then b else a)
  | some a, none => some a
  | none, b => b

def State.writeFloor (s : State) (gen floor : Nat) : State :=
  let b := leBytes 4 0x5957464C ++ leBytes 4 gen ++ leBytes 4 floor ++ zeros 20
  let bs := b ++ hmac256 s.sec.floorKey b
  (s.putFlash false flFloor 65536 bs).putFlash true flFloor 65536 bs

/-! Update commands (R605 to R609). Each answers its status with the state; only an OK one, IMAGE_DIGEST and FLASH_WRITE aside, changes
anything. -/

def setSlotVer (u : Update) (slot : Bool) (v : Nat) : Update := if slot then { u with slotB := v } else { u with slotA := v }

/-- UPD_BEGIN. -/
def State.updBegin (s : State) (slot : Nat) (params : List Byte) : State × Status :=
  if s.upd.state ≠ .idle then (s, .updateState)
  else
    match checkHeader s.part s.sec.floor params with
    | .ok =>
      let target := !s.upd.runSlot
      let len := ceilDiv (leAt params 0x18 4) 65536 * 65536
      let s := s.setFlash target (flashErase (s.flash target) flImage len)
      ({ s with upd := setSlotVer { s.upd with
          state := .receiving, owner := slot, header := params, units := [], target, bytes := 0, badPart := 0 } target 0 }, .ok)
    | st => (s, st)

/-- A byte range lies inside the part ranges of a manifest (R607). -/
def inParts (h : List Byte) (off n : Nat) : Bool :=
  (List.range n).all fun i => (manifest h).any fun e => decide (e.off ≤ off + i ∧ off + i < e.off + e.len)

/-- UPD_DATA. A program that fails its read-back three times in a row ends the command with FLASH_WRITE, and the units written by then stay written and
marked. (DEDUCED, log 29) -/
def State.updData (s : State) (slot : Nat) (params : List Byte) (back : ReadBack) : State × Status :=
  let u := s.upd
  let off := leAt params 0 8
  let data := params.drop 8
  let cells := data.zipIdx.map fun (b, i) => (off + i, b)
  let (old, new) := cells.partition fun c => u.units.contains (c.1 / 16)
  if u.state ≠ .idle ∧ u.owner ≠ slot then (s, .updateBusy)
  else if u.state ≠ .receiving then (s, .updateState)
  else if !inParts u.header off data.length then (s, .updateRange)
  else if !(old.all fun c => s.imageRead u.target c.1 1 == [c.2]) then (s, .updateConflict)
  else
    let failed := decide (3 ≤ back.fails)
    let all := (new.map fun c => c.1 / 16).eraseDups
    let units := if failed then all.take (min back.before (all.length - 1)) else all
    let put := new.filter fun c => units.contains (c.1 / 16)
    let f := put.foldl (fun f c => flashWrite f (flImage + c.1) [c.2]) (s.flash u.target)
    ({ s.setFlash u.target f with upd := { u with
        units := sortBy (fun a b => decide (a < b)) (u.units ++ units), bytes := u.bytes + put.length } }, if failed then .flashWrite else .ok)

/-- The record copy that the next start-up would choose under firmware reading up to `fw` (R421). -/
def State.nextRecord (s : State) (fw : Nat) : Option CfgRec :=
  let best := match s.cfgCopy false, s.cfgCopy true with
    | some a, some b => some (if a.gen < b.gen then b else a)
    | some a, none => some a
    | none, b => b
  match s.cfgStaged with
  | some r => if r.ver ≤ fw then some r else best
  | none => best

/-- UPD_ACTIVATE. (DEDUCED, log 29) -/
def State.updActivate (s : State) (slot : Nat) (params : List Byte) : State × Status :=
  let u := s.upd
  let revert := leAt params 0 1 == 1
  let force := (leAt params 1 1).testBit 0
  let img := if revert then !s.pointer.2 else u.target
  let h := if revert then s.imageRead img 0 4096 else u.header
  let ver := headerVer h
  let tooNew : Bool := match s.nextRecord (headerRecVer h) with
    | some r => decide (headerRecVer h < r.ver)
    | none => false
  if u.state ≠ .idle ∧ u.owner ≠ slot then (s, .updateBusy)
  else if 1 < leAt params 0 1 then (s, .updateState)
  else if !revert ∧ u.state ≠ .receiving then (s, .updateState)
  else if revert ∧ (u.state = .receiving ∨ !s.imageValid img) then (s, .updateState)
  else if ver < s.sec.floor then (s, .imageRollback)
  else if tooNew ∧ !force then (s, .updateRecord)
  else
    match if revert then none else s.badPart img h with
    | some p => ({ s with upd := { u with badPart := p } }, .imageDigest)
    | none =>
      let s := if revert then s else s.setFlash img (flashWrite (s.flash img) flImage h)
      match checkHeader s.part s.sec.floor (s.imageRead img 0 4096) with
      | .ok =>
        let s := (s.writePointer img ver).note .updateActivated [ver]
        let st := if revert ∧ u.state = .activated then UpdState.idle else .activated
        ({ s.count Reg.fwuActivations 1 with
           upd := setSlotVer { u with state := st, owner := slot, header := h, target := img } img ver }, .ok)
      | st => (s, st)

/-- UPD_ABORT. -/
def State.updAbort (s : State) (slot : Nat) : State × Status :=
  let u := s.upd
  if u.state ≠ .idle ∧ u.owner ≠ slot then (s, .updateBusy)
  else if u.state ≠ .receiving then (s, .updateState)
  else
    let s := s.setFlash u.target (flashErase (s.flash u.target) flImage 65536)
    ({ s with upd := { u with state := .idle, header := [], units := [], bytes := 0 } }, .ok)

/-- A management command run to its end with a status and no completion record. -/
def State.finishWith (c : Cmd) (r : State × Status) : State := r.1.complete c r.2

/-- UPD_BEGIN (R606). -/
def execUpdBegin (jseq : Nat) (s : State) : Host.Outcome State Fault Refusal :=
  .next (s.runQueued 0x09 0x01 jseq fun c s => State.finishWith c (s.updBegin c.slot c.params))

/-- UPD_DATA (R607). -/
def execUpdData (jseq : Nat) (back : ReadBack) (s : State) : Host.Outcome State Fault Refusal :=
  .next (s.runQueued 0x09 0x02 jseq fun c s => State.finishWith c (s.updData c.slot c.params back))

/-- UPD_ACTIVATE (R608). -/
def execUpdActivate (jseq : Nat) (s : State) : Host.Outcome State Fault Refusal :=
  .next (s.runQueued 0x09 0x03 jseq fun c s => State.finishWith c (s.updActivate c.slot c.params))

/-- UPD_ABORT (R609). -/
def execUpdAbort (jseq : Nat) (s : State) : Host.Outcome State Fault Refusal :=
  .next (s.runQueued 0x09 0x04 jseq fun c s => State.finishWith c (s.updAbort c.slot))

/-! Configuration staging (R424). -/

/-- The checks of a staged record, in order. -/
def State.checkStaged (s : State) (bs : List Byte) : Except Status CfgRec :=
  match parseCfg bs with
  | none => .error .configRecord
  | some r =>
    if s.nextRecVer < r.ver then .error .configTooNew
    else if r.target ≠ zeros 16 ∧ r.target ≠ padTo 16 s.sec.serial then .error .configSerial
    else if !r.entriesOk then .error .configRecord
    else .ok r

/-- CFG_STAGE: the record with its MAC over the staged copy; an empty record erases it. (DEDUCED, log 28) -/
def State.cfgStage (s : State) (params : List Byte) : State × Status :=
  if params = [] then (s.setFlash false (flashErase s.flash0 flStaged 65536), .ok)
  else
    match s.checkStaged params with
    | .ok r => (s.putFlash false flStaged 65536 (r.bytes s.sec.recKey), .ok)
    | .error st => (s, st)

/-- CFG_STAGE (R424). -/
def execCfgStage (jseq : Nat) (s : State) : Host.Outcome State Fault Refusal :=
  .next (s.runQueued 0x08 0x01 jseq fun c s => State.finishWith c (s.cfgStage c.params))

end Sys2Proof.Machine
end

