-- ==== Sys2Proof/Machine/Reset.lean ====
section
/-! DEFINITION. Sys2Proof/Machine/Reset.lean: what a loss of module power, a cold reset and a warm reset leave (spec/14 R429, R430; spec/16 R493, R494;
spec/18 R525). -/

namespace Sys2Proof.Machine

open Sys2Proof

/-- Commands ABANDONED in the order of their sequence numbers (R493). -/
def State.abandonAll (s : State) (cs : List Cmd) : State :=
  (sortBy (fun (a b : Cmd) => decide (a.jseq < b.jseq)) cs).foldl (fun s c => s.abandon c) s

/-- The test port after a reset: the unlock ends and the challenge changes (R614). -/
def Tap.afterReset (t : Tap) (challenge : W64) : Tap := { t with unlocked := false, challenge }

/-- Everything volatile is gone; flash stays, and so do the pins' levels and what the outside has seen (R380, R429, R494). -/
def State.powerLoss (s : State) : State :=
  { State.reset with
    part := s.part, flash0 := s.flash0, flash1 := s.flash1, wall := s.wall, out := s.out, freeCtr := s.freeCtr
    pending := s.pending
    tansy := { Tansy.reset with spillNext := s.tansy.spillNext, spillBad := s.tansy.spillBad }
    pins := { s.pins with pgood := false, hold := .cold, input := .openPath, alertTrip := false, alertBrown := false } }

/-- Tansy over a reset with power: the ring and the spill position stay; the rate windows begin again with the counter (R429, R576). -/
def Tansy.afterReset (tn : Tansy) : Tansy :=
  { tn with queue := [], dropped := 0, winStart := 0, winMs := 1000, winDefault := 64, winOver := [], counts := [], early := [] }

/-- A cold reset with MOD_PGOOD high (R429): outstanding commands end ABANDONED, the journal mirror and the Tansy ring stay, everything else
but the flash is lost. Start-up resumes at the boot ROM; step 1 counts as done. -/
def State.coldReset (s : State) (cause : Nat) : State :=
  let s := s.abandonAll s.allCmds
  { State.reset with
    part := s.part, flash0 := s.flash0, flash1 := s.flash1, wall := s.wall, out := s.out, freeCtr := s.freeCtr + 2
    pending := s.pending, readings := s.readings, smb := s.smb
    pins := { s.pins with hold := if s.pins.resetN then .running else .cold, alertTrip := false }
    tap := s.tap.afterReset (s.free 0)
    cmp := { Campion.reset with sessGen := BitVec.ofNat 16 (s.free 1).toNat }
    boot := { Boot.reset with phase := .starting, step := min 1 s.boot.step, cause, bootCount := s.boot.bootCount }
    tansy := s.tansy.afterReset
    jnl := { s.jnl with copy1 := [], copy2 := [], tile1 := 0, tile2 := 9, svc := 7 } }

/-- A command cut off by a warm reset starts again from its start (R493). -/
def Cmd.cutOff (c : Cmd) : Cmd := if c.started then { c with started := false, restart := true } else c

/-- Commands of a queue over a warm reset; a STEP_RUN that had PREPARED stays as it is and settles by R340. -/
def CmdQueue.cutOff (q : CmdQueue) (prepared : Option Nat) : CmdQueue :=
  { q with cmds := q.cmds.map fun c => if some c.jseq = prepared then c else c.cutOff }

/-- A stream over a warm reset or a hold: the partial sample goes and NEXT_SEQ returns to its first frame (R460, R527). -/
def Stream.rewind (x : Stream) : Stream :=
  match x.cur with
  | some (_, _, first, _) => { x with nextSeq := first, cur := none }
  | none => x

/-- Partial samples freed and rewound (R460). -/
def State.rewindStreams (s : State) : State :=
  s.cmp.streams.foldl
    (fun s (j, x) =>
      match x.cur with
      | some (h, _, _, overN) =>
        let s := if overN then s else s.vetchFree x.tile x.part x.owner h
        { s with cmp := { s.cmp with streams := s.cmp.streams.map fun e => if e.1 = j then (j, x.rewind) else e } }
      | none => s) s

/-- The step that had PREPARED, by its command (R340). -/
def State.preparedStep (s : State) : Option StepRun := s.step.filter (·.prepared)

/-- A warm reset (R429): DRAM, the partitions with their queues, streams, pools, collective and placement state, and the update state stay;
the stores, the cores and the sessions go. -/
def State.warmReset (s : State) (cause : Nat) : State :=
  let s := s.rewindStreams
  let prep := s.preparedStep.map (·.jseq)
  { State.reset with
    part := s.part, flash0 := s.flash0, flash1 := s.flash1, wall := s.wall, out := s.out, freeCtr := s.freeCtr + 2
    pending := s.pending, readings := s.readings, smb := s.smb
    pins := { s.pins with hold := if s.pins.resetN then .running else .cold, alertTrip := false }
    tap := s.tap.afterReset (s.free 0)
    cmp := { Campion.reset with sessGen := BitVec.ofNat 16 (s.free 1).toNat, streams := s.cmp.streams }
    boot := { Boot.reset with phase := .starting, step := min 1 s.boot.step, cause, warm := true, bootCount := s.boot.bootCount
                              isolated := s.boot.isolated, dramKept := true }
    tansy := s.tansy.afterReset
    jnl := s.jnl
    mgmt := s.mgmt.cutOff prep
    parts := s.parts.map fun p => { p with queues := p.queues.map fun q => q.cutOff prep }
    step := s.preparedStep
    mem := s.mem.filter fun e => decide (e.1 < 0x00A000000000)
    keep := { marks := s.keep.marks.filter fun m => decide (m < 0x00A000000000), scrubDram := 0, scrubStore := 0 }
    vetch := s.vetch
    xpr := { s.xpr with queues := List.replicate 10 [], waiting := List.replicate 10 [] }
    bnt := { s.bnt with runs := if prep.isSome then s.bnt.runs else [], gathers := [], exchanges := []
                        sealParts := s.bnt.sealParts.map fun (x : SealPart) => { x with confirmAt := 0, firstVote := x.firstVote.map fun _ => 0 } }
    fp := s.fp, fpInput := s.fpInput
    upd := s.upd }

/-- The slot that the next start-up would run: the pointer's when its image is valid, else the other (R403). -/
def State.nextSlot (s : State) : Bool := if s.imageValid s.pointer.2 then s.pointer.2 else !s.pointer.2

/-- A warm reset is carried out as cold: DRAM holds no kept contents, another image would run (R430), or a staged record changes a COLD
register (R425). -/
def State.warmMadeCold (s : State) : Bool :=
  !s.boot.dramKept || s.nextSlot != s.upd.runSlot || s.upd.state == .activated ||
    (match s.cfgStaged with
     | some r => decide (r.ver ≤ s.nextRecVer) && s.stagedCold r
     | none => false)

/-- A warm reset as requested, by signal (cause 3) or command (cause 4). -/
def State.requestWarm (s : State) (cause : Nat) : State := if s.warmMadeCold then s.coldReset 5 else s.warmReset cause

end Sys2Proof.Machine
end

