-- ==== Sys2Proof/Machine/PinCmds.lean ====
section
/-! DEFINITION. Sys2Proof/Machine/PinCmds.lean: the management pins (spec/13 R368 to R383): power up and down, resets, brown-outs, the leak trip. A time
`t` here is absolute, in ns. -/

namespace Sys2Proof.Machine

open Sys2Proof

/-- The absolute clock moved to `t`, and the local counter with it. (DESIGN CHOICE, log 6) -/
def State.atWall (s : State) (t : Nat) : State :=
  { s with wall := max s.wall t, counter := s.counter + (t - s.wall) }

/-- Where the hub goes on once the rails are in regulation: held while MOD_RESET_N is low, at the boot ROM otherwise (R379, R381). -/
def State.powerUp (s : State) : State :=
  { s with
    counter := 0, freeCtr := s.freeCtr + 2
    pins := { s.pins with pgood := true, input := .closedPath, hold := if s.pins.resetN then .running else .cold }
    tap := s.tap.afterReset (s.free 0)
    cmp := { s.cmp with sessGen := BitVec.ofNat 16 (s.free 1).toNat }
    boot := { Boot.reset with phase := .starting, step := 1, cause := 0 } }

/-- MOD_PWR_EN_RISE (R378, R379, R380, R403 step 1): MOD_SLOT is sampled and power-up begins, not before 100 ms after the last fall. After
an input under-voltage the pin must have been low for 100 ms (R370). `good`: MOD_PGOOD is high within 40 ms. -/
def execModPwrEnRise (slot : BitVec 4) (good : Bool) (t : Nat) (s : State) : Host.Outcome State Fault Refusal :=
  if s.pins.pwrEn then .next s
  else
    let short := decide (t < s.pins.enFell + 100000000)
    let s := s.atWall (if s.pins.lockout then t else max t (s.pins.enFell + 100000000))
    let s := { s with pins := { s.pins with pwrEn := true, slot } }
    if s.pins.lockout ∧ short then .next s
    else if good then .next { s with pins := { s.pins with lockout := false } }.powerUp
    else .next { s with pins := { s.pins with lockout := true } }

/-- MOD_PWR_EN_FALL (R380): a loss of module power; LEAK_N is released with it (R374). -/
def execModPwrEnFall (t : Nat) (s : State) : Host.Outcome State Fault Refusal :=
  if !s.pins.pwrEn then .next s
  else
    let s := (s.atWall t).powerLoss
    .next { s with pins := { s.pins with pwrEn := false, enFell := t, leakN := true, alertLeak := false } }

/-- The limits of R370. -/
def underVoltage (mv ns : Nat) : Bool := decide ((mv < 44000 ∧ 100000 < ns) ∨ (mv < 48000 ∧ 1000000 < ns))

/-- INPUT_UNDERVOLTAGE (R370): beyond the limits the power stages stop. -/
def execInputUndervoltage (mv ns t : Nat) (s : State) : Host.Outcome State Fault Refusal :=
  if s.pins.pgood ∧ underVoltage mv ns then
    let s := (s.atWall t).powerLoss
    .next { s with pins := { s.pins with lockout := true } }
  else .next s

/-- BROWNOUT_RIDE (R368, R383): a dip below 48 V survived within ride-through. -/
def execBrownoutRide (mv ns : Nat) (s : State) : Host.Outcome State Fault Refusal :=
  if s.pins.pgood ∧ mv < 48000 ∧ !underVoltage mv ns then
    let s := s.note .brownoutRide []
    .next { s with pins := { s.pins with alertBrown := true }, smb := ⟨s.smb.status ||| 0x2008⟩ }
  else .next s

/-- MOD_RESET_N_LOW (R381): a low of 1 µs or more is a cold reset, and holds the module. -/
def execModResetNLow (lowNs t : Nat) (s : State) : Host.Outcome State Fault Refusal :=
  if lowNs < 1000 then .next s
  else
    let s := s.atWall t
    let s := { s with pins := { s.pins with resetN := false, resetFell := t } }
    .next (if s.pins.pgood then s.coldReset 1 else s)

/-- MOD_RESET_N_HIGH (R381): start-up resumes at the hub boot ROM. -/
def execModResetNHigh (t : Nat) (s : State) : Host.Outcome State Fault Refusal :=
  let s := s.atWall t
  let hold := if s.pins.hold = .cold ∧ s.pins.pgood then Hold.running else s.pins.hold
  .next { s with pins := { s.pins with resetN := true, hold }, tap := { s.tap with driving := false } }

/-- MOD_WARM_N (R382): a falling edge with a low of 1 µs or more, while MOD_RESET_N and MOD_PGOOD are high, requests a warm reset; within 1 µs
of a falling edge of MOD_RESET_N the reset is cold. The halted state is left only by a cold reset (R404). -/
def execModWarmN (lowNs t : Nat) (s : State) : Host.Outcome State Fault Refusal :=
  let s := s.atWall t
  let s := { s with pins := { s.pins with warmN := false, warmFell := t } }
  if lowNs < 1000 then .next { s with pins := { s.pins with warmN := true } }
  else if !s.pins.resetN ∨ !s.pins.pgood ∨ s.boot.phase = .halted ∨ s.boot.phase = .off then .next s
  else
    let s := if t ≤ s.pins.resetFell + 1000 ∧ s.pins.resetFell ≠ 0 then s.coldReset 1 else s.requestWarm 3
    .next { s with pins := { s.pins with hold := .warm } }

/-- MOD_WARM_N_HIGH (R382): the module resumes at the hub boot ROM. -/
def execModWarmNHigh (t : Nat) (s : State) : Host.Outcome State Fault Refusal :=
  let s := s.atWall t
  let hold := if s.pins.hold = .warm then Hold.running else s.pins.hold
  .next { s with pins := { s.pins with warmN := true, hold } }

/-- The leak trip (R374): rails stop, LEAK_N and MOD_ALERT_N fall, LEAK_TRIP goes to flash, then everything is off. -/
def State.leakTrip (s : State) : State :=
  let s := (s.note .leakTrip []).powerLoss
  { s with pins := { s.pins with leakN := false, alertLeak := true } }

/-- LEAK_TRIP (R374): the strip is found wet while the module is powered. -/
def execLeakTrip (s : State) : Host.Outcome State Fault Refusal :=
  .next (if s.pins.pgood then s.leakTrip else s)

end Sys2Proof.Machine
end

