-- ==== Sys2Proof/Machine/Smb.lean ====
section
/-! DEFINITION. Sys2Proof/Machine/Smb.lean: SMBus telemetry and the FRU EEPROM (spec/13 R383 to R386). -/

namespace Sys2Proof.Machine

open Sys2Proof

/-- A number num/den in PMBus LINEAR11: Y · 2^N with the finest N from −16 at which Y fits 11 signed bits, Y rounded to nearest. (PRESUMED, log 14) -/
def linear11 (num : Int) (den : Nat) : Nat :=
  let y (n : Int) : Int :=
    let a : Int := num * (2 ^ (16 : Nat) : Nat)
    let d : Int := den * (2 ^ (n + 16).toNat : Nat)
    (2 * a + d) / (2 * d)
  let ns : List Int := (List.range 32).map fun (i : Nat) => (i : Int) - 16
  match ns.find? fun n => decide (-1024 ≤ y n ∧ y n ≤ 1023) with
  | some n => (BitVec.ofInt 5 n).toNat * 2048 + (BitVec.ofInt 11 (y n)).toNat
  | none => 0

/-- The telemetry target answers: its address is 0x40 + MOD_SLOT and MOD_PGOOD is high (R384). -/
def State.smbHere (s : State) (addr : BitVec 7) : Bool := s.pins.pgood && decide (addr.toNat = 0x40 + s.pins.slot.toNat)

def State.emit (s : State) (o : Out) : State := { s with out := s.out ++ [o] }

/-- One byte into SMBus's CRC-8, x^8 + x^2 + x + 1. (PRESUMED, log 14) -/
def crc8Step (crc : Byte) (b : Byte) : Byte :=
  (List.range 8).foldl (fun (c : Byte) _ => if c.getLsbD 7 then (c <<< 1) ^^^ 7 else c <<< 1) (crc ^^^ b)

/-- The PEC of a transaction (R384): over every byte of it, the addresses among them. -/
def pecOf (bs : List Byte) : Byte := bs.foldl crc8Step 0

/-- The address byte of a transfer, its read bit lowest. -/
def addrByte (addr : BitVec 7) (read : Bool) : Byte := BitVec.ofNat 8 (2 * addr.toNat + b2n read)

/-- The PEC of a read: command, repeated start, data. -/
def readPec (addr : BitVec 7) (cmd : Byte) (bs : List Byte) : Byte := pecOf ([addrByte addr false, cmd, addrByte addr true] ++ bs)

/-- A read of the target with the PEC that the host may clock out after it, or a NACK. -/
def State.smbRead (s : State) (addr : BitVec 7) (cmd : Byte) (bs : List Byte) : State :=
  s.emit (if s.smbHere addr then .smbus (bs ++ [readPec addr cmd bs]) else .nack)

/-- A block read: the count first. (PRESUMED, log 14) -/
def block (bs : List Byte) : List Byte := BitVec.ofNat 8 bs.length :: bs

/-- Trips in the place of PMBus's IOUT_OC and TEMPERATURE bits. (PRESUMED, log 14) -/
def Power.statusBits (p : Power) : W16 :=
  (if p.rails.any (·.tripI) then 0x4010 else 0) ||| (if p.rails.any (·.tripT) then 0x0004 else 0)

/-- A write refused by the target: NACK, and CML (R385). -/
def State.smbRefuse (s : State) : State := { s with smb := ⟨s.smb.status ||| 2⟩ }.emit .nack

/-- CLEAR_FAULTS (R383, R385): conditions and status bits whose cause has ended. One with a wrong PEC is refused. (PRESUMED, log 14) -/
def execClearFaults (target : SmbTarget) (s : State) : Host.Outcome State Fault Refusal :=
  if !s.smbHere target.addr then .next (s.emit .nack)
  else if target.pec.any fun p => p != pecOf [addrByte target.addr false, 0x03] then .next s.smbRefuse
  else .next { s.releaseAlerts with smb := ⟨0⟩ }

/-- CAPABILITY (R385). -/
def execCapability (addr : BitVec 7) (s : State) : Host.Outcome State Fault Refusal := .next (s.smbRead addr 0x19 [0xB0])

/-- STATUS_WORD (R385). -/
def execStatusWord (addr : BitVec 7) (s : State) : Host.Outcome State Fault Refusal :=
  .next (s.smbRead addr 0x79 (leBytes 2 (s.smb.status ||| s.power.statusBits).toNat))

/-- READ_VIN (R385). -/
def execReadVin (addr : BitVec 7) (s : State) : Host.Outcome State Fault Refusal :=
  .next (s.smbRead addr 0x88 (leBytes 2 (linear11 s.readings.vinMv 1000)))

/-- READ_IIN (R385). -/
def execReadIin (addr : BitVec 7) (s : State) : Host.Outcome State Fault Refusal :=
  .next (s.smbRead addr 0x89 (leBytes 2 (linear11 s.readings.iinDa 10)))

/-- READ_TEMPERATURE_1: coolant inlet (R385). -/
def execReadTemperature1 (addr : BitVec 7) (s : State) : Host.Outcome State Fault Refusal :=
  .next (s.smbRead addr 0x8D (leBytes 2 (linear11 s.readings.inletT 16)))

/-- READ_TEMPERATURE_2: coolant outlet (R385). -/
def execReadTemperature2 (addr : BitVec 7) (s : State) : Host.Outcome State Fault Refusal :=
  .next (s.smbRead addr 0x8E (leBytes 2 (linear11 s.readings.outletT 16)))

/-- READ_TEMPERATURE_3: hottest junction of all islands (R385). -/
def execReadTemperature3 (addr : BitVec 7) (s : State) : Host.Outcome State Fault Refusal :=
  .next (s.smbRead addr 0x8F (leBytes 2 (linear11 (hottest s.power.islands).2 16)))

/-- READ_PIN (R385). -/
def execReadPin (addr : BitVec 7) (s : State) : Host.Outcome State Fault Refusal :=
  .next (s.smbRead addr 0x97 (leBytes 2 (linear11 s.readings.pinW 1)))

/-- PMBUS_REVISION (R385). -/
def execPmbusRevision (addr : BitVec 7) (s : State) : Host.Outcome State Fault Refusal := .next (s.smbRead addr 0x98 [0x33])

/-- MFR_ID (R385). -/
def execMfrId (addr : BitVec 7) (s : State) : Host.Outcome State Fault Refusal :=
  .next (s.smbRead addr 0x99 (block (ascii "SPEFIDA")))

/-- The part number (R1). -/
def partNumber : Part → String
  | .ywbl10 => "YW-BL10"
  | .ywbl10e => "YW-BL10E"

/-- MFR_MODEL (R385). -/
def execMfrModel (addr : BitVec 7) (s : State) : Host.Outcome State Fault Refusal :=
  .next (s.smbRead addr 0x9A (block (ascii (partNumber s.part))))

/-- MFR_SERIAL (R385). -/
def execMfrSerial (addr : BitVec 7) (s : State) : Host.Outcome State Fault Refusal :=
  .next (s.smbRead addr 0x9E (block (padTo 16 s.sec.serial)))

/-- MFR_POWER_STATE (R385, R523). -/
def execMfrPowerState (addr : BitVec 7) (s : State) : Host.Outcome State Fault Refusal :=
  .next (s.smbRead addr 0xD0 [BitVec.ofNat 8 s.power.state.code])

/-- MFR_LEAK (R385). -/
def execMfrLeak (addr : BitVec 7) (s : State) : Host.Outcome State Fault Refusal :=
  .next (s.smbRead addr 0xD1 [if s.pins.alertLeak then 1 else 0])

/-- MFR_READY (R385, R402). -/
def execMfrReady (addr : BitVec 7) (s : State) : Host.Outcome State Fault Refusal :=
  .next (s.smbRead addr 0xD2 [BitVec.ofNat 8 s.boot.step])

/-- MFR_GEO_FINGERPRINT (R385). -/
def execMfrGeoFingerprint (addr : BitVec 7) (s : State) : Host.Outcome State Fault Refusal :=
  .next (s.smbRead addr 0xD3 (block (beBytes 8 s.fp.toNat)))

/-- MFR_SLOT (R385). -/
def execMfrSlot (addr : BitVec 7) (s : State) : Host.Outcome State Fault Refusal :=
  .next (s.smbRead addr 0xD4 [s.pins.slot.setWidth 8])

/-- SMBUS_OTHER_WRITE (R385): every write but CLEAR_FAULTS is NACKed, and the target sets CML. -/
def execSmbusOtherWrite (addr : BitVec 7) (cmd : Byte) (s : State) : Host.Outcome State Fault Refusal :=
  if s.smbHere addr ∧ cmd ≠ 0x03 then .next s.smbRefuse else .next (s.emit .nack)

/-- SMBUS_ALERT_RESPONSE (R383): while MOD_ALERT_N is low the module answers at 0x0C with its own address, in the seven upper bits. -/
def execSmbusAlertResponse (s : State) : Host.Outcome State Fault Refusal :=
  let own : Byte := BitVec.ofNat 8 (2 * (0x40 + s.pins.slot.toNat))
  .next (s.emit (if s.pins.pgood ∧ !s.alertN then .smbus [own, pecOf [addrByte 0x0C true, own]] else .nack))

/-! The FRU EEPROM (R386), in the layout of the IPMI FRU Information Storage Definition v1.0. (PRESUMED, log 13) -/

/-- An 8-bit field: its type and length, then its bytes. -/
def fruField (bs : List Byte) : List Byte := BitVec.ofNat 8 (0xC0 + bs.length) :: bs

/-- The byte that makes the bytes sum to zero. -/
def zeroSum (bs : List Byte) : Byte := bs.foldl (fun a b => a - b) 0

/-- An area: format version, length in units of 8 bytes, body, end of fields, fill, checksum. -/
def fruArea (body : List Byte) : List Byte :=
  let n := ceilDiv (body.length + 4) 8
  let bs := padTo (8 * n - 1) ([1, BitVec.ofNat 8 n] ++ body ++ [0xC1])
  bs ++ [zeroSum bs]

/-- Board Info: date of manufacture, manufacturer, product name, serial number, part number, no file name. -/
def State.fruBoard (s : State) : List Byte :=
  fruArea ([0] ++ leBytes 3 Config.fruDate ++ fruField (ascii "Spefida") ++ fruField (ascii "Bolarron") ++ fruField (s.testRead 8 16)
    ++ fruField (ascii (partNumber s.part)) ++ fruField [])

/-- Product Info: the hardware revision letter, one 6-bit character, as the product version; its other fields are empty. -/
def State.fruProduct (s : State) : List Byte :=
  let letter := (leNat (s.testRead 7 1) + 32) % 64
  fruArea ([0] ++ fruField [] ++ fruField [] ++ fruField [] ++ [0x81, BitVec.ofNat 8 letter] ++ fruField [] ++ fruField [] ++ fruField [])

/-- A byte of the 8 KiB: common header, Board Info, Product Info; what lies after them is not given. (DESIGN CHOICE, log 65) -/
def State.fruByte (s : State) (i : Nat) : Byte :=
  let board := s.fruBoard
  let head : List Byte := [1, 0, 0, 1, BitVec.ofNat 8 (1 + board.length / 8), 0, 0]
  (head ++ [zeroSum head] ++ board ++ s.fruProduct).getD i (Config.fruByte i)

/-- FRU_EEPROM_READ (R384, R386): at 0x60 plus the level of the MOD_SLOT pins, while P3V3_AUX is present. -/
def execFruEepromRead (addr : BitVec 7) (off len : Nat) (pins : FruPins) (s : State) : Host.Outcome State Fault Refusal :=
  .next (s.emit (if pins.aux ∧ addr.toNat = 0x60 + pins.slot.toNat then
      .smbus ((List.range len).map fun i => s.fruByte ((off + i) % 8192))
    else .nack))

end Sys2Proof.Machine
end

