-- ==== Sys2Proof/Machine/TestPort.lean ====
section
/-! DEFINITION. Sys2Proof/Machine/TestPort.lean: the test access port (spec/13 R387, R388; spec/21 R614). -/

namespace Sys2Proof.Machine

open Sys2Proof

/-- The port is alive: powered, TRST_N high (R388). -/
def State.tapLive (s : State) : Bool := s.pins.pgood && s.pins.trstN

/-- Bits of bytes, byte 0 first, least significant bit first. -/
def bitStream (bs : List Byte) : List Bool := bs.flatMap fun b => (List.range 8).map fun i => b.getLsbD i

/-- An instruction is loaded, and bits shift out. -/
def State.loadIr (s : State) (ir : TapIr) (bits : List Bool) : State :=
  { s with tap := { s.tap with ir, driving := false }, out := s.out ++ [.tdo bits] }

/-- What BYPASS does: one 0 bit between TDI and TDO. -/
def State.tapBypass (s : State) : State := s.loadIr .bypass [false]

/-- BYPASS (R387). -/
def execBypass (s : State) : Host.Outcome State Fault Refusal := .next (if s.tapLive then s.tapBypass else s)

def idcodeOf : Part → Nat
  | .ywbl10 => 0x14B10B47
  | .ywbl10e => 0x14B11B47

/-- IDCODE (R387). -/
def execIdcode (s : State) : Host.Outcome State Fault Refusal :=
  .next (if s.tapLive then s.loadIr .idcode ((List.range 32).map fun i => (idcodeOf s.part).testBit i) else s)

/-- Bits of the boundary register. (DESIGN CHOICE, log 15) -/
def boundaryLen : Nat := 681

/-- Bits shifted into a register of `old` contents: the first register length of them, and what is left of the old ones where there are fewer. -/
def shiftIn (bits old : List Bool) : List Bool := bits.take boundaryLen ++ old.drop bits.length

/-- SAMPLE_PRELOAD (R387): the pins' levels shift out and the outputs are preloaded. Levels and bits beyond one register length are those of the scans of
EXTEST that follow. (DESIGN CHOICE, log 15) -/
def execSamplePreload (sample preload : List Bool) (s : State) : Host.Outcome State Fault Refusal :=
  if s.tapLive then
    let s := s.loadIr .samplePreload (sample.take boundaryLen)
    .next { s with tap := { s.tap with
      boundary := shiftIn preload s.tap.boundary, levels := sample.drop boundaryLen, shift := preload.drop boundaryLen } }
  else .next s

/-- EXTEST and its kind (R387, R388): only while MOD_RESET_N is low, else it acts as BYPASS. The boundary register drives the pins; one scan captures
the pins' levels, shifts them out and new values in, and drives those. (DESIGN CHOICE, log 15) -/
def State.extest (s : State) (ir : TapIr) : State :=
  if !s.tapLive then s
  else if s.pins.resetN then s.tapBypass
  else
    let next := shiftIn s.tap.shift s.tap.boundary
    { s with
      tap := { s.tap with
        ir, driving := true, boundary := next, levels := s.tap.levels.drop boundaryLen, shift := s.tap.shift.drop boundaryLen }
      out := s.out ++ [.driven ir s.tap.boundary, .tdo (s.tap.levels.take boundaryLen), .driven ir next] }

/-- EXTEST (R388). -/
def execExtest (s : State) : Host.Outcome State Fault Refusal := .next (s.extest .extest)

/-- EXTEST_PULSE (R388). -/
def execExtestPulse (s : State) : Host.Outcome State Fault Refusal := .next (s.extest .extestPulse)

/-- EXTEST_TRAIN (R388). -/
def execExtestTrain (s : State) : Host.Outcome State Fault Refusal := .next (s.extest .extestTrain)

/-- UNIT_TEST_INSTRUCTION (R388): BYPASS unless test access is unlocked; what it then does the manual does not say. (DEDUCED, log 16) -/
def execUnitTestInstruction (_unit : Nat) (s : State) : Host.Outcome State Fault Refusal :=
  if !s.tapLive then .next s
  else if s.tap.unlocked then .refused .unitTestEffect
  else .next s.tapBypass

/-- UNLOCK_CHALLENGE (R614): 192 bits. -/
def execUnlockChallenge (s : State) : Host.Outcome State Fault Refusal :=
  if s.tapLive then
    .next (s.loadIr .unlockChallenge (bitStream (leBytes 8 s.tap.challenge.toNat ++ padTo 16 s.sec.serial)))
  else .next s

/-- A token verifies (R614). -/
def State.tokenOk (s : State) (bs : List Byte) : Bool :=
  bs.length == 544 && leNat (bs.take 4) == 0x5957554C && slice bs 4 16 == padTo 16 s.sec.serial
    && leAt bs 20 8 == s.tap.challenge.toNat && slice bs 28 4 == zeros 4
    && pssVerify s.sec.testModulus s.sec.testExponent (bs.take 32) (bs.drop 32)

/-- UNLOCK_TOKEN (R614): the challenge changes after every token. -/
def execUnlockToken (bytes : List Byte) (s : State) : Host.Outcome State Fault Refusal :=
  if !s.tapLive then .next s
  else
    let ok := s.tokenOk bytes
    let s := if ok then s.note .testAccessUnlocked [] else (s.note .unlockRefused []).count Reg.secUnlockFails 1
    .next ({ s with tap := { s.tap with
      ir := .unlockToken, driving := false, unlocked := s.tap.unlocked || ok, challenge := s.free 0 } }.drew 1)

/-- TRST_N (R388): low puts the port in Test-Logic-Reset, where it has no effect. -/
def execTrstN (low : Bool) (s : State) : Host.Outcome State Fault Refusal :=
  let s := { s with pins := { s.pins with trstN := !low } }
  .next (if low then { s with tap := { s.tap with ir := .bypass, driving := false } } else s)

end Sys2Proof.Machine
end

