-- ==== Sys2Proof/Machine/EthNet.lean ====
section
/-! DEFINITION. Sys2Proof/Machine/EthNet.lean: the Ethernet and IP layers of the two ports (spec/15 R433 to R438): what a port accepts, flow control,
echo, neighbour resolution, and the ports' state. -/

namespace Sys2Proof.Machine

open Sys2Proof

def State.ethPort (s : State) (p : Fin 2) : EthPort := s.eth.getD p.val EthPort.reset
def State.setEth (s : State) (p : Fin 2) (e : EthPort) : State := { s with eth := modifyAt s.eth p.val fun _ => e }

/-- A register of a port (R462). -/
def ethReg (base : Nat) (p : Fin 2) : Nat := base + 0x100 * p.val

/-- The IPv6 link-local address formed from the port's MAC address (R435). -/
def State.linkLocal (s : State) (p : Fin 2) : Nat :=
  let m := s.mac p.val
  putBits 127 112 0xFE80 + putBits 63 40 ((bitsOf m 47 24) ^^^ 0x020000) + putBits 39 24 0xFFFE + bitsOf m 23 0

/-- An address of the port: its static address of the version, or its link-local address (R434). -/
def State.ownAddr (s : State) (p : Fin 2) (a : Addr) : Bool :=
  if a.ipv6 then
    let v := s.reg (ethReg Reg.ethIpv6Hi p) * 2 ^ 64 + s.reg (ethReg Reg.ethIpv6Lo p)
    (v != 0 && a.bits.toNat == v) || a.bits.toNat == s.linkLocal p
  else
    let v := bitsOf (s.reg (ethReg Reg.ethIpv4 p)) 31 0
    s.reg (ethReg Reg.ethIpv4 p) != 0 && a.bits.toNat == v

/-- The port has an IP address of some version (R436). -/
def State.hasAddr (s : State) (p : Fin 2) : Bool :=
  s.reg (ethReg Reg.ethIpv4 p) != 0 || s.reg (ethReg Reg.ethIpv6Hi p) != 0 || s.reg (ethReg Reg.ethIpv6Lo p) != 0

/-- The VLAN rule: the port's VLAN tagged, or no tag (R434, R435). -/
def vlanOk (reg : Nat) (tag : Option (BitVec 12)) : Bool :=
  match tag with
  | some v => (reg.testBit 12) && v.toNat == bitsOf reg 11 0
  | none => !(reg.testBit 12)

/-- Bytes in the receive buffer of a port, and the levels of R437. -/
def rxBuffer : Nat := 0x400000
def xoffAbove : Nat := 0x300000
def xonBelow : Nat := 0x200000

/-- What waits in the buffer when a frame arrives: as much as the frame's operand says of what was there, since the buffer only drains between arrivals. -/
def State.waiting (s : State) (f : Frame) : Nat := min f.buffered (s.ethPort f.port).level

def State.fits (s : State) (f : Frame) : Bool := decide (s.waiting f + f.frameLen ≤ rxBuffer)

/-- What the receive buffer holds once the frame has arrived; a bad FCS keeps a frame out. -/
def State.levelAfter (s : State) (f : Frame) : Nat := if f.fcsOk && s.fits f then s.waiting f + f.frameLen else s.waiting f

/-- The ingest priority of a port: the ingest PCP of ETH_VLAN. -/
def State.ingestPrio (s : State) (p : Fin 2) : Nat := bitsOf (s.reg (ethReg Reg.ethVlan p)) 22 20

/-- The port must send XOFF, or XON (R437). -/
def State.needXoff (s : State) (f : Frame) : Bool :=
  f.fcsOk && (s.reg (ethReg Reg.ethPfc f.port)).testBit (s.ingestPrio f.port) && decide (xoffAbove < s.levelAfter f) && !(s.ethPort f.port).xoff

def State.needXon (s : State) (f : Frame) : Bool :=
  f.fcsOk && decide (s.levelAfter f < xonBelow) && (s.ethPort f.port).xoff

/-- XOFF or XON of the ingest priority goes out and is counted. -/
def State.sendPfc (s : State) (p : Fin 2) (stop : Bool) : State :=
  { s.setEth p { s.ethPort p with xoff := stop } with
    out := s.out ++ [.pfc p (s.ingestPrio p) stop], regs := regAdd s.regs (ethReg Reg.ethPfcSent p) 1 }

/-- A frame's arrival moves the receive buffer's level (R437). (DESIGN CHOICE, log 53) -/
def State.flow (s : State) (f : Frame) : State :=
  let turn := s.needXoff f || s.needXon f
  let s := s.setEth f.port { s.ethPort f.port with level := s.levelAfter f }
  if turn then s.sendPfc f.port (!(s.ethPort f.port).xoff) else s

/-- Gb/s of a port (R433). -/
def State.ethRate (s : State) (p : Fin 2) : Nat :=
  match bitsOf (s.reg (ethReg Reg.ethPortCtrl p)) 2 1 with
  | 0 => 400
  | 1 => 200
  | _ => 100

/-- The receive buffer drains at line rate while time passes and nothing arrives; below 2 MiB a port that sent XOFF sends XON (R437). (DESIGN CHOICE,
log 53) -/
def State.drainPort (s : State) (p : Fin 2) (ns : Nat) : State :=
  let e := s.ethPort p
  let n := e.level - ns * s.ethRate p / 8
  let on := e.xoff && decide (n < xonBelow)
  { s with
    eth := modifyAt s.eth p.val fun e => { e with level := n, xoff := e.xoff && !on }
    out := if on then s.out ++ [.pfc p (s.ingestPrio p) false] else s.out
    regs := if on then regAdd s.regs (ethReg Reg.ethPfcSent p) 1 else s.regs }

/-- The rules of R434 to R437 for a frame with a good FCS, UDP ports aside: one that the receive buffer has no room for fails them. -/
def State.layersOk (s : State) (f : Frame) : Bool :=
  f.dstMac.toNat == s.mac f.port.val && vlanOk (s.reg (ethReg Reg.ethVlan f.port)) f.vlan && decide (f.frameLen ≤ 9216)
    && decide (f.ipLen ≤ s.reg (ethReg Reg.ethMtu f.port)) && !f.unsupported && s.ownAddr f.port f.dst
    && (f.sum == .right || (f.sum == .none && !f.dst.ipv6)) && s.fits f

/-- What every received frame counts: FEC codewords, the frame, a bad FCS, a CE mark. -/
def State.countFrame (s : State) (f : Frame) : State :=
  let r := regAdd s.regs (ethReg Reg.ethFecCorrected f.port) f.fecCorrected
  let r := regAdd r (ethReg Reg.ethFecUncorrected f.port) f.fecUncorrected
  let r := if f.fcsOk then regAdd r (ethReg Reg.ethRxFrames f.port) 1 else regAdd r (ethReg Reg.ethFcsErrors f.port) 1
  { s with regs := if f.fcsOk ∧ f.ce then regAdd r (ethReg Reg.ethCeReceived f.port) 1 else r }

def State.dropFrame (s : State) (f : Frame) : State := s.count (ethReg Reg.ethDropped f.port) 1

/-- A frame at a port that is up: counted, and passed on when its layers and its UDP port are right. (DEDUCED, log 5) -/
def State.frameIn (s : State) (f : Frame) (portReg : Nat) (k : State → State) : State :=
  if !s.netUp ∨ !(s.ethPort f.port).up then s
  else
    let ok := s.layersOk f
    let s := (s.flow f).countFrame f
    if !f.fcsOk then s
    else if ok ∧ f.dstPort.toNat = s.reg portReg then k s
    else s.dropFrame f

/-- Frames held by a pause go out, oldest first (R437). -/
def State.flushPaused (s : State) (p : Fin 2) : State :=
  let e := s.ethPort p
  let held (q : Nat × Out) : Bool := e.paused.any fun x => x.1 == q.1 && decide (s.counter < x.2)
  let go := e.txq.filter fun q => !held q
  { s.setEth p { e with txq := e.txq.filter held } with
    out := s.out ++ go.map (·.2), regs := regAdd s.regs (ethReg Reg.ethTxFrames p) go.length }

/-- PFC_FRAME (R437): each priority named stops for its quanta of 512 bit times; none of them resumes it. -/
def execPfcFrame (port : Fin 2) (times : List (Nat × Nat)) (t : Nat) (s : State) : Host.Outcome State Fault Refusal :=
  let s := s.at t
  let e := s.ethPort port
  if !s.netUp ∨ !e.up then .next s
  else
    let s := s.count (ethReg Reg.ethPfcReceived port) 1
    let rate := s.ethRate port
    let paused := times.foldl
      (fun ps (prio, quanta) =>
        let ps := ps.filter fun x => x.1 != prio
        if quanta = 0 then ps else ps ++ [(prio, s.counter + ceilDiv (512 * quanta) rate)])
      e.paused
    .next ((s.setEth port { e with paused }).flushPaused port)

/-- PFC_PAUSE_EXPIRY (R437): the pause of a priority is over; what it held is sent. -/
def execPfcPauseExpiry (port : Fin 2) (prio t : Nat) (s : State) : Host.Outcome State Fault Refusal :=
  let s := s.at t
  let e := s.ethPort port
  let paused := e.paused.filter fun x => !(x.1 == prio && decide (x.2 ≤ s.counter))
  .next ((s.setEth port { e with paused }).flushPaused port)

/-- ICMP_ECHO (R434): an echo request to an own address is answered. -/
def execIcmpEcho (f : Frame) (s : State) : Host.Outcome State Fault Refusal :=
  if !s.netUp ∨ !(s.ethPort f.port).up then .next s
  else
    let ok := s.layersOk f
    let s := (s.flow f).countFrame f
    if !f.fcsOk then .next s
    else if ok then .next (s.sendUdp f.port false f.src fun h => .echo f.port h f.src f.payload)
    else .next (s.dropFrame f)

/-- A frame that waited, with its hop's MAC. -/
def Out.withMac (o : Out) (mac : BitVec 48) : Out :=
  match o with
  | .udp p h d a b bs => .udp p { h with dstMac := mac } d a b bs
  | .echo p h d bs => .echo p { h with dstMac := mac } d bs
  | o => o

/-- A neighbour's MAC is known: what waited for it goes, oldest first. -/
def State.resolved (s : State) (port : Fin 2) (hop : Addr) (mac : BitVec 48) : State :=
  let e := s.ethPort port
  let go := e.unresolved.filter fun x => x.1 == hop
  let s := s.setEth port { e with
    neighbours := (hop, mac) :: e.neighbours.filter fun n => n.1 != hop, unresolved := e.unresolved.filter fun x => x.1 != hop }
  go.foldl (fun s x => s.sendRaw port x.2.1 (x.2.2.withMac mac)) s

/-- NEIGHBOUR_RESOLUTION (R434): a frame of ARP or neighbour discovery, dropped when its VLAN is not the port's (R435). The sender's address and MAC are
kept, and a question for an own address is answered with the port's MAC. -/
def execNeighbourResolution (port : Fin 2) (sender : NeighbourFrom) (mac : BitVec 48) (asked : Option Addr) (s : State) :
    Host.Outcome State Fault Refusal :=
  if !s.netUp ∨ !(s.ethPort port).up then .next s
  else
    let s := s.count (ethReg Reg.ethRxFrames port) 1
    if !vlanOk (s.reg (ethReg Reg.ethVlan port)) sender.vlan then .next (s.count (ethReg Reg.ethDropped port) 1)
    else
      let s := s.resolved port sender.addr mac
      match asked with
      | some a =>
        if s.ownAddr port a then
          .next (s.sendRaw port (s.sendPrio port false)
            (.neighbour port (s.ethHead port false sender.addr.ipv6 mac) sender.addr (BitVec.ofNat 48 (s.mac port.val))))
        else .next s
      | none => .next s

/-- The lanes that a rate uses (R433). -/
def rateLanes (rate : Nat) : Nat := if rate = 400 then 4 else if rate = 200 then 2 else 1

/-- The hub selects the pluggable's application for the port's rate and squelches the lanes that it does not use (R433). -/
def State.selectApp (s : State) (p : Fin 2) (rate : Nat) : State :=
  s.setEth p { s.ethPort p with app := rate, squelched := (List.range 4).drop (rateLanes rate) }

/-- A port's link goes up or down (R465). -/
def State.ethLink (s : State) (p : Fin 2) (up : Bool) : State :=
  let e := s.ethPort p
  if e.up = up then s
  else (s.setEth p { e with up, fecAligned := up, plugged := e.plugged || up }).note .ethLinkChange []

/-- A port that may come up: enabled, and its record sets an address (R436, R462). In the defaults state, which takes sessions (R421), no record keeps the
port down, and it has its link-local address (R435). (DEDUCED, log 5) -/
def State.ethEnabled (s : State) (p : Fin 2) : Bool := (s.reg (ethReg Reg.ethPortCtrl p)).testBit 0 && (s.hasAddr p || s.defaults)

/-- ETH_PORT_RETRY (R403 step 10): a port that was not up in time retries once per second. -/
def execEthPortRetry (port : Fin 2) (up : Bool) (s : State) : Host.Outcome State Fault Refusal :=
  .next (if s.up ∧ s.ethEnabled port ∧ up then s.ethLink port true else s)

/-- ETH_LINK_CHANGE (R462, R465): a port went up or down, or its pluggable came or went. -/
def execEthLinkChange (port : Fin 2) (seen : EthSeen) (s : State) : Host.Outcome State Fault Refusal :=
  .next (if s.netUp ∧ (!seen.up ∨ s.ethEnabled port) then
      let s := s.ethLink port seen.up
      s.setEth port { s.ethPort port with plugged := seen.plugged || seen.up }
    else s)

end Sys2Proof.Machine
end

