-- ==== Sys2Proof/Machine/Campion.lean ====
section
/-! DEFINITION. Sys2Proof/Machine/Campion.lean: the Campion control protocol (spec/15 R439 to R453): frame checks, opening and ending sessions, reliable
delivery, and the acceptance of commands (spec/16 R470 to R473). -/

namespace Sys2Proof.Machine

open Sys2Proof

/-! Frames. -/

/-- A control frame as read (R440). -/
structure CtrlFrame where
  type : Nat
  flags : Nat
  sess : Nat
  gen : Nat
  seq : Nat
  ack : Nat
  reqId : W64
  /-- Header and body, over which the trailer is taken. -/
  signed : List Byte
  header : List Byte
  body : List Byte
  trailer : List Byte

/-- The frame types of R441. -/
def knownType (t : Nat) : Bool := (decide (1 ≤ t ∧ t ≤ 11)) || t == 0x10 || t == 0x11 || t == 0x12

/-- VERSION 0x01, a known TYPE, LENGTH equal to the payload less 64 (R442). -/
def parseCtrl (bs : List Byte) : Option CtrlFrame :=
  let h := leNat (bs.take 32)
  let n := bitsOf h 223 208
  if 64 ≤ bs.length ∧ bitsOf h 255 248 = 1 ∧ knownType (bitsOf h 247 240) ∧ n = bs.length - 64 then
    some { type := bitsOf h 247 240, flags := bitsOf h 239 232, sess := bitsOf h 231 228, gen := bitsOf h 207 192
           seq := bitsOf h 191 144, ack := bitsOf h 143 96, reqId := BitVec.ofNat 64 (bitsOf h 95 32)
           signed := bs.take (32 + n), header := bs.take 32, body := slice bs 32 n, trailer := bs.drop (32 + n) }
  else none

/-- An unauthenticated reply, at most CMP_UNAUTH_RATE of them in a second (R442): whether it was sent. -/
def State.sendUnauth (s : State) (f : Frame) (type : Nat) (status : Status) (body : List Byte) : State × Bool :=
  let sec := s.counter / 1000000000
  let n := if s.cmp.unauthSec = sec then s.cmp.unauthCount else 0
  if s.reg Reg.cmpUnauthRate ≤ n then (s, false)
  else
    let bs := leBytes 32 (ctrlHeader type 0 0 body.length 0 0 0 0 status.code) ++ body ++ zeros 32
    let s := { s with cmp := { s.cmp with unauthSec := sec, unauthCount := n + 1 } }
    (s.sendUdp f.port false f.src fun h => .udp f.port h f.src f.dstPort f.srcPort bs, true)

/-- A control frame of a row's type, through the checks of R442 that come before its kind. A frame of another type is that other row's. -/
def State.ctrlIn (s : State) (type : Nat) (f : Frame) (t : Nat) (k : State → CtrlFrame → State) : State :=
  (s.at t).frameIn f Reg.cmpCtrlPort fun s =>
    match parseCtrl f.payload with
    | some c => if c.type = type then k s c else s.dropFrame f
    | none => s.dropFrame f

/-! Authenticated frames (R442, R447 to R450). -/

/-- What the host has acknowledged leaves the buffer, and what was held back follows (R448). -/
def State.takeAck (s : State) (i ack : Nat) : State :=
  let x := s.session i
  if x.txAcked < ack ∧ ack < x.txSeq then
    (s.setSession i { x with txAcked := ack, unacked := x.unacked.filter fun f => decide (ack < f.seq) }).flushWaiting i
  else s

/-- The session and MAC checks; a frame that passes moves the session to its port and source, is heard, and its ACK is taken. -/
def State.authIn (s : State) (type : Nat) (f : Frame) (t : Nat) (k : State → CtrlFrame → State) : State :=
  s.ctrlIn type f t fun s c =>
    let x := s.session c.sess
    if !x.isOpen ∨ x.gen ≠ c.gen then
      let (s, sent) := s.sendUnauth f 0x0B .sessionStale []
      if sent then s.count Reg.cmpStale 1 else s
    else if c.trailer ≠ hmac256 x.key c.signed then s.count Reg.cmpMacFail 1
    else
      let s := s.setSession c.sess { x with
        port := f.port, peer := f.src, peerPort := f.srcPort, localPort := f.dstPort, heard := s.counter
        ceEcho := x.ceEcho || f.ce }
      k (s.takeAck c.sess c.ack) c

/-- A delivered frame that nothing answered is acknowledged (R447). -/
def State.ackIfDue (s : State) (i : Nat) : State :=
  let x := s.session i
  if x.isOpen ∧ x.ackSent + 1 < x.rxNext then s.sendAck i else s

/-! Acceptance (R452, R473). -/

/-- The queue a command runs on. -/
inductive Runs where
  | queue | mgmt | imm
  deriving DecidableEq, Repr

/-- The operations of R472: the queue and whether a parameter length is the operation's. -/
def opInfo (family op len : Nat) : Option (Runs × Bool) :=
  match family, op with
  | 0x01, 0x01 => some (.imm, len == 0)
  | 0x01, 0x02 => some (.imm, len == 1)
  | 0x01, 0x03 => some (.imm, len == 32)
  | 0x02, 0x01 => some (.mgmt, decide (64 ≤ len))
  | 0x02, 0x02 => some (.mgmt, len == 1)
  | 0x02, 0x03 => some (.queue, decide (9 ≤ len))
  | 0x02, 0x04 => some (.queue, len == 22)
  | 0x02, 0x05 => some (.queue, len == 80)
  | 0x02, 0x06 => some (.queue, len == 2)
  | 0x03, 0x01 => some (.queue, len == 16)
  | 0x03, 0x02 => some (.mgmt, len == 1)
  | 0x03, 0x03 => some (.mgmt, len == 1)
  | 0x03, 0x04 => some (.mgmt, len == 1)
  | 0x04, 0x01 => some (.queue, len == 64)
  | 0x05, 0x01 => some (.queue, decide (64 ≤ len))
  | 0x05, 0x02 => some (.queue, len == 4)
  | 0x05, 0x03 => some (.queue, len == 2048)
  | 0x06, 0x01 => some (.mgmt, len == 1)
  | 0x06, 0x02 => some (.mgmt, len == 0)
  | 0x06, 0x03 => some (.mgmt, len == 0)
  | 0x06, 0x04 => some (.mgmt, len == 1)
  | 0x07, 0x01 => some (.imm, len == 10)
  | 0x07, 0x02 => some (.imm, decide (16 ≤ len) && len % 8 == 0)
  | 0x08, 0x01 => some (.mgmt, decide (len ≤ 4096))
  | 0x09, 0x01 => some (.mgmt, len == 4096)
  | 0x09, 0x02 => some (.mgmt, decide (9 ≤ len))
  | 0x09, 0x03 => some (.mgmt, len == 2)
  | 0x09, 0x04 => some (.mgmt, len == 0)
  | 0x0A, 0x01 => some (.imm, len == 10)
  | 0x0A, 0x02 => some (.imm, len == 0)
  | 0x0A, 0x03 => some (.imm, len == 8)
  | 0x0B, 0x01 => some (.imm, len == 8)
  | 0x0B, 0x02 => some (.imm, len == 16)
  | _, _ => none

/-- The entries that the ring's copies hold, in ascending JSEQ of the slots listed. -/
def Journal.entries (j : Journal) : List W256 :=
  let m := if j.svc.testBit 0 then j.mirror else if j.svc.testBit 1 then j.copy1 else j.copy2
  sortBy (fun a b => decide (a.toNat / 2 ^ 192 < b.toNat / 2 ^ 192)) (m.filterMap fun e => (j.readSlot e.1).1)

/-- The duplicate check of R452, over the ring and the outstanding table: the original's sequence number and its last status. -/
def Journal.lookup (j : Journal) (slot : Nat) (reqId : W64) : Option (Nat × Nat) :=
  let hits := (j.outstanding.map (·.2) ++ j.entries).filter fun e =>
    bitsOf e.toNat 111 109 == slot && bitsOf e.toNat 191 128 == reqId.toNat && reqId != 0
  match hits with
  | [] => none
  | e :: es =>
    let jseqs := (e :: es).map fun e => bitsOf e.toNat 255 192
    let first := jseqs.foldl min (bitsOf e.toNat 255 192)
    let last := (e :: es).foldl (fun a b => if bitsOf a.toNat 255 192 ≤ bitsOf b.toNat 255 192 then b else a) e
    some (first, bitsOf last.toNat 101 86)

/-- A command header (R470). -/
structure CmdHdr where
  family : Nat
  op : Nat
  part : Nat
  queue : Nat
  notify : Bool
  plen : Nat
  after : Nat
  reserved : Bool

def parseCmd (bs : List Byte) : CmdHdr :=
  let h := leNat (bs.take 32)
  { family := bitsOf h 255 248, op := bitsOf h 247 240, part := bitsOf h 239 237, queue := bitsOf h 236 234
    notify := bitOf h 233, plen := bitsOf h 223 208, after := bitsOf h 191 128
    reserved := bitsOf h 232 224 != 0 || bitsOf h 207 192 != 0 || bitsOf h 127 0 != 0 }

/-- The result of an immediate command by its family and operation. -/
def State.immResult (s : State) (family op sess : Nat) (params : List Byte) : ImmOut :=
  match family, op with
  | 0x01, 0x01 => s.sessList params
  | 0x01, 0x02 => s.sessEnd sess params
  | 0x01, 0x03 => s.attest params
  | 0x07, 0x01 => s.regRead params
  | 0x07, 0x02 => s.regWrite params
  | 0x0A, 0x01 => s.jnlReadCmd params
  | 0x0A, 0x02 => s.jnlOutstanding params
  | 0x0A, 0x03 => s.jnlResult params
  | 0x0B, 0x01 => s.evtRead sess params
  | 0x0B, 0x02 => s.evtCursor sess params
  | _, _ => .error .badCommand

/-- Checks 1 to 6 of R473: the status that refuses a complete command, with the body of a DUPLICATE_REQUEST. (DEDUCED, log 25) -/
def State.refuses (s : State) (slot : Nat) (reqId : W64) (bs : List Byte) : Option (Status × List Byte) :=
  let h := parseCmd bs
  let info := opInfo h.family h.op (bs.length - 32)
  if reqId = 0 then some (.badCommand, [])
  else
    match s.jnl.lookup slot reqId with
    | some (j, st) => some (.duplicateRequest, leBytes 8 j ++ leBytes 2 st)
    | none =>
      if reqId.toNat ≤ s.jnl.floors.getD slot 0 then some (.requestTooOld, [])
      else
        match info with
        | none => some (.badCommand, [])
        | some (runs, lenOk) =>
          let q := if runs = .queue then (s.partition h.part).queues.getD h.queue CmdQueue.reset else s.mgmt
          if bs.length < 32 ∨ h.reserved ∨ h.plen ≠ bs.length - 32 ∨ !lenOk
              ∨ (runs ≠ .queue ∧ (h.part ≠ 0 ∨ h.queue ≠ 0)) then some (.badCommand, [])
          else if runs = .queue ∧ ((s.partition h.part).state = .empty ∨ !(s.partition h.part).qmask.testBit h.queue) then
            some (.noPartition, [])
          else if h.family = 0x02 ∧ h.op = 0x01 ∧ s.defaults then some (.configDefaults, [])
          else if runs ≠ .imm ∧ (if runs = .queue then 256 else 64) ≤ q.cmds.length then some (.queueFull, [])
          else if s.jnl.last < h.after then some (.badCommand, [])
          else if s.jnl.era + 2 ^ 44 ≤ s.jnl.last + 1 then some (.journalFull, [])
          else none

/-- A queued or management command is accepted: its ACCEPTED entry, its place in the queue and in the outstanding table, then the RESPONSE
(R473, R491). (DEDUCED, log 25) -/
def State.acceptQueued (s : State) (sess : Nat) (reqId : W64) (h : CmdHdr) (mgmt : Bool) (params : List Byte) : State :=
  let x := s.session sess
  let c : Cmd :=
    { jseq := s.jnl.last + 1, reqId, slot := x.slot, sess, sessGen := x.gen, family := h.family, op := h.op, part := h.part
      queue := h.queue, mgmt, notify := h.notify, after := h.after, params, started := false, restart := false }
  let e := c.entry c.jseq .accepted Status.ok.code c.summary
  let q := s.queueOf c
  let s := s.setQueue c { q with cmds := q.cmds ++ [c] }
  let j := s.jnl.append e
  ({ s with jnl := { j with outstanding := j.outstanding ++ [(c.jseq, e)] } }).respond sess reqId .ok (leBytes 8 c.jseq)

/-- The recovery loader's UPDATE family: it keeps no journal and runs each command as it is delivered; a successful UPD_ACTIVATE resets
the module cold (R612). -/
def State.loaderUpdate (s : State) (sess : Nat) (reqId : W64) (h : CmdHdr) (params : List Byte) : State :=
  let slot := (s.session sess).slot
  let (s, st) :=
    match h.op with
    | 0x01 => s.updBegin slot params
    | 0x02 => s.updData slot params ⟨0, 0⟩
    | 0x03 => s.updActivate slot params
    | _ => s.updAbort slot
  let s := s.respond sess reqId st (leBytes 8 0)
  let s := if h.notify then s.sendS sess 0x12 0 reqId st.code (leBytes 8 0) else s
  if h.op = 0x03 ∧ st = .ok then s.coldReset 2 else s

/-- A complete command under the recovery loader (R612). -/
def State.loaderCommand (s : State) (sess : Nat) (reqId : W64) (bs : List Byte) : State :=
  let h := parseCmd bs
  let params := bs.drop 32
  match opInfo h.family h.op params.length with
  | none => s.respond sess reqId .badCommand []
  | some (_, lenOk) =>
    if bs.length < 32 ∨ h.reserved ∨ h.plen ≠ params.length ∨ !lenOk then s.respond sess reqId .badCommand []
    else if h.family = 0x09 then s.loaderUpdate sess reqId h params
    else if (h.family = 0x01 ∧ h.op = 0x03)
        ∨ (h.family = 0x07 ∧ h.op = 0x01 ∧ (leAt params 0 1 = 0x0B ∨ leAt params 0 1 = 0x0C)) then
      s.immediate h.family h.op sess reqId (s.immResult h.family h.op sess params)
    else s.respond sess reqId .recoveryMode []

/-- A complete command arrives (R473). -/
def State.acceptCommand (s : State) (sess : Nat) (reqId : W64) (bs : List Byte) : State :=
  if s.boot.phase = .recovery then s.loaderCommand sess reqId bs
  else
    let s := s.checkRing
    match s.refuses (s.session sess).slot reqId bs with
    | some (st, body) =>
      let s := s.count Reg.jnlRefused 1
      let s := if st = .duplicateRequest then s.count Reg.cmpDuplicates 1 else s
      s.respond sess reqId st body
    | none =>
      let h := parseCmd bs
      let params := bs.drop 32
      match opInfo h.family h.op params.length with
      | some (.imm, _) =>
        let r := s.immResult h.family h.op sess params
        let s' := s.immediate h.family h.op sess reqId r
        match r with
        | .ok (st, _, _) => if h.notify then s'.sendS sess 0x12 0 reqId st.code (leBytes 8 s'.jnl.last) else s'
        | .error _ => s'
      | some (runs, _) => s.acceptQueued sess reqId h (decide (runs = .mgmt)) params
      | none => s

/-- A COMMAND frame delivered in order: frames under MORE are put together; a command of more than 64 KiB is refused when its first frame
shows its length (R451). -/
def State.deliverCommand (s : State) (i : Nat) (f : RxFrame) : State :=
  let x := s.session i
  let more := f.flags.testBit 0
  let p : Partial :=
    match x.part with
    | some p => if p.reqId = f.reqId then p else ⟨f.reqId, [], false⟩
    | none => ⟨f.reqId, [], false⟩
  let isFirst := p.bytes.isEmpty && !p.tooLarge
  let bytes := p.bytes ++ f.body
  let big := decide (65536 < bytes.length) || (isFirst && decide (32 ≤ bytes.length ∧ 65504 < (parseCmd bytes).plen))
  if p.tooLarge then s.setSession i { x with part := if more then some p else none }
  else if big then
    (s.setSession i { x with part := if more then some ⟨f.reqId, [], true⟩ else none }).respond i f.reqId .commandTooLarge []
  else if more then s.setSession i { x with part := some { p with bytes } }
  else (s.setSession i { x with part := none }).acceptCommand i f.reqId bytes

/-! Delivery (R447). -/

/-- A pair of UTC and counter value, newest first, the last 16 kept (R569). -/
def State.recordTime (s : State) (utc : Nat) : State :=
  let s := s.note .timeRecorded [utc, s.counter]
  { s with lif := { s.lif with pairs := ((utc, s.counter) :: s.lif.pairs).take 16 } }

/-- One host frame delivered. -/
def State.deliver (s : State) (i : Nat) (f : RxFrame) : State :=
  if f.type = 0x07 then (s.sendAck i).endSession i
  else if f.type = 0x0A then s.recordTime (leAt f.body 0 8)
  else if f.type = 0x10 then s.deliverCommand i f
  else s

/-- Frames in SEQ order while the next one is here. -/
def State.deliverAll : Nat → State → Nat → State
  | 0, s, _ => s
  | n + 1, s, i =>
    let x := s.session i
    match x.held.find? fun f => f.seq == x.rxNext with
    | none => s
    | some f =>
      let s := s.setSession i { x with rxNext := x.rxNext + 1, held := x.held.filter fun g => g.seq != f.seq }
      State.deliverAll n (s.deliver i f) i

/-- The sequence rules for a frame of type S (R447). -/
def State.sequence (s : State) (i : Nat) (f : RxFrame) : State :=
  let x := s.session i
  if f.seq < x.rxNext then s.sendAck i
  else if x.rxNext + 64 < f.seq then s
  else
    let held := if x.held.any fun g => g.seq == f.seq then x.held else x.held ++ [f]
    (State.deliverAll 65 (s.setSession i { x with held }) i).ackIfDue i

def CtrlFrame.rx (c : CtrlFrame) : RxFrame := ⟨c.seq, c.type, c.flags, c.reqId, c.body⟩

/-- A frame of an authenticated, numbered type. -/
def State.numberedIn (s : State) (type : Nat) (f : Frame) (t : Nat) : State :=
  s.authIn type f t fun s c => s.sequence c.sess c.rx

/-- CLOSE (R446): acknowledged, then the session ends. (DEDUCED, log 26) -/
def execClose (f : Frame) (t : Nat) (s : State) : Host.Outcome State Fault Refusal := .next (s.numberedIn 0x07 f t)

/-- ACK (R447): carries ACK and nothing else. -/
def execAck (f : Frame) (t : Nat) (s : State) : Host.Outcome State Fault Refusal :=
  .next (s.authIn 0x08 f t fun s _ => s)

/-- KEEPALIVE (R441). -/
def execKeepalive (f : Frame) (t : Nat) (s : State) : Host.Outcome State Fault Refusal := .next (s.numberedIn 0x09 f t)

/-- TIME_SET (R441, R569). -/
def execTimeSet (f : Frame) (t : Nat) (s : State) : Host.Outcome State Fault Refusal := .next (s.numberedIn 0x0A f t)

/-- COMMAND (R451, R473). -/
def execCommand (f : Frame) (t : Nat) (s : State) : Host.Outcome State Fault Refusal := .next (s.numberedIn 0x10 f t)

/-! Opening (R443 to R446). -/

/-- CERT_REQ (R441): part of the chain, as much as ETH_MTU allows. -/
def execCertReq (f : Frame) (t : Nat) (s : State) : Host.Outcome State Fault Refusal :=
  .next (s.ctrlIn 0x01 f t fun s c =>
    let off := leAt c.body 0 4
    let room := s.reg (ethReg Reg.ethMtu f.port) - (if f.src.ipv6 then 40 else 20) - 8 - 64 - 4
    (s.sendUnauth f 0x02 .ok (leBytes 4 off ++ slice s.sec.chain off (min (leAt c.body 4 4) room))).1)

/-- OPEN_ID (R444, R445): at most 16 pending, the oldest makes way. -/
def execOpenId (f : Frame) (t : Nat) (s : State) : Host.Outcome State Fault Refusal :=
  .next (s.ctrlIn 0x03 f t fun s c =>
    let p : PendingId := ⟨s.counter, f.src, f.srcPort, leAt c.body 0 1, beNat (slice c.body 4 4), beNat (slice c.body 8 512)⟩
    let ps := s.cmp.pendingIds ++ [p]
    { s with cmp := { s.cmp with pendingIds := ps.drop (ps.length - 16) } })

/-- The digest a host key slot holds: of the record in force, or, in the defaults state, of the last one applied (R443). -/
def State.hostKey (s : State) (slot : Nat) : List Byte :=
  if s.defaults ∨ s.boot.phase = .recovery then s.lif.hostKeys.getD slot []
  else (List.range 8).flatMap fun w => beBytes 8 (s.reg (Reg.cmpHostKey + 64 * slot + 8 * w))

def emptyKey (k : List Byte) : Bool := k.all (· == 0)

/-- A configuration record has ever been applied here (R443): one is in force, a copy that was written back stands in the flash, or keys were kept of one.
(DEDUCED, log 26) -/
def State.everApplied (s : State) : Bool :=
  (s.boot.phase != .recovery && !s.defaults) || (s.cfgCopy false).isSome || (s.cfgCopy true).isSome
    || s.lif.hostKeys.any fun k => !emptyKey k

/-- The slot that a key opens: its own when the digest matches, slot 0 when no record has ever been applied (R443, R445). (DEDUCED, log 26) -/
def State.keySlot (s : State) (p : PendingId) : Option Nat :=
  if !s.everApplied ∧ (List.range 8).all fun i => emptyKey (s.hostKey i) then some 0
  else if p.slot < 8 ∧ !emptyKey (s.hostKey p.slot) ∧ s.hostKey p.slot = sha512 (keyForm p.modulus p.exponent) then some p.slot
  else none

/-- The session key of an OPEN_KEY under every check of R445, and its slot. -/
def State.openKeyOk (s : State) (f : Frame) (c : CtrlFrame) : Option (Nat × List Byte) :=
  match (s.cmp.pendingIds.reverse).find? fun p => p.src == f.src && p.srcPort == f.srcPort with
  | none => none
  | some p =>
    match s.keySlot p, oaepDecrypt s.sec.modulus s.sec.privExp "CAMPION" (slice c.body 40 512) with
    | some slot, some key =>
      if p.time + 1000000000 < s.counter ∨ key.length ≠ 64 ∨ c.body.length ≠ 1064
          ∨ (s.cmp.sessions.any fun x => x.isOpen && x.nonce == slice c.body 8 32)
          ∨ !pssVerify p.modulus p.exponent (c.header ++ c.body.take 552) (c.body.drop 552) then none
      else some (slot, key)
    | _, _ => none

/-- SESS_GEN advances by one and skips 0 (R446). -/
def nextGen (g : W16) : W16 := if g + 1 = 0 then 1 else g + 1

/-- The body of OPEN_ACCEPT (R445). -/
def State.acceptBody (s : State) (i : Nat) (nonce : List Byte) : List Byte :=
  leBytes 1 i ++ leBytes 1 (b2n s.defaults) ++ leBytes 2 s.cmp.sessGen.toNat ++ leBytes 4 s.boot32 ++ leBytes 8 s.counter
    ++ leBytes 8 s.jnl.last ++ leBytes 8 s.fp.toNat ++ padTo 32 nonce

/-- OPEN_KEY (R444, R445). -/
def execOpenKey (f : Frame) (t : Nat) (s : State) : Host.Outcome State Fault Refusal :=
  .next (s.ctrlIn 0x04 f t fun s c =>
    let r := s.openKeyOk f c
    let ids := s.cmp.pendingIds.filter fun p => !(p.src == f.src && p.srcPort == f.srcPort)
    let s := { s with cmp := { s.cmp with pendingIds := ids } }
    match r, (List.range 16).find? fun i => !(s.session i).isOpen with
    | none, _ => (s.sendUnauth f 0x06 .openRefused []).1
    | some _, none => (s.sendUnauth f 0x06 .sessionLimit []).1
    | some (slot, key), some i =>
      let s := { s with cmp := { s.cmp with sessGen := nextGen s.cmp.sessGen } }
      let nonce := slice c.body 8 32
      let s := s.recordTime (leAt c.body 0 8)
      let s := s.setSession i { Session.reset with
        isOpen := true, slot, gen := s.cmp.sessGen.toNat, port := f.port, peer := f.src, peerPort := f.srcPort
        localPort := f.dstPort, key, nonce, txSeq := 1, rxNext := 1, openTime := s.counter, heard := s.counter, ceEcho := f.ce
        ringCur := (s.evtBounds false).1, spillCur := (s.evtBounds true).1 }
      s.sendFrame i ⟨0, 0x05, 0, 0, 0, s.acceptBody i nonce, 0, s.counter⟩)

/-! Timers (R446, R449). -/

/-- The wait before a frame is sent again: CMP_RTO, doubled at each resend, at most 64 ms (R449). -/
def State.rto (s : State) (sends : Nat) : Nat := min (s.reg Reg.cmpRto * 1000 * 2 ^ sends) 64000000

/-- RETRANSMIT (R449): unacknowledged frames whose wait is over go out again; after CMP_RETRY_MAX resends the session ends. -/
def execRetransmit (sess t : Nat) (s : State) : Host.Outcome State Fault Refusal :=
  let s := s.at t
  let x := s.session sess
  if !s.netUp ∨ !x.isOpen then .next s
  else
    let due (f : TxFrame) : Bool := decide (f.sentAt + s.rto f.sends ≤ s.counter)
    if x.unacked.any fun f => due f && decide (s.reg Reg.cmpRetryMax ≤ f.sends) then
      .next ((s.endSession sess).note .sessionLost [])
    else
      let again := x.unacked.filter due
      let unacked := x.unacked.map fun f => if due f then { f with sends := f.sends + 1, sentAt := s.counter } else f
      let s := (s.setSession sess { x with unacked, retrans := x.retrans + again.length }).count Reg.cmpRetransmits again.length
      .next (again.foldl (fun s f => s.sendFrame sess { f with flags := f.flags ||| 4 }) s)

/-- CMP_IDLE_TIMEOUT (R446). -/
def execCmpIdleTimeout (sess t : Nat) (s : State) : Host.Outcome State Fault Refusal :=
  let s := s.at t
  let x := s.session sess
  .next (if x.isOpen ∧ x.heard + s.reg Reg.cmpIdleTimeout * 1000000000 ≤ s.counter then s.endSession sess else s)

/-! Ingest streams (R454 to R460). -/

/-- The buffer a handle names on a tile: its base and its bytes (R285, R293). -/
def State.handleBuf (s : State) (tile h : Nat) : Option (Nat × Nat) :=
  match (s.vetchOf tile).byHandle tile h with
  | some (_, p, b) => some (p.base + b * classBytes p.cls, classBytes p.cls)
  | none => none

/-- The stream still holds a handle's buffer. -/
def State.holds (s : State) (x : Stream) (h : Nat) : Bool :=
  match (s.vetchOf x.tile).byHandle x.tile h with
  | some (_, p, b) =>
    match p.buffer b with
    | some bf => bf.holder == x.owner
    | none => false
  | none => false

/-- The limit of R459. -/
def State.streamLimit (s : State) (x : Stream) : Nat :=
  let held := x.heldSamples.filter fun e => s.holds x e.2
  let oldest := held.foldl (fun m e => min m e.1) x.nextSample
  let credits := ((s.vetchOf x.tile).credits x.owner).toNat
  let next := x.nextSample + (if x.cur.isSome then 1 else 0)
  min (oldest + 2 ^ x.ringLog2) (next + credits)

def State.setStream (s : State) (j : Nat) (x : Stream) : State :=
  { s with cmp := { s.cmp with streams := setAssoc s.cmp.streams j x } }

/-- The header of an ingest or credit frame, CRC as 0 (R456). (DEDUCED, log 27) -/
def ingestHeader (type stream flags len token seq sample : Nat) : Nat :=
  putBits 255 248 1 + putBits 247 240 type + putBits 239 230 stream + putBits 229 224 flags + putBits 223 208 len
    + putBits 207 144 token + putBits 143 96 seq + putBits 95 64 sample

/-- A frame's bytes with its CRC. -/
def ingestFrame (h : Nat) (body : List Byte) : List Byte :=
  leBytes 32 (h + putBits 63 32 (crc32 (leBytes 32 h ++ body)).toNat) ++ body

/-- A CREDIT with the limit as it stands (R459). `limit` none: the limit formed now. -/
def State.sendCredit (s : State) (j : Nat) (limit : Option Nat) : State :=
  match s.stream j with
  | none => s
  | some x =>
    let l := limit.getD (s.streamLimit x)
    let body := leBytes 4 x.ce ++ leBytes 4 x.drops
    let bs := ingestFrame (ingestHeader 0x22 j 0 8 x.token.toNat (x.nextSeq - 1) l) body
    let s := s.setStream j { x with limit := l, lastCredit := s.counter }
    s.sendUdp x.port true x.src fun h => .udp x.port h x.src (BitVec.ofNat 16 (s.reg Reg.cmpIngestPort)) x.srcPort bs

/-- The 64-bit value nearest to `near` with the given low half (R456). -/
def widen (low near : Nat) : Nat :=
  let base := near / 2 ^ 32 * 2 ^ 32 + low
  let cands := [base - 2 ^ 32, base, base + 2 ^ 32].filter fun v => v % 2 ^ 32 == low
  cands.foldl (fun a b => if (max b near - min b near) < (max a near - min a near) then b else a) base

/-- A refused frame: counted, and a CREDIT, at most one in 10 µs (R457, R459). (DEDUCED, log 27) -/
def State.refuseIngest (s : State) (j : Nat) (x : Stream) (reg : Nat) : State :=
  let s := (s.setStream j { x with drops := x.drops + 1 }).count reg 1
  if x.lastCredit + 10000 ≤ s.counter ∨ x.lastCredit = 0 then s.sendCredit j none else s

/-- The ring entry of a sample (R458). -/
def ringEntry (sample handle len : Nat) (oversize : Bool) : Nat :=
  putBits 127 64 sample + putBits 63 32 handle + putBits 31 9 len + putBits 2 1 (b2n oversize) + 1

/-- An accepted frame of the current sample: its bytes go after what is there, or past the end the buffer is freed and the rest of the
sample discarded; at END the ring entry is written (R458). -/
def State.ingestFrame (s : State) (j : Nat) (x : Stream) (cur : Nat × Nat × Nat × Bool) (body : List Byte) (fin : Bool) : State :=
  let (h, done, first, overN) := cur
  let (base, size) := (s.handleBuf x.tile h).getD (0, 0)
  let now := !overN && decide (size < done + body.length)
  let s := if overN ∨ now then s else s.writeMem (base + done) body
  let s := if now then s.vetchFree x.tile x.part x.owner h else s
  let overN := overN || now
  let done := if overN then done else done + body.length
  let x := { x with nextSeq := x.nextSeq + 1, cur := some (h, done, first, overN) }
  if !fin then
    let s := s.setStream j x
    if s.streamLimit x ≠ x.limit then s.sendCredit j none else s
  else
    let n := x.nextSample
    let s := s.writeMem (x.ringBase + 16 * (n % 2 ^ x.ringLog2))
      (leBytes 16 (if overN then ringEntry n 0 0 true else ringEntry n h done false))
    let s := if overN then s.event (tileEvent .sampleOversize s.counter x.tile x.part [j, n]) else s
    let held := x.heldSamples.filter fun e => e.2 != h
    (s.setStream j { x with nextSample := n + 1, cur := none, heldSamples := if overN then held else held ++ [(n, h)] }).sendCredit j
      none

/-- INGEST_DATA (R457). -/
def execIngestData (f : Frame) (t : Nat) (s : State) : Host.Outcome State Fault Refusal :=
  .next ((s.at t).frameIn f Reg.cmpIngestPort fun s =>
    let h := leNat (f.payload.take 32)
    let j := bitsOf h 239 230
    let body := f.payload.drop 32
    if f.payload.length < 32 ∨ bitsOf h 255 248 ≠ 1 ∨ bitsOf h 247 240 ≠ 0x21 ∨ bitsOf h 223 208 ≠ body.length then s.dropFrame f
    else
      match s.stream j with
      | none => s.count Reg.cmpIngestBadToken 1
      | some x =>
        if !x.isOpen ∨ x.token.toNat ≠ bitsOf h 207 144 ∨ x.src ≠ f.src ∨ x.srcPort ≠ f.srcPort then
          s.count Reg.cmpIngestBadToken 1
        else
          let x := { x with port := f.port, ce := x.ce + b2n f.ce }
          let s := s.setStream j x
          let crcOk := bitsOf h 63 32 == (crc32 (leBytes 32 (h - putBits 63 32 (bitsOf h 63 32)) ++ body)).toNat
          let sample := widen (bitsOf h 95 64) x.nextSample
          let fin := (bitsOf h 229 224).testBit 0
          if !crcOk then (s.setStream j { x with drops := x.drops + 1 }).count Reg.cmpIngestCrc 1
          else if bitsOf h 143 96 ≠ x.nextSeq then s.refuseIngest j x Reg.cmpIngestOutOfOrder
          else if sample ≠ x.nextSample ∨ (x.cur.isNone ∧ x.limit ≤ sample) then s.refuseIngest j x Reg.cmpIngestNoCredit
          else
            match x.cur with
            | some cur => s.ingestFrame j x cur body fin
            | none =>
              let (v, r) := (s.vetchOf x.tile).alloc x.tile x.owner
              let s := (s.setVetch x.tile v).vetchDone x.tile x.part x.owner true r
              if r.status = .ok then
                let x := { x with heldSamples := x.heldSamples.filter fun e => e.2 != r.handle }
                s.ingestFrame j x (r.handle, 0, x.nextSeq, false) body fin
              else s.refuseIngest j x Reg.cmpIngestNoCredit)

/-- CREDIT (R459): a changed limit, or the millisecond's credit, of an open stream. While the streams are held it carries NEXT_SAMPLE
(R527). -/
def execCredit (stream t : Nat) (s : State) : Host.Outcome State Fault Refusal :=
  let s := s.at t
  match s.stream stream with
  | some x =>
    .next (if s.up ∧ x.isOpen then
        s.sendCredit stream (if s.power.state = .dormant then some x.nextSample else none)
      else s)
  | none => .next s

end Sys2Proof.Machine
end

