-- ==== Sys2Proof/Machine/Spares.lean ====
section
/-! DEFINITION. Sys2Proof/Machine/Spares.lean: unit states, spares and degraded geometry (spec/19 R551 to R564), DRAM and SRAM repair (R558, R559), tile
isolation (R431, R561) and the lifetime record (R567, R568). -/

namespace Sys2Proof.Machine

open Sys2Proof

/-- Every rail, and every island, changed by its index. -/
def State.mapRails (s : State) (f : Nat → Rail → Rail) : State :=
  { s with power := { s.power with rails := s.power.rails.zipIdx.map fun e => f e.2 e.1 } }

def State.mapIslands (s : State) (f : Nat → Island → Island) : State :=
  { s with power := { s.power with islands := s.power.islands.zipIdx.map fun e => f e.2 e.1 } }

/-- One island changed. -/
def State.modIsland (s : State) (i : Nat) (f : Island → Island) : State :=
  { s with power := { s.power with islands := modifyAt s.power.islands i f } }

/-- One rail changed. -/
def State.modRail (s : State) (t : Nat) (f : Rail → Rail) : State :=
  { s with power := { s.power with rails := modifyAt s.power.rails t f } }

/-! Drawing a spare (R555 to R557). -/

/-- Teasel-capable physical cores and logical Teasel cores (R16, R30): none on YW-BL10E. -/
def teaselPhys (part : Part) (k : Nat) : Bool := part == .ywbl10 && (k == 10 || k == 11 || k == 13)
def teaselLog (part : Part) (k : Nat) : Bool := part == .ywbl10 && (k == 10 || k == 11)

def Lifetime.coreState (l : Lifetime) (p : Nat) : UnitSt := l.coreSt.getD p ⟨.failed, 0, false⟩
def Lifetime.clusterState (l : Lifetime) (q : Nat) : UnitSt := l.clusterSt.getD q ⟨.failed, 0, false⟩

def Lifetime.modCore (l : Lifetime) (p : Nat) (f : UnitSt → UnitSt) : Lifetime := { l with coreSt := modifyAt l.coreSt p f }
def Lifetime.modCluster (l : Lifetime) (q : Nat) (f : UnitSt → UnitSt) : Lifetime :=
  { l with clusterSt := modifyAt l.clusterSt q f }

/-- A unit fault charged (R556). -/
def UnitSt.charge (u : UnitSt) : UnitSt :=
  { u with suspicion := min 3 (u.suspicion + 1), state := if 3 ≤ u.suspicion + 1 ∨ u.state = .failed then .failed else .suspect }

def UnitSt.fails (u : UnitSt) : UnitSt := { u with state := .failed }

/-- The physical core that a logical core k draws from the free cores of a physical cluster (R555). -/
def drawFrom (part : Part) (k : Nat) (free : List Nat) : Option Nat :=
  if teaselLog part k then free.find? (teaselPhys part)
  else
    match free.find? fun j => !teaselPhys part j with
    | some j => some j
    | none => free.find? (teaselPhys part)

/-- The SPARE cores of physical cluster q of tile t. -/
def Lifetime.freeCores (l : Lifetime) (t q : Nat) : List Nat :=
  (List.range 15).filter fun j => (l.coreState (135 * t + 15 * q + j)).state == .spare

/-- The twelve logical cores carried by a cluster's SPARE cores, in order (R557). -/
def carry (part : Part) : List Nat → List Nat → Option (List Nat)
  | [], _ => some []
  | k :: ks, free =>
    match drawFrom part k free with
    | none => none
    | some j => (carry part ks (free.filter (· != j))).map (j :: ·)

/-- The lowest-numbered spare cluster of tile t that qualifies, with its assignment. -/
def Lifetime.spareCluster (l : Lifetime) (part : Part) (t : Nat) : Option (Nat × List Nat) :=
  (List.range 9).findSome? fun q =>
    if (l.clusterState (9 * t + q)).state = .spare then
      (carry part (List.range 12) (l.freeCores t q)).map fun js => (q, js)
    else none

/-- Logical cluster i = 8t + c moves onto a spare cluster (R557). The cluster left has the state that its fault gave it already; SPARE when
none did. -/
def Lifetime.moveCluster (l : Lifetime) (part : Part) (i : Nat) : Option Lifetime :=
  let t := i / 8
  let old := l.pendingMap.clusters.getD i 0
  match l.spareCluster part t with
  | none => none
  | some (q, js) =>
    let l := l.modCluster (9 * t + old) fun u => if u.state = .inService then { u with state := .spare } else u
    let l := (List.range 15).foldl
      (fun l j => l.modCore (135 * t + 15 * old + j) fun u => if u.state = .inService then { u with state := .spare } else u) l
    let l := l.modCluster (9 * t + q) fun u => { u with state := .inService }
    let l := js.foldl (fun l j => l.modCore (135 * t + 15 * q + j) fun u => { u with state := .inService }) l
    some { l with
      useClusters := modifyAt l.useClusters t (· + 1)
      pendingMap := { l.pendingMap with
        clusters := modifyAt l.pendingMap.clusters i fun _ => q
        cores := l.pendingMap.cores.take (12 * i) ++ js ++ l.pendingMap.cores.drop (12 * i + 12) } }

/-- How a logical core that lost its physical core goes on. -/
inductive SpareEnd where
  | drawn | moved | out
  deriving DecidableEq, Repr

/-- A logical core takes a spare (R555), its cluster moves (R557), or it leaves service (R560). -/
def Lifetime.replaceCore (l : Lifetime) (part : Part) (i : Nat) : Lifetime × SpareEnd :=
  let t := i / 96
  let q := l.pendingMap.clusters.getD (i / 12) 0
  match drawFrom part (i % 12) (l.freeCores t q) with
  | some j =>
    let l := l.modCore (135 * t + 15 * q + j) fun u => { u with state := .inService }
    ({ l with
        useCores := modifyAt l.useCores t (· + 1)
        pendingMap := { l.pendingMap with cores := modifyAt l.pendingMap.cores i fun _ => j } }, .drawn)
  | none =>
    match l.moveCluster part (i / 12) with
    | some l => (l, .moved)
    | none => ({ l with pendingMap := { l.pendingMap with cores := modifyAt l.pendingMap.cores i fun _ => 0xF } }, .out)

/-- A logical cluster whose physical cluster is lost: it moves, or its twelve cores leave service. -/
def Lifetime.replaceCluster (l : Lifetime) (part : Part) (i : Nat) : Lifetime × SpareEnd :=
  match l.moveCluster part i with
  | some l => (l, .moved)
  | none =>
    ({ l with pendingMap := { l.pendingMap with
        cores := l.pendingMap.cores.take (12 * i) ++ List.replicate 12 0xF ++ l.pendingMap.cores.drop (12 * i + 12) } }, .out)

/-! In operation (R552, R557, R560). -/

/-- A change of the spare map starts its build again (R563, R564). -/
def State.spareChanged (s : State) : State := { s with lif := { s.lif with spareBuild := .building } }

def physClusterWord (q : Nat) : W32 := coordWord (some (q / 9)) (some (q % 9)) none none none true

/-- The event of a substitution: the logical unit, the physical unit left, and the one taken in the first argument (assumption log). (DEDUCED, log 32) -/
def State.substituted (s : State) (logical old new : W32) (tile : Nat) : State :=
  (s.event { tileEvent .unitSubstituted s.counter tile 0xFF [new.toNat] with logical, physical := old }).count
    Reg.lifSubstitutions 1

/-- A spare core has taken a logical core's place: the completion of what runs carries UNIT_SUBSTITUTED (R360). -/
def State.noteSubst (s : State) : State :=
  let note (r : StepRun) : StepRun := { r with notes := r.notes ||| 8 }
  { s with step := s.step.map note, filler := s.filler.map note }

/-- A unit became FAILED (R572). -/
def State.retired (s : State) (tile : Nat) (unit : W32) : State :=
  s.event { tileEvent .unitRetired s.counter tile 0xFF [] with physical := unit }

/-- The filler items that named cores run or hold suspended start again from their start (R218). -/
def State.fillerBack (s : State) (cores : Nat → Bool) : State :=
  let ns := s.cores.flatMap fun e =>
    if !cores e.1 then []
    else
      (match e.2.item with
        | some (true, n) => [n]
        | _ => []) ++ (e.2.suspended.map (·.node)).toList
  let back (e : Node × Nat) : Node := if ns.contains e.2 then { e.1 with state := .ready, started := false } else e.1
  { s with filler := s.filler.map fun (r : StepRun) => { r with nodes := r.nodes.zipIdx.map back } }

/-- Stores and cores of a cluster that now stands on other silicon: all zero (R557, R279). -/
def State.freshCluster (s : State) (i : Nat) : State :=
  let s := s.fillerBack fun k => k / 12 == i
  let a := clusterStoreAddr i 0
  let out (m : Nat) : Bool := decide ((m < a ∨ a + 12 * 2 ^ 20 ≤ m) ∧ (m < lsKey (12 * i) 0 ∨ lsKey (12 * i + 12) 0 ≤ m))
  { s with
    mem := s.mem.filter fun e => out e.1
    keep := { s.keep with marks := s.keep.marks.filter out }
    cores := s.cores.filter fun e => decide (e.1 < 12 * i ∨ 12 * i + 12 ≤ e.1)
    clusters := Sparse.set ⟨[], []⟩ s.clusters i ⟨[], []⟩ }

/-- A core that now stands on other silicon: its stores are zero. -/
def State.freshCore (s : State) (i : Nat) : State :=
  let s := s.fillerBack (· == i)
  { s with
    cores := Sparse.set Core.reset s.cores i Core.reset
    keep := { s.keep with marks := s.keep.marks.filter fun m => decide (m < lsKey i 0 ∨ lsKey (i + 1) 0 ≤ m) } }

/-- A core unit fault's steps 2 and 4 of R552 for a logical core; what its item does next is the scheduler's. (DEDUCED, log 32) -/
def State.coreFault (s : State) (i : Nat) : State × SpareEnd :=
  match s.physCore i with
  | none => (s, .out)
  | some p =>
    let t := i / 96
    let l := s.lif.modCore p UnitSt.charge
    let dead := decide ((l.coreState p).state = .failed)
    let (l, e) := l.replaceCore s.part i
    let s := { s with lif := l }.spareChanged
    let s := if dead then s.retired t (physCoreWord p) else s
    match e with
    | .drawn => (((s.freshCore i).substituted (coreWord i) (physCoreWord p) (((s.physCore i).map physCoreWord).getD noUnit) t).noteSubst, e)
    | .moved => ((s.freshCluster (i / 12)).substituted (clusterWord t (i / 12 % 8)) (physCoreWord p)
        (((s.physCore i).map physCoreWord).getD noUnit) t, e)
    | .out => (s.freshCore i, e)

/-- A cluster unit fault (R551, R557). (DEDUCED, log 32) -/
def State.clusterFault (s : State) (i : Nat) : State × SpareEnd :=
  let t := i / 8
  let q := 9 * t + s.lif.pendingMap.clusters.getD i 0
  let l := s.lif.modCluster q UnitSt.charge
  let dead := decide ((l.clusterState q).state = .failed)
  let (l, e) := l.replaceCluster s.part i
  let s := { s with lif := l }.spareChanged
  let s := if dead then s.retired t (physClusterWord q) else s
  let new := physClusterWord (9 * t + s.lif.pendingMap.clusters.getD i 0)
  match e with
  | .out => (s.freshCluster i, e)
  | _ => ((s.freshCluster i).substituted (clusterWord t (i % 8)) (physClusterWord q) new t, e)

/-- No cluster of a tile has a logical core in service (R561). -/
def State.tileEmpty (s : State) (t : Nat) : Bool :=
  ((s.lif.pendingMap.cores.drop (96 * t)).take 96).all (· == 0xF)

/-! Steps that fail. -/

/-- The running step of the main partitions, or of the filler, fails: the first cause stays (R485). -/
def State.failStep (s : State) (filler : Bool) (st : Status) : State :=
  let f (r : StepRun) : StepRun := if r.fail.isSome then r else { r with fail := some st }
  if filler then { s with filler := s.filler.map f } else { s with step := s.step.map f }

/-- The item log record (R482): status, non-finite count, split entries, log entries, dropped flag, slabs given and taken. -/
def itemRecord (st : Status) (c : Core) : W128 :=
  BitVec.ofNat 128 (putBits 127 112 st.code + putBits 111 80 (min c.nfCount (2 ^ 32 - 1)) + putBits 79 72 c.splitUsed
    + putBits 71 64 c.nfLog + putBits 63 63 (b2n c.nfDropped) + putBits 62 47 c.given + putBits 46 31 c.taken)

/-- A node's record enters the item log (R482); a log on an isolated tile is lost with it. -/
def State.logItem (s : State) (r : StepRun) (i : Nat) (st : Status) (c : Core) : State :=
  let lost : Bool := match regionOf r.itemLog with
    | .dram x _ => !s.tileIn x
    | _ => false
  if r.itemLog = 0 ∨ lost then s else s.writeMem (r.itemLog + 16 * i) (leBytes 16 (itemRecord st c).toNat)

/-- Work that a tile has begun: an item that runs there, a route handed to its router. -/
def Node.begunOn (n : Node) (t : Nat) : Bool :=
  n.tile == t && ((n.kind == .item && n.state == .running) || (n.kind == .route && (n.state == .ready || n.state == .running)))

/-- The work that a tile has begun ends with a status (R532, R562). -/
def StepRun.endOnTile (r : StepRun) (t : Nat) (st : Status) : StepRun :=
  { r with nodes := r.nodes.map fun n => if n.begunOn t then { n with state := .done, status := st } else n }

/-- The item log records of the work that a tile has begun in a step (R482). -/
def State.logTile (s : State) (filler : Bool) (t : Nat) (st : Status) : State :=
  match if filler then s.filler else s.step with
  | none => s
  | some r => r.nodes.zipIdx.foldl (fun (s : State) (e : Node × Nat) =>
      if e.1.begunOn t then
        s.logItem r e.2 st (((s.cores.find? fun c => c.2.item == some (filler, e.2)).map (·.2)).getD Core.reset)
      else s) s

/-- The compute die of a tile goes dark: its cores and cluster stores are lost, its router drops its requests, and the step that works there
fails (R532, R562). -/
def State.endTile (s : State) (t : Nat) (st : Status) : State :=
  let s := (s.logTile false t st).logTile true t st
  let s := { s with
    cores := s.cores.filter fun e => e.1 / 96 != t
    clusters := s.clusters.filter fun e => e.1 / 8 != t
    mem := s.mem.filter fun e =>
      match regionOf e.1 with
      | .clusterStore c _ => c / 8 != t
      | _ => true
    xpr := { s.xpr with queues := modifyAt s.xpr.queues t fun _ => [], waiting := modifyAt s.xpr.waiting t fun _ => [] }
    deferred := s.deferred.filter fun e => e.1 / 8 != t
    step := s.step.map fun (r : StepRun) => r.endOnTile t st
    filler := s.filler.map fun (r : StepRun) => r.endOnTile t st }
  (s.failStep false st).failStep true st

/-! Isolation (R431, R561, R562). -/

/-- The journal copy of a tile moves to the lowest tile in service that does not hold the other one (R263). -/
def State.moveJournal (s : State) (t : Nat) : State :=
  let j := s.jnl
  let pick (other : Nat) : Option Nat := (List.range 10).find? fun x => x != t && x != other && s.tileIn x
  if j.tile1 = t ∧ j.svc.testBit 1 then
    match pick j.tile2 with
    | some x => { s with jnl := { j with tile1 := x, copy1 := j.mirror } }
    | none => { s with jnl := { j with copy1 := [], svc := j.svc - 2 } }
  else if j.tile2 = t ∧ j.svc.testBit 2 then
    match pick j.tile1 with
    | some x => { s with jnl := { j with tile2 := x, copy2 := j.mirror } }
    | none => { s with jnl := { j with copy2 := [], svc := j.svc - 4 } }
  else s

/-- An isolated tile's core rail goes off, and its DRAM, tile store and Vetch state are lost (R429, R431). -/
def State.loseTile (s : State) (t : Nat) : State :=
  { s with
    boot := { s.boot with isolated := s.boot.isolated ||| 2 ^ t }
    power := { s.power with rails := modifyAt s.power.rails t fun r => { r with on := false } }
    mem := s.mem.filter fun e =>
      match regionOf e.1 with
      | .dram x _ => x != t
      | .tileStore x _ => x != t
      | _ => true
    vetch := modifyAt s.vetch t fun _ => ⟨[], [], []⟩ }

/-- A tile is isolated: its islands go off, its memory is lost, its cores stop, the axis of its port closes or gives up its hold, and a running step
fails (R431, R561, R562). -/
def State.isolateTile (s : State) (t : Nat) : State :=
  if !s.tileIn t then s
  else
    let s := s.loseTile t
    let s := { s with lif := { s.lif with pendingMap := { s.lif.pendingMap with tileIsolated := s.lif.pendingMap.tileIsolated ||| 2 ^ t } } }
    let s := (s.moveJournal t).spareChanged
    let a := (t - 2) / 2
    let s := if 2 ≤ t ∧ ((s.axis a).through ∨ (s.axis a).held) then s.closeAxis a else s
    (s.event (tileEvent .tileIsolated s.counter t 0xFF [])).endTile t .tileIsolated

/-- A tile left with no cluster in service is isolated at once (R561). -/
def State.isolateIfEmpty (s : State) (t : Nat) : State := if s.tileEmpty t then s.isolateTile t else s

/-! DRAM and SRAM errors (R278, R558, R559). -/

/-- Power-on seconds up to now. -/
def State.powerOnNow (s : State) : Nat := s.lif.powerOn + (s.counter - s.lif.powerOnAt) / 1000000000

/-- Where a DRAM word lies: tile, stack, pseudo-channel (R262), then bank, row and column. (DESIGN CHOICE, log 20) -/
def dramPlace (t off : Nat) : List Nat :=
  let (b, r, c) := Config.dramRow off
  [t, off / 256 % 2, Nat.xor (bitsOf off 15 9) (bitsOf off 22 16), b, r, c]

/-- A repair entry (R415): the place and the kind. -/
def repairEntry (place : List Nat) (kind : Nat) : W64 :=
  let g := fun i => place.getD i 0
  BitVec.ofNat 64 (putBits 63 60 (g 0) + putBits 59 59 (g 1) + putBits 58 52 (g 2) + putBits 51 50 kind
    + (if kind = 2 then 0 else putBits 49 0 (Config.repairAddr kind (g 3) (g (4 + kind)))))

def repairKind (w : W64) : Nat := bitsOf w.toNat 51 50

/-- Entries of the place's pseudo-channel, and of its stack. -/
def samePc (place : List Nat) (w : W64) : Bool := bitsOf w.toNat 63 52 == bitsOf (repairEntry place 2).toNat 63 52
def sameStack (place : List Nat) (w : W64) : Bool := bitsOf w.toNat 63 59 == bitsOf (repairEntry place 2).toNat 63 59

/-- A pseudo-channel retires onto a spare one; without one its tile is isolated at the next step boundary (R559). -/
def Lifetime.retirePc (l : Lifetime) (place : List Nat) : Lifetime :=
  let t := place.getD 0 0
  let l := { l with dramErrors := l.dramErrors.filter fun e => e.2.1.take 3 != place.take 3 }
  if (l.pendingRepairs.filter fun w => sameStack place w && repairKind w == 2).length < 2 then
    { l with
      pendingRepairs := l.pendingRepairs ++ [repairEntry place 2], repairBuild := .building
      usePcs := modifyAt l.usePcs t (· + 1) }
  else { l with isolateNext := l.isolateNext ||| 2 ^ t }

/-- A row (kind 0) or column (kind 1) repair, or the pseudo-channel's retirement in its place (R559). -/
def Lifetime.repairLine (l : Lifetime) (place : List Nat) (kind : Nat) : Lifetime :=
  let t := place.getD 0 0
  let mine := l.pendingRepairs.filter fun w => samePc place w && repairKind w != 2
  let used := (mine.filter fun w => repairKind w == kind && Config.repairBank (bitsOf w.toNat 49 0) == place.getD 3 0).length
  if (if kind = 0 then 8 else 4) ≤ used ∨ 8192 ≤ l.pendingRepairs.length then l.retirePc place
  else
    let l := { l with
      pendingRepairs := l.pendingRepairs ++ [repairEntry place kind], repairBuild := .building
      dramErrors := l.dramErrors.filter fun e =>
        !(e.2.1.take 4 == place.take 4 && e.2.1.getD (4 + kind) 0 == place.getD (4 + kind) 0)
      useRows := if kind = 0 then modifyAt l.useRows t (· + 1) else l.useRows
      useCols := if kind = 1 then modifyAt l.useCols t (· + 1) else l.useCols }
    if 16 ≤ mine.length + 1 then l.retirePc place else l

/-- One DRAM error counted in the window of 24 h of power-on time, and the repair it calls for (R559). -/
def Lifetime.dramError (l : Lifetime) (now : Nat) (place : List Nat) (unc : Bool) : Lifetime :=
  let es := (l.dramErrors.filter fun e => decide (now < e.1 + 86400)) ++ [(now, place, unc)]
  let l := { l with dramErrors := es }
  let inPc := es.filter fun e => e.2.1.take 3 == place.take 3
  let row := inPc.filter fun e => !e.2.2 && e.2.1.take 5 == place.take 5
  let col := inPc.filter fun e => !e.2.2 && e.2.1.take 4 == place.take 4 && e.2.1.getD 5 0 == place.getD 5 0
  if unc ∧ 3 ≤ (inPc.filter (·.2.2)).length then l.retirePc place
  else if unc ∨ 4 ≤ row.length then l.repairLine place 0
  else if 8 ≤ col.length ∧ 4 ≤ ((col.map fun e => e.2.1.getD 4 0).eraseDups).length then l.repairLine place 1
  else l

/-- A store word's correctable error; the second within 24 h of power-on time puts the word in the SRAM repair list (R558). -/
def Lifetime.storeError (l : Lifetime) (now word : Nat) : Lifetime :=
  let es := l.storeErrors.filter fun e => decide (now < e.1 + 86400)
  let w := BitVec.ofNat 64 word
  if es.any fun e => e.2 == word then
    { l with
      storeErrors := es.filter fun e => e.2 != word
      sramRepairs := if l.sramRepairs.contains w ∨ 512 ≤ l.sramRepairs.length then l.sramRepairs else l.sramRepairs ++ [w] }
  else { l with storeErrors := es ++ [(now, word)] }

/-- The tile of a word's address. -/
def wordTile (a : Nat) : Nat :=
  match regionOf a with
  | .dram t _ => t
  | .tileStore t _ => t
  | .clusterStore c _ => c / 8
  | .reserved => (a - 2 ^ 48) / (96 * 2 ^ 20)

/-- The logical and the physical unit that holds a word (R14, R575). -/
def State.wordUnits (s : State) (a : Nat) : W32 × W32 :=
  let physTile (t : Nat) : W32 := coordWord (some t) none none none none true
  match regionOf a with
  | .dram t _ => (tileWord t, physTile t)
  | .tileStore t _ => (tileWord t, physTile t)
  | .clusterStore c _ => (clusterWord (c / 8) (c % 8), physClusterWord (9 * (c / 8) + s.lif.pendingMap.clusters.getD c 0))
  | .reserved => 
    (coreWord ((a - 2 ^ 48) / 2 ^ 20), ((s.physCore ((a - 2 ^ 48) / 2 ^ 20)).map physCoreWord).getD noUnit)

/-- A correctable error met by a read or a scrub pass: corrected, recorded, counted (R278, R558, R559). The record names the physical unit, and
ARG0 the word within it, by its address. (DEDUCED, log 32) -/
def State.corrected (s : State) (a : Nat) : State :=
  let (logical, physical) := s.wordUnits a
  let s := s.event { tileEvent .memCorrected s.counter (wordTile a) 0xFF [a] with logical, physical }
  match regionOf a with
  | .dram t off => { s with lif := s.lif.dramError s.powerOnNow (dramPlace t off) false }
  | _ => { s with lif := s.lif.storeError s.powerOnNow a }

/-- An uncorrectable word found: marked, and counted when it lies in DRAM (R278, R559). -/
def State.uncorrectable (s : State) (a : Nat) : State :=
  let s := s.mark [a]
  match regionOf a with
  | .dram t off => { s with lif := s.lif.dramError s.powerOnNow (dramPlace t off) true }
  | _ => s

/-! The lifetime record (R567, R568). -/

/-- The list's entries, eight bytes each, padded to `n` bytes. -/
def words8 (l : List W64) (n : Nat) : List Byte := padTo n (l.flatMap fun w => leBytes 8 w.toNat)

/-- Bytes 0 to 0x1FFDF of a record. -/
def State.lifetimeBody (s : State) : List Byte :=
  let l := s.lif
  leBytes 4 0x59574C46 ++ leBytes 4 1 ++ leBytes 8 l.writeSeq ++ leBytes 8 l.powerOn ++ leBytes 8 s.boot.bootCount.toNat
    ++ leBytes 8 (l.utc s.counter) ++ leBytes 8 l.spareGen ++ leBytes 8 l.repairGen ++ zeros 8
    ++ padTo 0x50 (l.cycles.flatMap (leBytes 8)) ++ padTo 0x50 ((List.range 10).flatMap l.useBytes)
    ++ padTo 0x10 (l.useLanes.flatMap (leBytes 2)) ++ leBytes 1 l.useMgmt ++ zeros 15
    ++ padTo 0x200 (l.hostKeys.flatMap (padTo 64)) ++ padTo 0x300 l.spareMap.bytes
    ++ padTo 0x300 (s.power.islands.flatMap fun i => leBytes 1 i.wear)
    ++ padTo 0x1700 (s.power.islands.flatMap fun i => leBytes 8 i.stress)
    ++ padTo 0x600 (l.coreSt.flatMap fun u => leBytes 1 u.byte) ++ padTo 0xA00 (l.clusterSt.flatMap fun u => leBytes 1 u.byte)
    ++ words8 l.repairs 0x10000 ++ words8 l.sramRepairs 0x1000 ++ zeros 0xBFE0

/-- One write of the record: the next sequence number in its slot. `ok`: the read-back is right. -/
def State.writeLifetimeOnce (s : State) (ok : Bool) : State :=
  let s := { s with lif := { s.lif with
    powerOn := s.powerOnNow, powerOnAt := s.lif.powerOnAt + (s.counter - s.lif.powerOnAt) / 1000000000 * 1000000000
    writeSeq := s.lif.writeSeq + 1 } }
  let base := flLifetime + 0x20000 * (s.lif.writeSeq % 128)
  if ok then
    let b := s.lifetimeBody
    { s with
      flash1 := flashWrite (flashErase s.flash1 base 0x20000) base (b ++ hmac256 s.sec.recKey b)
      lif := { s.lif with lastWrite := s.counter } }
  else ({ s with flash1 := flashErase s.flash1 base 0x20000 }.count Reg.lifWriteFails 1).note .lifetimeWrite []

/-- A record write with its retries, each in the next slot (R568). -/
def State.writeLifetime : Nat → State → State
  | 0, s => s.writeLifetimeOnce true
  | n + 1, s => State.writeLifetime n (s.writeLifetimeOnce false)

/-! Background rebuilds (R563, R564). -/

/-- DRAM_REPAIR for every entry of the PENDING repair map from the n-th on: recorded when the map is built and when it is swapped in (R281,
R284). -/
def State.repairEvents (s : State) (n : Nat) : State :=
  (s.lif.pendingRepairs.drop n).foldl (fun s w => s.note .dramRepair [w.toNat]) s

/-- A ready table becomes ACTIVE; a spare-map swap writes a lifetime record, at most once per minute. -/
def State.swapTables (s : State) : State :=
  let s :=
    if s.lif.spareBuild = .ready then
      let s := { s with lif := { s.lif with spareMap := s.lif.pendingMap, spareGen := s.lif.spareGen + 1, spareBuild := .idle } }
      let s := s.note .tableSwapped [0, s.lif.spareGen]
      if s.lif.lastSwapWrite + 60000000000 ≤ s.counter ∨ s.lif.lastSwapWrite = 0 then
        let s := s.writeLifetime 0
        { s with lif := { s.lif with lastSwapWrite := s.counter } }
      else s
    else s
  if s.lif.repairBuild = .ready then
    let s := s.repairEvents s.lif.repairs.length
    let s := { s with lif := { s.lif with
      repairs := s.lif.pendingRepairs, repairGen := s.lif.repairGen + 1, repairBuild := .idle } }
    s.note .tableSwapped [1, s.lif.repairGen]
  else s

/-- A main partition is RUNNING. -/
def State.mainRunning (s : State) : Bool := s.parts.any fun p => p.state == .running && p.kind != .filler

/-- BACKGROUND_REBUILD (R563, R564): the PENDING generations stand in every copy; they swap in at the next step boundary, or at once while
no main partition runs. -/
def execBackgroundRebuild (s : State) : Host.Outcome State Fault Refusal :=
  if !s.up then .next s
  else
    let built (b : Build) : Build := if b = .building then .ready else b
    let s :=
      if s.lif.repairBuild = .building then
        s.repairEvents s.lif.repairs.length
      else s
    let s := { s with lif := { s.lif with spareBuild := built s.lif.spareBuild, repairBuild := built s.lif.repairBuild } }
    .next (if s.mainRunning then s else s.swapTables)

end Sys2Proof.Machine
end

