-- ==== Sys2Proof/Machine/StartUp.lean ====
section
/-! DEFINITION. Sys2Proof/Machine/StartUp.lean: the start-up sequence (spec/14 R400 to R407, R416, R421 to R423; spec/21 R592 to R604, R612), the halted
state and step time-outs. A step ends in the state it leaves, or in the halted state (`.error`). -/

namespace Sys2Proof.Machine

open Sys2Proof

/-- The halted state (R404): switch sets in BYPASS, tile core rails off, one FATAL record. (DESIGN CHOICE, log 31) -/
def State.haltWith (s : State) (st : Status) (args : List Nat) : State :=
  let s := (List.range 4).foldl (fun s a => s.closeAxis a) s
  let s := s.mapRails fun _ r => { r with on := false }
  let s := s.event { hubEvent st s.counter args with cls := .fatal }
  { s with boot := { s.boot with phase := .halted } }

def State.halt (s : State) (st : Status) : State := s.haltWith st []

/-- What a step of start-up leaves. -/
abbrev Started := Except State State

/-- A step completed. -/
def State.stepDone (s : State) (n : Nat) : State := { s with boot := { s.boot with step := n } }

/-- The units of a step that ran past its maximum (R405). (DESIGN CHOICE, log 31) -/
def State.lateUnits (s : State) (n : Nat) : List Nat := (s.boot.excluded.filter fun e => e.1 == n).map (·.2)

/-! Step 2: the boot ROM (R403, R592). -/

/-- An identity record copy whose CRC checks (R593): helper data, wrapped key, chain. -/
def identityCopy (f : List (Nat × Byte)) : Option (List Byte × List Byte × List Byte) :=
  let bs := flashRead f flIdentity 0x4000
  let n := leAt bs 8 4
  if leNat (bs.take 4) = 0x59574944 ∧ leAt bs 4 2 = 1 ∧ n ≤ 12288 ∧ leAt bs 0xC 4 = (crc32 (slice bs 0x10 (0xFF0 + n))).toNat then
    some (slice bs 0x10 0x400, slice bs 0x410 (leAt bs 6 2), slice bs 0x1000 n)
  else none

/-- The PUF secret, from the helper data of the first copy whose CRC checks. -/
def State.puf (s : State) : List Byte :=
  match identityCopy s.flash0, identityCopy s.flash1 with
  | some c, _ => Config.pufSecret c.1
  | none, some c => Config.pufSecret c.1
  | none, none => []

/-- The lifetime record in use: the highest sequence number whose MAC checks (R567). -/
def State.lifetimeRecord (s : State) : Option (List Byte) :=
  let rs := (List.range 128).filterMap fun k =>
    let base := flLifetime + 0x20000 * k
    if leNat (flashRead s.flash1 base 4) = 0x59574C46 then
      (let bs := flashRead s.flash1 base 0x20000
       if leAt bs 4 2 = 1 ∧ bs.drop 0x1FFE0 = hmac256 s.sec.recKey (bs.take 0x1FFE0) then some bs else none)
    else none
  rs.foldl (fun b r =>
    match b with
    | some x => if leAt x 8 8 < leAt r 8 8 then some r else b
    | none => some r) none

/-- Logical management cores after the self-check: the spare takes the first failure's place, a second failure is none. (DEDUCED, log 30) -/
def mgmtMap (mgmt fails : List Nat) : Option (List Nat × Nat) :=
  let bad := mgmt.filter fun m => fails.contains m
  match bad with
  | [] => some (mgmt, 0)
  | [m] => if fails.contains 4 ∨ mgmt.contains 4 then none else some (mgmt.map fun x => if x = m then 4 else x, 1)
  | _ => none

def State.step2 (s : State) (r : StartReport) : Started :=
  let puf := s.puf
  let s := { s with sec := { Security.reset with recKey := hkdf32 puf "YW-REC", floorKey := hkdf32 puf "YW-FLOOR" } }
  let lr := s.lifetimeRecord
  let boot := ((lr.map fun b => leAt b 0x18 8).getD 0) + 1
  let s := { s with boot := { s.boot with bootCount := BitVec.ofNat 64 boot } }
  let base := boot % 2 ^ 20 * 2 ^ 44
  let s :=
    if s.tansy.ring.isEmpty then
      { s with tansy := { s.tansy with era := base, next := base + 1, spillNext := spillNextOf s.flash0 } }
    else s
  let mgmt := ((lr.map fun b => (parseSpareMap (slice b 0x300 0x2C0)).mgmt).getD (List.range 4))
  match mgmtMap mgmt (r.mgmtFails ++ s.lateUnits 2) with
  | none => .error (s.halt .selftestUnit)
  | some (m, k) =>
    let s := if k = 0 then s else s.note .selftestUnit []
    .ok ({ s with lif := { s.lif with pendingMap := { s.lif.pendingMap with mgmt := m }, useMgmt := k } }.stepDone 2)

/-- A step that ran past its maximum and went on is recorded (R405). -/
def State.noteLate (s : State) (n : Nat) : State := if s.boot.late.contains n then s.note .startTimeout [n] else s

/-! Steps 3 and 4: images, identity, lifetime data, test record, configuration. -/

/-- The identity of the first copy that passes R594. -/
def State.unwrapIdentity (s : State) : Option (Nat × Nat × Nat × List Byte) :=
  let wrap := hkdf32 s.puf "YW-WRAP"
  [s.flash0, s.flash1].findSome? fun f =>
    match identityCopy f with
    | some (_, key, chain) => (Config.unwrapKey wrap key).map fun (n, e, d) => (n, e, d, chain)
    | none => none

def State.loadIdentity (s : State) : State :=
  match s.unwrapIdentity with
  | none => s
  | some (n, e, d, chain) =>
    let (tn, te, serial) := (Config.chainFields chain).getD (0, 0, [])
    { s with sec := { s.sec with
      identity := true, modulus := n, exponent := e, privExp := d, chain, serial, testModulus := tn, testExponent := te } }

/-- Lifetime data of a record (R567). Times and errors counted since the last write are not in it. (DEDUCED, log 11) -/
def State.loadLifetime (s : State) (b : List Byte) : State :=
  let map := { parseSpareMap (slice b 0x300 0x2C0) with mgmt := s.lif.pendingMap.mgmt }
  let unit (w : Nat) : UnitSt :=
    ⟨match w % 4 with
     | 0 => .inService
     | 1 => .spare
     | 2 => .suspect
     | _ => .failed, bitsOf w 3 2, bitOf w 4⟩
  let ws (off n : Nat) : List W64 :=
    ((List.range n).map fun i => BitVec.ofNat 64 (leAt b (off + 8 * i) 8)).filter (· != 0)
  let use (o n : Nat) : List Nat := (List.range 10).map fun t => leAt b (0x90 + 8 * t + o) n
  let reps := ws 0x3000 8192
  { s with
    lif := { s.lif with
      powerOn := leAt b 0x10 8, writeSeq := leAt b 8 8, spareGen := leAt b 0x28 8, repairGen := leAt b 0x30 8
      spareMap := parseSpareMap (slice b 0x300 0x2C0), pendingMap := map, repairs := reps, pendingRepairs := reps
      sramRepairs := ws 0x13000 512
      coreSt := (List.range 1350).map fun i => unit (leAt b (0x2000 + i) 1)
      clusterSt := (List.range 90).map fun i => unit (leAt b (0x2600 + i) 1)
      useCores := use 0 2, useClusters := use 2 1, usePcs := use 3 1, useRows := use 4 2, useCols := use 6 2
      useLanes := (List.range 8).map fun i => leAt b (0xE0 + 2 * i) 2, useMgmt := s.lif.useMgmt + leAt b 0xF0 1
      cycles := (List.range 10).map fun t => leAt b (0x40 + 8 * t) 8
      hostKeys := (List.range 8).map fun i => slice b (0x100 + 64 * i) 64 } }.mapIslands fun i x =>
    { x with wear := leAt b (0x600 + i) 1, stress := leAt b (0x900 + 8 * i) 8 }

/-- What a module without a lifetime record starts from: the shipped map, with the management cores that failed the self-check, and the shipped repairs
(R411, R414, R416, R555). (DEDUCED, log 11) -/
def State.shippedLifetime (s : State) (r : StartReport) : State :=
  let shipped := parseSpareMap (s.testRead 0x2740 0x2C0)
  let map := { shipped with mgmt := ((mgmtMap shipped.mgmt (r.mgmtFails ++ s.lateUnits 2)).map (·.1)).getD s.lif.pendingMap.mgmt }
  let used (p : Nat) : Bool := (List.range 960).any fun i =>
    map.cores.getD i 0xF != 0xF && 135 * (i / 96) + 15 * map.clusters.getD (i / 12) 0 + map.cores.getD i 0xF == p
  let usedCl (q : Nat) : Bool := (List.range 80).any fun i => 9 * (i / 8) + map.clusters.getD i 0 == q
  let reps := ((List.range (min 8192 (leNat (s.testRead 0x2C 2)))).map fun i =>
    BitVec.ofNat 64 (leNat (s.testRead (0x2A00 + 8 * i) 8)))
  { s with lif := { s.lif with
    spareMap := map, pendingMap := map, repairs := reps, pendingRepairs := reps
    coreSt := (List.range 1350).map fun p => ⟨if used p then .inService else .spare, 0, false⟩
    clusterSt := (List.range 90).map fun q => ⟨if usedCl q then .inService else .spare, 0, false⟩ } }

/-- The record choice of R421. -/
structure CfgChoice where
  chosen : Option CfgRec
  fromStaged : Bool
  tooNew : Bool

def State.chooseCfg (s : State) : CfgChoice :=
  let fw := s.recVerFw
  let best := match s.cfgCopy false, s.cfgCopy true with
    | some a, some b => some (if a.gen < b.gen then b else a)
    | some a, none => some a
    | none, b => b
  match s.cfgStaged with
  | some r => if r.ver ≤ fw then ⟨some r, true, false⟩ else ⟨best, false, true⟩
  | none => ⟨best, false, false⟩

/-- The defaults state (R421). -/
def State.enterDefaults (s : State) (st : CfgStatus) : State :=
  let s := { s with
    regs := applyCfg s.regs none
    boot := { s.boot with status := st, record := none, recVerActive := 0, recGen := 0 } }
  s.note .configDefaults [st.code]

/-- A record in force: migrated, applied, its host keys kept (R421, R423, R443). -/
def State.applyRecord (s : State) (r : CfgRec) : State :=
  let (m, dropped) := r.migrate s.recVerFw
  let migrated := decide (r.ver < s.recVerFw)
  let regs := applyCfg s.regs (some m)
  let keys := (List.range 8).map fun k =>
    (List.range 8).flatMap fun w => beBytes 8 (regGet regs (Reg.cmpHostKey + 64 * k + 8 * w)).toNat
  let s := { s with
    regs
    lif := { s.lif with hostKeys := keys }
    boot := { s.boot with
      status := if migrated then .migrated else .record, record := some m, recVerActive := r.ver, recGen := r.gen } }
  if migrated then s.note .configMigrated [r.ver, dropped] else s

/-- Configuration at step 4 (R421). -/
def State.configure (s : State) : State :=
  let c := s.chooseCfg
  let s := if c.tooNew then
      (s.note .configTooNew []).setFlash false (flashErase s.flash0 flStaged 65536) else s
  match c.chosen with
  | none => s.enterDefaults .defaultsNone
  | some r =>
    if s.recVerFw < r.ver then s.enterDefaults .defaultsTooNew
    else if r.target ≠ zeros 16 ∧ r.target ≠ padTo 16 s.sec.serial then s.enterDefaults .defaultsSerial
    else s.applyRecord r

/-- The recovery loader (R612): Ethernet port 0 at 100 Gb/s, with the addresses and VLAN of a checking record. -/
def State.startLoader (s : State) (r : StartReport) : State :=
  let s := s.loadIdentity
  let s := match s.lifetimeRecord with
    | some b => s.loadLifetime b
    | none => s
  let es : List CfgEntry := match s.chooseCfg.chosen with
    | some c => c.entries.filter fun e => decide (Reg.ethIpv4 ≤ e.key ∧ e.key ≤ Reg.ethVlan)
    | none => []
  let regs := es.foldl (fun m e => regSet m e.key (BitVec.ofNat 64 (maskedValue e.key e.value.toNat))) s.regs
  let regs := regSet regs Reg.ethPortCtrl (BitVec.ofNat 64 (1 + putBits 2 1 2))
  let up := r.ethUp.getD 0 false
  let s := { s with regs, boot := { s.boot with phase := .recovery } }
  let s := s.note .recoveryMode []
  (s.setEth 0 EthPort.reset).selectApp 0 100 |> fun s => s.setEth 0 { s.ethPort 0 with up, fecAligned := up, plugged := r.ethPlugged.getD 0 false || up }

/-- Step 3. An image is taken as a whole: header and digests (R403, R610). (DEDUCED, log 30) -/
def State.step3 (s : State) (r : StartReport) : Started :=
  let fl := s.floorRec
  let (gen, floor) := fl.getD (0, 0)
  let s := { s with sec := { s.sec with floor, floorGen := gen, floorLost := fl.isNone } }
  let s := if fl.isNone then s.note .floorLost [] else s
  let p := s.pointer.2
  match [p, !p].find? s.imageValid with
  | none => .error (s.startLoader r)
  | some slot =>
    let h := s.imageRead slot 0 4096
    let ver (x : Bool) : Nat := if s.imageValid x then headerVer (s.imageRead x 0 4096) else 0
    let s := { s with upd := { s.upd with
      running := headerVer h, runSlot := slot, fallback := slot != p, runHeader := h, slotA := ver false, slotB := ver true } }
    let s := if slot = p then s else s.note .bootFallback [headerVer h]
    .ok (s.stepDone 3)

/-- Step 4: identity, test record, lifetime data, configuration. -/
def State.step4 (s : State) (r : StartReport) : Started :=
  if s.unwrapIdentity.isNone then .error (s.halt .identityLost)
  else
    let s := s.loadIdentity
    let ok (f : List (Nat × Byte)) : Bool := testCopyOk f s.sec.testModulus s.sec.testExponent (padTo 16 s.sec.serial)
    let s := { s with boot := { s.boot with testCopy := !ok s.flash0 } }
    let s := match s.lifetimeRecord with
      | some b => s.loadLifetime b
      | none => s.shippedLifetime r
    if !ok s.flash0 ∧ !ok s.flash1 then .error (s.halt .testRecord)
    else
      let s := s.configure
      .ok ({ s with tansy := s.tansy.begin s.regs s.counter }.stepDone 4)

/-! Steps 5 to 8: tiles, DRAM and journal, self-test, geometry. -/

/-- A tile isolated by start-up (R403, R429, R431). -/
def State.startIsolate (s : State) (t : Nat) : State :=
  if 10 ≤ t ∨ !s.tileIn t then s else (s.loseTile t).event (tileEvent .selftestTile s.counter t 0xFF [])

/-- The journal copies on isolated tiles move (R263). -/
def State.journalOff (s : State) : State := (List.range 10).foldl (fun s t => if s.tileIn t then s else s.moveJournal t) s

def State.step5 (s : State) (r : StartReport) : State :=
  let s := (bitsSet (s.reg Reg.cfgTileDisable) 10).foldl State.loseTile s
  let s := r.bootFails.foldl State.startIsolate s
  let worn := if s.boot.warm then [] else
    (List.range 10).filter fun t => (List.range 20).any fun j => decide (s.highestPoint (60 * t + 40 + j) < 5)
  let s := worn.foldl State.startIsolate s
  (s.mapRails fun t x => { x with on := s.tileIn t }).stepDone 5

/-- A pseudo-channel that fails training: a spare of its stack, or its tile is isolated (R281, R403). -/
def State.trainPc (s : State) (pc : Nat × Nat × Nat) : State :=
  let place := [pc.1, pc.2.1, pc.2.2]
  if s.lif.repairs.contains (repairEntry place 2) ∧ (s.lif.repairs.filter fun w => sameStack place w && repairKind w == 2).length ≤ 2
  then s
  else if (s.lif.repairs.filter fun w => sameStack place w && repairKind w == 2).length < 2 ∧ s.lif.repairs.length < 8192 then
    let reps := s.lif.repairs ++ [repairEntry place 2]
    { s with lif := { s.lif with repairs := reps, pendingRepairs := reps, usePcs := modifyAt s.lif.usePcs pc.1 (· + 1) } }.repairEvents
      (reps.length - 1)
  else s.startIsolate pc.1

/-- The journal at step 6 (R403, R429, R490): a new era where the mirror is empty; else, cold, the mirror must check and the copies are
rebuilt; warm, every entry's failing copies are rewritten from a good one. -/
def State.journalStart (s : State) : Started :=
  let j := s.jnl
  if j.mirror.isEmpty then
    let era := s.boot.bootCount.toNat % 2 ^ 20 * 2 ^ 44
    let j := { Journal.reset with era, eraBoot := s.boot.bootCount.toNat, last := era }
    let e := entryWord (era + 1) 0 EntryKind.eraStart.code 0 0 0 0 0 false 0 s.boot.bootCount.toNat
    .ok { s with jnl := j.append e }
  else if !s.boot.warm then
    if j.mirror.all fun e => twinOk e.2 then .ok { s with jnl := { j with copy1 := j.mirror, copy2 := j.mirror } }
    else .error (s.halt .journalLost)
  else
    .ok (j.mirror.foldl (fun s e => (s.jnlRead e.1).1) s)

def State.step6 (s : State) (r : StartReport) : Started :=
  let s := s.noteLate 6
  let s := r.pcFails.foldl State.trainPc s
  let s := (r.stackFails.map (fun (e : Nat × Nat) => e.1) ++ (s.lateUnits 6).map (· / 2)).foldl State.startIsolate s
  match s.journalStart with
  | .error s => .error s
  | .ok s =>
    let s := s.journalOff
    .ok ({ s with boot := { s.boot with dramKept := true } }.stepDone 6)

/-- Self-test's verdict on the units (R406, R556), where a row or column of SRAM that fails is repaired and joins the repair list (DEDUCED, log 30): failed ones are FAILED, SUSPECT ones that pass return as SPARE. -/
def selfTestUnits (us : List UnitSt) (fails : List Nat) : List UnitSt :=
  us.zipIdx.map fun (u, i) =>
    if fails.contains i then u.fails else if u.state = .suspect then { u with state := .spare } else u

def State.step7 (s : State) (r : StartReport) : Started :=
  let s := s.noteLate 7
  if !r.netFails.isEmpty then .error (s.halt .selftestTile)
  else
    let cores := r.coreFails ++ s.lateUnits 7
    let smoke := r.smokeTwice.map fun i => 9 * (i / 8) + s.lif.pendingMap.clusters.getD i 0
    let failed (s : State) (q : Nat) : State :=
      s.event { tileEvent .selftestUnit s.counter (q / 9) 0xFF [] with physical := physClusterWord q }
    -- arrays, then SRAM, then the smoke test
    let s := cores.foldl
      (fun s p => s.event { tileEvent .selftestUnit s.counter (p / 135) 0xFF [] with physical := physCoreWord p }) s
    let s := r.clusterFails.foldl failed s
    let s := { s with lif := { s.lif with sramRepairs := (s.lif.sramRepairs ++ (r.sramFails.filter fun w => !s.lif.sramRepairs.contains w)).take 512 } }
    let s := (r.smokeOnce ++ r.smokeTwice).foldl
      (fun s i => s.event (tileEvent .smokeMismatch s.counter (i / 8) 0xFF [i])) s
    let s := smoke.foldl failed s
    .ok ({ s with lif := { s.lif with
      coreSt := selfTestUnits s.lif.coreSt cores, clusterSt := selfTestUnits s.lif.clusterSt (r.clusterFails ++ smoke) } }.stepDone 7)

/-- The spare map of this start-up: clusters first, then cores, on units that no longer serve (R416). -/
def Lifetime.buildMap (l : Lifetime) (part : Part) : Lifetime :=
  let l := (List.range 80).foldl (fun l i =>
    if (l.clusterState (9 * (i / 8) + l.pendingMap.clusters.getD i 0)).state = .inService then l else (l.replaceCluster part i).1) l
  (List.range 960).foldl (fun l i =>
    let k := l.pendingMap.cores.getD i 0xF
    if k = 0xF ∨ (l.coreState (135 * (i / 96) + 15 * l.pendingMap.clusters.getD (i / 12) 0 + k)).state = .inService then l
    else (l.replaceCore part i).1) l

/-- Guard steps recomputed from the wear indices (R529): GUARD_STEP on a change, GUARD_EXHAUSTED when point 5 goes. -/
def State.guardSteps (s : State) (note : Bool) : State :=
  (List.range 612).foldl (fun s i =>
    let x := s.power.islands.getD i Island.reset
    let g := s.guardAt i 5
    let h := s.highestPoint i
    if g = x.guard ∧ h = x.highest then s
    else
      let gone := decide (h < 5 ∧ 5 ≤ x.highest)
      let s := s.modIsland i fun x => { x with guard := g, highest := h, worn := x.worn || gone }
      let s := if note ∧ g ≠ x.guard then s.note .guardStep [i, g] else s
      let s := if gone then s.note .guardExhausted [i] else s
      if gone ∧ (600 ≤ i ∨ 40 ≤ i % 60) then s.note .islandWorn [i] else s) s

def State.step8 (s : State) (_r : StartReport) : State :=
  let s := s.noteLate 8
  let before := s.lif.spareMap
  let s := { s with lif := s.lif.buildMap s.part }
  let s := (List.range 10).foldl (fun s t => if s.tileEmpty t then s.startIsolate t else s) s
  let s := ((s.lateUnits 8).foldl State.startIsolate s).journalOff
  let map := { s.lif.pendingMap with tileIsolated := s.boot.isolated }
  let changed := decide (map ≠ before)
  let s := { s with lif := { s.lif with
    pendingMap := map, spareMap := map, spareGen := s.lif.spareGen + b2n changed, spareBuild := .idle } }
  let inp := s.fpInput
  let s := s.takeFingerprint false
  let geo := s.boot.warm && inp != s.fpInput
  let s := if geo then
      { s with parts := s.parts.map fun p => if p.state = .running ∧ p.kind ≠ .filler then { p with geoPause := true } else p }
    else s
  (s.guardSteps true).stepDone 8

/-! Steps 9 to 11: torus, Ethernet, ready. -/

/-- One axis at step 9 (R397, R399, R511). -/
def State.startAxis (s : State) (r : StartReport) (a : Nat) : State :=
  let is := [2 * a, 2 * a + 1]
  let tr (i : Nat) : PortTrain := r.ports.getD i ⟨false, 0, false, 0, false, false, 0, 0, [], 0⟩
  if !s.axisEnabled a ∨ s.defaults then
    is.foldl (fun s i => s.setPort i { s.port i with state := .disabled }) s
  else if !s.axisTiles a then
    is.foldl (fun s i => s.setPort i { s.port i with state := .bypassed }) s
  else
    -- stage 1
    let s := is.foldl (fun s i =>
      let c := (tr i).cable
      if !(tr i).present then s.setPort i { s.port i with state := .noCable, cable := 0 }
      else if cableBad c then (s.setPort i { s.port i with state := .cableFault, cable := c }).portEvent .cableUnsupported i []
      else s.setPort i { s.port i with state := .loop, cable := c }) s
    -- stage 2
    if (is.any fun i => !(tr i).loopOk) ∨ (s.lateUnits 9).contains a then
      let s := is.foldl (fun s i => if (s.port i).state = .loop then s.setPort i { s.port i with state := .bypassed } else s) s
      s.note .loopFail [a]
    else if (s.reg Reg.cfgBypassPolicy).testBit a then
      let s := is.foldl (fun s i => if (s.port i).state = .loop then s.setPort i { s.port i with state := .held } else s) s
      s.setAxis a ⟨false, true, false, true⟩
    else
      let s := s.setAxis a ⟨true, true, false, false⟩
      let s := is.foldl (fun s i =>
        if (s.port i).state = .loop then (s.setPort i { s.port i with state := .training } |>.endTraining i (tr i)).state else s) s
      s.setAxis a { s.axis a with trained := is.all fun i => (s.port i).state == .up || (s.port i).state == .noCable }

def State.step9 (s : State) (r : StartReport) : State :=
  ((List.range 4).foldl (fun s a => s.startAxis r a) (s.noteLate 9)).stepDone 9

def State.step10 (s : State) (r : StartReport) : State :=
  ([0, 1].foldl (fun (s : State) (p : Fin 2) =>
    let s := if s.ethEnabled p then s.selectApp p (s.ethRate p) else s
    let up := s.ethEnabled p && r.ethUp.getD p.val false && !(s.lateUnits 10).contains p.val
    let s := s.setEth p { s.ethPort p with plugged := r.ethPlugged.getD p.val false || up }
    if up then s.ethLink p true else s) (s.noteLate 10)).stepDone 10

/-- The record written back once step 11 is complete (R423): over the copy with the smaller GEN, then the staged copy goes. -/
def State.writeBack (s : State) (staged : Bool) : State :=
  match s.boot.record with
  | none => s
  | some r =>
    if !staged ∧ s.boot.status ≠ .migrated then s
    else
      let g (c : Option CfgRec) : Nat := (c.map (·.gen)).getD 0
      let g0 := g (s.cfgCopy false)
      let g1 := g (s.cfgCopy true)
      let dest := if (s.cfgCopy false).isNone then false else if (s.cfgCopy true).isNone then true else decide (g1 < g0)
      let r := { r with gen := max g0 g1 + 1 }
      let s := s.putFlash dest flConfig 65536 (r.bytes s.sec.recKey)
      let s := if staged then s.setFlash false (flashErase s.flash0 flStaged 65536) else s
      { s with boot := { s.boot with record := some r, recGen := r.gen } }

/-- The rollback floor at step 11 (R603). -/
def State.raiseFloor (s : State) : State :=
  let f := leAt s.upd.runHeader 0x1C 4
  if s.sec.floor < f then
    let s := s.writeFloor (s.sec.floorGen + 1) f
    { s with sec := { s.sec with floor := f, floorGen := s.sec.floorGen + 1 } }.note .floorRaised [f]
  else s

def State.step11 (s : State) (staged : Bool) : State :=
  let s := { (s.noteLate 11) with boot := { s.boot with phase := .ready } }.stepDone 11
  let e := entryWord (s.jnl.last + 1) 0 EntryKind.reset.code 0 0 0 0 0 false 0 (putBits 63 56 s.boot.cause)
  let s := { s with jnl := s.jnl.append e }
  let s := ((s.writeLifetime 0).raiseFloor).writeBack staged
  if s.boot.warm then s.cmp.streams.foldl (fun s x => if x.2.isOpen then s.sendCredit x.1 none else s) s else s

/-- Time that a start-up's steps take. -/
def State.startTimes (s : State) (r : StartReport) : State :=
  let ns := 1000 * ((r.durations.take 11).drop 1).sum
  { s with
    counter := s.counter + ns, wall := s.wall + ns
    boot := { s.boot with stepTimes := padZeros (r.durations.take 11) } }
where
  padZeros (l : List Nat) : List Nat := l ++ List.replicate (11 - l.length) 0

/-- Steps 2 to 11 (R400). A strip found wet before any tile core rail is on stops the start-up by the leak trip (R374). (DEDUCED, log 30) -/
def State.startUp (s : State) (r : StartReport) : State :=
  let s := s.startTimes r
  match s.step2 r with
  | .error s => s
  | .ok s =>
    if r.wet then s.leakTrip
    else
      match s.step3 r with
      | .error s => s
      | .ok s =>
        match s.step4 r with
        | .error s => s
        | .ok s =>
          let staged := (s.chooseCfg).fromStaged
          match (s.step5 r).step6 r with
          | .error s => s
          | .ok s =>
            match s.step7 r with
            | .error s => s
            | .ok s => ((((s.step8 r).step9 r).step10 r).step11 staged)

/-- The hub's boot ROM may run: power is good and no reset is held (R379, R381, R382). -/
def State.starting (s : State) : Bool :=
  decide (s.boot.phase = .starting ∧ s.pins.hold = .running) && s.pins.pgood

/-- START_UP (R400). -/
def execStartUp (r : StartReport) (s : State) : Host.Outcome State Fault Refusal :=
  .next (if s.starting then s.startUp r else s)

/-- A start-up in which nothing fails. -/
def StartReport.clean : StartReport :=
  { durations := [], wet := false, mgmtFails := [], bootFails := [], pcFails := [], stackFails := [], coreFails := [], clusterFails := []
    sramFails := [], netFails := [], smokeOnce := [], smokeTwice := [], ports := [], ethUp := [], ethPlugged := [] }

/-- The steps that lie before step n of 3 to 5 have completed. -/
def State.upTo (s : State) (n : Nat) : Started :=
  let r := StartReport.clean
  if n ≤ 2 then .ok (s.stepDone (n - 1))
  else
    match s.step2 r with
    | .error s => .error s
    | .ok s =>
      if n = 3 then .ok s
      else
        match s.step3 r with
        | .error s => .error s
        | .ok s => if n = 4 then .ok s else s.step4 r

/-- START_TIMEOUT (R405): a step ran past its maximum. In steps 1 to 5 that halts, after what the steps before it did; a later step's unfinished units are
taken out of service when the start-up comes to it, and the record is made there. (DESIGN CHOICE, log 31) -/
def execStartTimeout (step : Nat) (units : List Nat) (s : State) : Host.Outcome State Fault Refusal :=
  if !s.starting ∨ step = 0 ∨ 11 < step then .next s
  else if step ≤ 5 then
    .next (match s.upTo step with
      | .ok s => s.haltWith .startTimeout [step]
      | .error s => s)
  else .next { s with boot := { s.boot with excluded := s.boot.excluded ++ units.map (fun u => (step, u)), late := s.boot.late ++ [step] } }

end Sys2Proof.Machine
end

