-- ==== Sys2Proof/Machine/Steps.lean ====
section
/-! DEFINITION. Sys2Proof/Machine/Steps.lean: how a step ends (spec/16 R483 to R486), what happens at a step boundary (R359, R476, R479, R529, R559,
R563, R566), filler pre-emption (spec/07 R214), and the moves between power states (spec/18 R525 to R527). -/

namespace Sys2Proof.Machine

open Sys2Proof

/-! Views and kinds (R31, R466). -/

def PartKind.isMain : PartKind → Bool
  | .train | .bringup | .recovery => true
  | _ => false

/-- A partition's view word; `fill`: the window of the filler that names it. -/
def viewWord (kind : PartKind) (fwin : Bool) (fill : Option Bool) : W64 :=
  let win (w : Bool) : Nat := if w then 256 else 128
  let (ls, cs, trf) := if kind = .filler then (win fwin, 1536, 0)
    else
      match fill with
      | none => (960, 12288, 64)
      | some w => (960 - win w, 10752, 64)
  BitVec.ofNat 64 (putBits 52 52 1 + putBits 51 48 kind.code + putBits 47 40 12 + putBits 39 32 trf + putBits 31 16 cs
    + putBits 15 0 ls)

/-- The views written afresh (R31). -/
def State.setViews (s : State) : State :=
  let fill (p : Nat) : Option Bool := (s.fillerOf p).map fun f => (s.partition f).fwin
  { s with parts := s.parts.zipIdx.map fun e =>
      if e.1.state = .empty ∨ e.1.state = .loading then { e.1 with view := 0 }
      else { e.1 with view := viewWord e.1.kind e.1.fwin (fill e.2) } }

/-! Cores between items. -/

/-- A core without an item: its stores, side memory and suspended filler item stay. -/
def Core.idle (c : Core) : Core := { Core.reset with ls := c.ls, side := c.side, suspended := c.suspended }

/-- The cores that run an item of the main step (false) or of the filler's (true). -/
def State.busyCores (s : State) (filler : Bool) : List Nat :=
  (s.cores.filter fun e =>
    match e.2.item with
    | some (f, _) => f == filler
    | none => false).map (·.1)

/-- The time that a core has been held joins BNT_HOLD_TIME (R348). -/
def State.countHold (s : State) (i : Nat) : State :=
  match (s.core i).heldSince with
  | some t0 => s.count Reg.bntHoldTime (s.counter - t0)
  | none => s

/-- A core's item leaves it; its moves in progress end, and so does its hold. -/
def State.releaseCore (s : State) (i : Nat) : State :=
  let s := s.countHold i
  let k := s.cluster (i / 12)
  (s.setCore i (s.core i).idle).setCluster (i / 12)
    { k with dma := k.dma.filter fun d => d.core != i, groups := k.groups.filter fun g => g.owner != i }

def State.releaseCores (s : State) (filler : Bool) : State := (s.busyCores filler).foldl State.releaseCore s

/-- A filler item suspended (R214): issued instructions have finished; a move not complete is cancelled and goes back to the window. The manual gives no
layout of the save areas in the cluster store (R93, R217): what they hold is kept in Core.suspended, and the bytes of the cluster store stay as they
were. (DESIGN CHOICE, log 56) -/
def State.preempt (s : State) (i : Nat) : State :=
  let c := s.core i
  match c.item, c.hdr with
  | some (true, n), some h =>
    let back := ((s.cluster (i / 12)).dma.filter fun d => d.core == i).map fun d => { d.entry with issued := false }
    let window := sortBy (fun a b => decide (a.index < b.index)) (back ++ c.window)
    let sus : Suspended :=
      { node := n, hdr := h, ran := s.counter - c.startedAt, ended := c.ended, pc := c.pc, window, slots := c.slots.filter fun e => e.2.state == .accum, shadow := c.shadow
        shadowSet := c.shadowSet, active := c.active, nfLog := c.nfLog, nfDropped := c.nfDropped, nfCount := c.nfCount
        splitUsed := c.splitUsed }
    let s := s.releaseCore i
    s.setCore i { s.core i with suspended := some sus }
  | _, _ => s

/-- Suspended and running filler items start again from their start (R218). -/
def State.restartFiller (s : State) : State :=
  let s := (s.busyCores true).foldl State.preempt s
  let ns := s.cores.filterMap fun e => e.2.suspended.map (·.node)
  let back (e : Node × Nat) : Node := if ns.contains e.2 then { e.1 with state := .ready, started := false } else e.1
  let s := { s with filler := s.filler.map fun (r : StepRun) => { r with nodes := r.nodes.zipIdx.map back } }
  (s.cores.map (·.1)).foldl (fun s i => s.setCore i { s.core i with suspended := none }) s

/-! Pace (R346). -/

/-- The pace reason and flag: the condition with the most time, the lower value on ties. -/
def State.pace (s : State) : Nat × Bool :=
  let best := (List.range 8).foldl (fun b k => if s.power.pace.getD b 0 < s.power.pace.getD k 0 then k else b) 0
  (best, decide (0 < s.power.pace.getD best 0))

/-- Time spent in a pace condition. -/
def State.addPace (s : State) (reason ns : Nat) : State :=
  if s.step.isSome ∨ s.filler.isSome then
    { s with power := { s.power with pace := modifyAt s.power.pace reason (· + ns) } }
  else s

/-! Worn units and geometry at a boundary. -/

/-- A logical core whose physical core is FAILED through wear draws anew (R566). -/
def State.rehouse (s : State) (i : Nat) : State :=
  match s.physCore i with
  | none => s
  | some p =>
    if (s.lif.coreState p).state ≠ .failed then s
    else
      let (l, e) := s.lif.replaceCore s.part i
      let s := { s with lif := l }.spareChanged
      let new := ((s.physCore i).map physCoreWord).getD noUnit
      match e with
      | .drawn => ((s.freshCore i).substituted (coreWord i) (physCoreWord p) new (i / 96)).noteSubst
      | .moved => (s.freshCluster (i / 12)).substituted (clusterWord (i / 96) (i / 12 % 8)) (physCoreWord p) new (i / 96)
      | .out => s.freshCore i

/-- A worn core group: its five physical cores become FAILED. -/
def State.wearCores (s : State) (t g : Nat) : State :=
  let ps := (List.range 5).map fun m => 135 * t + 5 * g + m
  if ps.all fun p => (s.lif.coreState p).worn then s
  else
    let s := { s with lif := ps.foldl (fun l p => l.modCore p fun u => { u with state := .failed, worn := true }) s.lif }
    let s := ps.foldl (fun s p => s.retired t (physCoreWord p)) s
    (List.range 96).foldl (fun s k => s.rehouse (96 * t + k)) s

/-- A worn cluster: it becomes FAILED, and the logical cluster on it moves (R557, R566). -/
def State.wearCluster (s : State) (t q : Nat) : State :=
  if (s.lif.clusterState (9 * t + q)).worn then s
  else
    let s := { s with lif := s.lif.modCluster (9 * t + q) fun u => { u with state := .failed, worn := true } }
    let s := s.retired t (physClusterWord (9 * t + q))
    match (List.range 8).find? fun c => s.lif.pendingMap.clusters.getD (8 * t + c) 0 == q with
    | none => s
    | some c =>
      let (l, e) := s.lif.replaceCluster s.part (8 * t + c)
      let s := ({ s with lif := l }.spareChanged).freshCluster (8 * t + c)
      if e = .out then s
      else s.substituted (clusterWord t c) (physClusterWord (9 * t + q))
        (physClusterWord (9 * t + s.lif.pendingMap.clusters.getD (8 * t + c) 0)) t

/-- What wear does to a unit at a boundary (R566). (DESIGN CHOICE, log 21) -/
def State.wearIsland (s : State) (i : Nat) : State :=
  let t := i / 60
  let j := i % 60
  if !(s.power.islands.getD i Island.reset).worn ∨ 600 ≤ i ∨ 40 ≤ j then s
  else if j < 27 then (s.wearCores t j).isolateIfEmpty t
  else if j < 36 then (s.wearCluster t (j - 27)).isolateIfEmpty t
  else (s.wearCluster t (Config.networkCluster j % 9)).isolateIfEmpty t

/-- The module's own work at a step boundary, before the step is accounted for: guard steps, wear, tiles due for isolation, tables
built. -/
def State.boundaryUnits (s : State) : State :=
  let s := s.guardSteps true
  let s := (List.range 600).foldl State.wearIsland s
  let due := bitsSet s.lif.isolateNext 10
  let s := due.foldl State.isolateTile { s with lif := { s.lif with isolateNext := 0 } }
  s.swapTables

/-- A new fingerprint waits for a boundary (R359). -/
def State.geometryPending (s : State) : Bool :=
  fingerprintInput s.part s.boot.isolated s.lif.pendingMap != s.fpInput

/-- A partition's step is running. -/
def State.stepping (s : State) (p : Nat) : Bool := (s.step.any fun r => r.part == p) || (s.filler.any fun r => r.part == p)

/-- PAUSED with GEOMETRY_CHANGED (R479). -/
def State.pauseGeometry (s : State) : State :=
  (List.range 8).foldl (fun s p =>
    let x := s.partition p
    if x.geoPause ∧ x.state = .running ∧ !s.stepping p then
      let e := entryWord (s.jnl.last + 1) 0 EntryKind.paused.code 0 0 0 p 0 false Status.geometryChanged.code 0
      ({ s with jnl := s.jnl.append e }).modPart p fun x => { x with state := .paused, geoPause := false }
    else s) s

/-- The new fingerprint takes effect, and the RUNNING main partitions pause (R359, R479, R560). -/
def State.boundaryGeometry (s : State) : State :=
  if s.geometryPending then
    let s := (s.takeFingerprint true).note .geometryChanged []
    let s := { s with parts := s.parts.map fun (x : Partition) =>
      if x.state == PartState.running && x.kind.isMain then { x with geoPause := true } else x }
    s.pauseGeometry
  else s.pauseGeometry

/-! Power states (R525 to R527). -/

/-- Stores of the compute dies lost: cores, cluster stores (R525). -/
def State.loseCores (s : State) : State :=
  { s with
    cores := [], clusters := []
    mem := s.mem.filter fun e => decide (e.1 < 0x00B000000000)
    keep := { s.keep with marks := s.keep.marks.filter fun m => decide (m < 0x00B000000000) } }

/-- Tile stores lost. -/
def State.loseTileStores (s : State) : State :=
  { s with
    mem := s.mem.filter fun e => decide (e.1 < 0x00A000000000)
    keep := { s.keep with marks := s.keep.marks.filter fun m => decide (m < 0x00A000000000) } }

/-- Tile core rails on, at point 5, where the tile is in service and no trip is latched; or off. (DEDUCED, log 39) -/
def State.railsTo (s : State) (on : Bool) : State :=
  s.mapRails fun t r => { r with
    on := on && s.tileIn t && !r.tripI && !r.tripT, point := 5, samples := [], stretchPct := 0 }

def State.closeAxes (s : State) : State := (List.range 4).foldl State.closeAxis s

/-- The axes open again as at step 9; their ports train (R527). (DEDUCED, log 39) -/
def State.openAxes (s : State) : State :=
  (List.range 4).foldl (fun s a =>
    let x := s.axis a
    if !s.axisEnabled a ∨ s.defaults ∨ !x.loopPassed ∨ !s.axisTiles a then s
    else
      let hold := (s.reg Reg.cfgBypassPolicy).testBit a
      let s := s.setAxis a { x with through := !hold, held := hold }
      [2 * a, 2 * a + 1].foldl (fun s i =>
        if (s.port i).state = .bypassed then s.setPort i { s.port i with state := if hold then .held else .training } else s) s) s

/-- A CREDIT on every open stream. -/
def State.creditAll (s : State) (held : Bool) : State :=
  s.cmp.streams.foldl (fun s x =>
    if x.2.isOpen then s.sendCredit x.1 (if held then (s.stream x.1).map (·.nextSample) else none) else s) s

/-- The move to a state, once no main step runs. (DEDUCED, log 39) -/
def State.movePower (s : State) (dest : PowerState) : State :=
  let cur : PowerState := s.power.state
  let s : State := (s.busyCores true).foldl State.preempt s
  let s := if dest == PowerState.park || dest == PowerState.dormant || dest == PowerState.off then
      s.mapRails fun _ r => { r with tripI := false, tripT := false } else s
  let s := { s with power := { s.power with state := dest, target := dest, moving := false } }
  let s := if cur == PowerState.dormant then s.loseTileStores else s
  let s :=
    match dest with
    | .full | .hold =>
      let s := if cur == PowerState.park || cur == PowerState.dormant then (s.loseCores).railsTo true else s
      if cur == PowerState.dormant then s.openAxes.creditAll false else s
    | .park =>
      let s := if cur == PowerState.full || cur == PowerState.hold then ((s.restartFiller).loseCores).railsTo false else s
      if cur == PowerState.dormant then s.openAxes.creditAll false else s
    | .dormant =>
      let s := if cur == PowerState.full || cur == PowerState.hold then ((s.restartFiller).loseCores).railsTo false else s
      ((s.loseTileStores.rewindStreams).creditAll true).closeAxes
    | .off =>
      let s := s.writeLifetime 0
      let s := ((s.restartFiller).loseCores).railsTo false
      { s.closeAxes with
        mem := [], keep := { s.keep with marks := [] }, step := none, filler := none, deferred := []
        boot := { s.boot with dramKept := false }
        cmp := { s.cmp with sessions := List.replicate 16 Session.reset, pendingIds := [], streams := [] }
        eth := s.eth.map fun (e : EthPort) => { EthPort.reset with plugged := e.plugged }
        vetch := List.replicate 10 ⟨[], [], []⟩, xpr := Xpr.reset
        bnt := { Burnet.reset with sealParts := s.bnt.sealParts } }
  s.note .powerStateChanged [cur.code, dest.code]

/-! Management commands that wait for a step boundary (R476, R479, R526). -/

/-- The commands of a partition's queues end ABANDONED. -/
def State.abandonPart (s : State) (p : Nat) : State := s.abandonAll ((s.partition p).queues.flatMap fun q => q.cmds)

/-- A tag's partition (R307). -/
def tagPart (tag : W32) : Nat := bitsOf tag.toNat 31 29

/-- A partition removed (R297, R476): its queues, streams and buckets with their owners, its pools, its place. -/
def State.removePartition (s : State) (p : Nat) : State :=
  let s := s.abandonPart p
  let s := (List.range s.vetch.length).foldl (fun (s : State) n =>
    let (v, rs) := (s.vetchOf n).removePart n p
    (s.setVetch n v).vetchEach n p rs) s
  { s with
    cmp := { s.cmp with streams := s.cmp.streams.filter fun e => e.2.part != p }
    bnt := { s.bnt with
      defs := s.bnt.defs.filter fun d => tagPart d.tag != p, runs := s.bnt.runs.filter fun r => tagPart r.tag != p
      gathers := s.bnt.gathers.filter fun r => tagPart r.tag != p, exchanges := s.bnt.exchanges.filter fun r => tagPart r.tag != p
      sealParts := modifyAt s.bnt.sealParts p fun _ => SealPart.reset }
    parts := modifyAt s.parts p fun _ => Partition.reset }.setViews

/-- JOB_STOP's effect: LOADED (R476). -/
def State.stopJob (s : State) (p : Nat) : State :=
  (s.abandonPart p).modPart p fun x => { x with state := .loaded, origin := 0, extent := 0, coord := 0 }

/-- A partition and the filler that names it are at a boundary. -/
def State.atBoundary (s : State) (p : Nat) : Bool :=
  !s.stepping p && !((s.fillerOf p).any fun f => s.stepping f)

def powerOf : Nat → Option PowerState
  | 0 => some .full
  | 1 => some .hold
  | 2 => some .park
  | 3 => some .dormant
  | 4 => some .off
  | _ => none

/-- JOB_PAUSE of a started command. -/
def State.tryPause (s : State) (c : Cmd) (p : Nat) : State :=
  let x := s.partition p
  if 8 ≤ p ∨ (x.state ≠ .running ∧ x.state ≠ .paused) then s.complete c .jobConfig
  else if s.stepping p then s
  else (s.modPart p fun x => { x with state := .paused }).complete c .ok

/-- JOB_STOP and UNLOAD of a started command. -/
def State.tryStop (s : State) (c : Cmd) (p : Nat) (unload : Bool) : State :=
  let x := s.partition p
  if 8 ≤ p ∨ x.state = .empty ∨ x.state = .loading ∨ x.state = .unloading then s.complete c .jobConfig
  else if !(if unload then s.atBoundary p else !s.stepping p) then s.modPart p fun x => { x with state := .stopping }
  else if unload then
    let s := match s.fillerOf p with
      | some f => s.removePartition f
      | none => s
    (s.removePartition p).complete c .ok
  else (s.stopJob p).complete c .ok

/-- PWR_SET_STATE of a started command. -/
def State.tryPower (s : State) (c : Cmd) (v : Nat) : State :=
  match powerOf v with
  | none => s.complete c .powerStateRefused
  | some dest =>
    if dest = s.power.state then { s with power := { s.power with moving := false, target := dest } }.complete c .ok
    else if s.step.isSome then { s with power := { s.power with moving := true, target := dest } }
    else (s.movePower dest).complete c .ok

/-- A started management command that waited for the boundary. -/
def State.settleMgmt (s : State) : State :=
  match s.mgmt.cmds.head? with
  | some c =>
    if !c.started then s
    else
      let v := leAt c.params 0 1
      match c.family, c.op with
      | 0x03, 0x02 => s.tryPause c v
      | 0x03, 0x04 => s.tryStop c v false
      | 0x02, 0x02 => s.tryStop c v true
      | 0x06, 0x01 => s.tryPower c v
      | _, _ => s
  | none => s

/-! Boundaries. -/

/-- Everything due at a boundary when no main step runs. -/
def State.boundary (s : State) : State := (s.boundaryUnits.boundaryGeometry).settleMgmt

/-- A change made while no main step runs meets its boundary at once. -/
def State.settle (s : State) : State := if s.step.isNone then s.boundary else s

/-- STATUS of R485. -/
def stepStatus (fail : Option Status) (notes : Nat) : Status :=
  match fail with
  | some st => st
  | none =>
    if notes.testBit 4 then .geometryChanged else if notes.testBit 0 then .okPartial
    else if notes.testBit 1 then .capacityOverflow else if notes.testBit 2 then .boundSplit
    else if notes.testBit 3 then .unitSubstituted else .ok

/-- The step completion record (R483). -/
def State.stepRecord (s : State) (r : StepRun) (st : Status) (notes : Nat) : Nat :=
  let (reason, thr) := s.pace
  putBits 511 448 r.step + putBits 447 432 st.code + putBits 431 416 notes + putBits 415 412 r.replays
    + putBits 411 408 reason + putBits 407 407 (b2n thr)
    + putBits 383 320 (if r.startedAt = 0 then 0 else s.counter - r.startedAt) + putBits 319 256 (s.retryNow - r.retryNs0)
    + putBits 255 224 r.subst + putBits 223 192 r.promoted + putBits 191 160 r.qfull + putBits 159 128 r.dropped
    + putBits 127 96 r.nfCount + putBits 95 64 r.splitItems + putBits 63 0 s.fp.toNat

/-- The command that a step runs. -/
def State.stepCmd (s : State) (r : StepRun) : Option Cmd := s.allCmds.find? fun c => c.jseq == r.jseq

/-- What a step leaves behind in the shared units is cleared. -/
def State.clearStep (s : State) (filler : Bool) (p step : Nat) : State :=
  let s := s.releaseCores filler
  let s := if filler then s.restartFiller else s
  let s := { s with
    deferred := if filler then s.deferred else []
    xpr := { s.xpr with
      queues := s.xpr.queues.map fun (q : List RouteReq) => q.filter fun x => x.part != p
      waiting := s.xpr.waiting.map fun (q : List RouteReq) => q.filter fun x => x.part != p }
    bnt := { s.bnt with
      runs := s.bnt.runs.filter fun b => tagPart b.tag != p || b.step != step
      gathers := s.bnt.gathers.filter fun r => tagPart r.tag != p
      exchanges := s.bnt.exchanges.filter fun r => tagPart r.tag != p || !r.sent } }
  if filler then { s with filler := none }
  else { s with step := none, power := { s.power with pace := List.replicate 8 0 }, links := { s.links with arrived := [] } }

/-- A step completes with its status (R483, R485) and the boundary follows. -/
def State.completeStep (s : State) (filler : Bool) (fail : Option Status) : State :=
  match (if filler then s.filler else s.step) with
  | none => s
  | some r =>
    let s := if filler then s.accrue else s.accrue.boundaryUnits
    let r := ((if filler then s.filler else s.step).getD r)
    let notes := r.notes ||| (if !filler ∧ s.geometryPending then 16 else 0)
    let st := stepStatus fail notes
    let rec_ := leBytes 64 (s.stepRecord r st notes)
    let cmd := s.stepCmd r
    let s := s.clearStep filler r.part (r.step % 2 ^ 32)
    let s := match cmd with
      | some c => s.finish c .completed st (putBits 63 32 r.step + putBits 31 16 notes + putBits 15 12 r.replays) rec_
      | none => s
    if filler then s.settleMgmt else (s.boundaryGeometry).settleMgmt

/-- A step with SEAL = 0 completes at its first failure (R486); one that seals waits for the decision. -/
def State.endFailed (s : State) : State :=
  let s := match s.step with
    | some r => if r.fail.isSome ∧ !r.isSeal then s.completeStep false r.fail else s
    | none => s
  match s.filler with
  | some r => if r.fail.isSome then s.completeStep true r.fail else s
  | none => s

/-- What makes a replay fail at once: a latched trip of this rank (R532), a tile isolated since the fingerprint took effect (R562). -/
def State.replayBar (s : State) : Option Status :=
  if s.power.rails.any (·.tripI) then some .railTrip
  else if s.power.rails.any (·.tripT) then some .thermalTrip
  else if s.boot.isolated &&& leAt s.fpInput 2 2 ≠ 0 then some .tileIsolated
  else none

/-- The step runs again from its start (R339, R486). It stays the same step: DEFERRED_FULL is recorded once per step and cluster over all its runs
(R202). (DEDUCED, log 40) -/
def State.replayStep (s : State) (r : StepRun) : State :=
  let s := match s.stepCmd r with
    | some c => s.jnlEntry c .replayed .ok r.step
    | none => s
  let s := s.releaseCores false
  { s with
    deferred := []
    xpr := { s.xpr with
      queues := s.xpr.queues.map fun (q : List RouteReq) => q.filter fun x => x.part != r.part
      waiting := s.xpr.waiting.map fun (q : List RouteReq) => q.filter fun x => x.part != r.part
      stepDemand := [], stepParams := [], paramsDiffer := false, biasDone := false }
    bnt := { s.bnt with
      runs := s.bnt.runs.map fun b => if tagPart b.tag = r.part then
        { b with openedAt := none, headers := [], data := [], asked := [], done := false, kept := b.mask.isSome } else b
      gathers := s.bnt.gathers.filter fun b => tagPart b.tag != r.part
      exchanges := s.bnt.exchanges.filter fun b => tagPart b.tag != r.part }
    links := { s.links with arrived := [] }
    step := some { r with
      nodes := r.nodes.map fun n => { n with state := .waiting, started := false, status := .ok, reruns := 0 }
      startedAt := 0, retryNs0 := s.retryNow, replays := r.replays + 1, fail := s.replayBar, notes := 0, subst := 0, promoted := 0
      qfull := 0, dropped := 0, nfCount := 0, splitItems := 0, prepared := false, failSent := false, abort := none } }

end Sys2Proof.Machine
end

