-- ==== Sys2Proof/Machine/Bias.lean ====
section
/-! DEFINITION. Sys2Proof/Machine/Bias.lean: the balance bias (spec/08 R251 to R253): the table's place, the demand sums, the loop at a step's end. -/

namespace Sys2Proof.Machine

open Sys2Proof

/-- The bias of a layer's expert in a tile's table: the version that the last seal left there (R251). -/
def State.biasAt (s : State) (t layer e : Nat) : Nat := s.memNat (biasAddr t layer e) 4

/-- The ten tiles' tables as ranges. -/
def biasRanges : List (Nat × Nat) := (List.range 10).map fun t => (dramAddr t biasOffset, biasBytes)

/-- A demand sum of a layer's expert. -/
def demandOf (tab : List (Nat × Nat)) (layer e : Nat) : Nat := ((tab.find? fun x => x.1 == 256 * layer + e).map (·.2)).getD 0

/-- Demand added under a key. -/
def addDemand (l : List (Nat × Nat)) (k n : Nat) : List (Nat × Nat) :=
  if n = 0 then l else setAssoc l k (((l.find? fun x => x.1 == k).map (·.2)).getD 0 + n)

/-- The parameters of a layer's routes join those carried in the step; a difference is kept in mind (R252). -/
def Xpr.carry (x : Xpr) (layer : Nat) (p : RouteParams) : Xpr :=
  match x.stepParams.find? fun e => e.1 == layer with
  | some e => if e.2 = p then x else { x with paramsDiffer := true }
  | none => { x with stepParams := setAssoc x.stepParams layer p }

/-- One layer's biases that change after the last step of a period: the expert and the new code (R252). `old`: the bias so far. -/
def updateBiases (p : RouteParams) (layer : Nat) (demand : List (Nat × Nat)) (old : Nat → Nat) : List (Nat × Nat) :=
  let n := p.em1 + 1
  let dem (e : Nat) : Nat := demandOf demand layer e
  let target := ((List.range n).map dem).sum / n
  let eta := FloatFmt.b32.decode p.eta
  (List.range n).filterMap fun e =>
    let b := FloatFmt.b32.decode (old e)
    if dem e < target then some (e, FloatFmt.b32.encode (FloatFmt.b32.add b eta))
    else if target < dem e then some (e, FloatFmt.b32.encode (FloatFmt.b32.sub b eta))
    else none

/-- The other modules' demand and parameters join this step's. -/
def Xpr.join (x : Xpr) (ms : List DemandMsg) : Xpr :=
  ms.foldl (fun x m =>
    ({ x with stepDemand := m.demand.zipIdx.foldl (fun l (e : Nat × Nat) => addDemand l (256 * m.layer + e.2) e.1) x.stepDemand }).carry m.layer
      ⟨m.em1, m.pm1, m.eta⟩) x

/-- The biases that a step's loop changes on the tiles in use, each with its address (R252, R253). -/
def State.biasWrites (s : State) (due : List (Nat × RouteParams)) (demand : List (Nat × Nat)) : List (Nat × Nat) :=
  ((List.range 10).filter s.tileIn).flatMap fun t =>
    due.flatMap fun (layer, p) => (updateBiases p layer demand (s.biasAt t layer)).map fun (e, c) => (biasAddr t layer e, c)

/-- The bias loop's end of a step (R252): the shadow version, the demand and the parameters as the step's end will leave them;
ROUTE_DESCRIPTOR when the routes of one layer differ. The shadow version is held as the entries in which it differs. (DEDUCED, log 47) -/
def State.biasUpdate (s : State) (step : Nat) (others : List DemandMsg) : State × Status :=
  let x := s.xpr.join others
  if x.paramsDiffer then (s, .routeDescriptor)
  else
    let params := x.stepParams.foldl (fun l e => setAssoc l e.1 e.2) x.params
    let demand := x.stepDemand.foldl (fun l e => addDemand l e.1 e.2) x.demand
    let due := params.filter fun e => (step + 1) % (e.2.pm1 + 1) == 0
    let left := demand.filter fun k => !(due.any fun e => e.1 == k.1 / 256)
    ({ s with xpr := { x with biasShadow := s.biasWrites due demand, demandShadow := left, paramsShadow := params, biasDone := true } }, .ok)

/-- The shadow version becomes the table (R253), when the step's loop has run. -/
def State.biasFlip (s : State) : State :=
  if s.xpr.biasDone then
    { s.writeAll (s.xpr.biasShadow.map fun e => (e.1, leBytes 4 e.2)) with
      xpr := { s.xpr with demand := s.xpr.demandShadow, params := s.xpr.paramsShadow } }
  else s

/-- The end of a step that does not seal: the loop runs, unless BIAS_UPDATE ran it, and its version becomes the table at once, since no seal
follows. (DEDUCED, log 47) -/
def State.biasEnd (s : State) (step : Nat) : State × Status :=
  let (s, st) := if s.xpr.biasDone then (s, .ok) else s.biasUpdate step []
  (if st = .ok then s.biasFlip else s, st)

end Sys2Proof.Machine
end

