-- ==== Sys2Proof/Machine/Jobs.lean ====
section
/-! DEFINITION. Sys2Proof/Machine/Jobs.lean: the LOAD, JOB and POWER families and PLACE_STAGE (spec/16 R472 to R479; spec/15 R454, R455; spec/18 R526;
spec/08 R223; spec/14 R429, R431). -/

namespace Sys2Proof.Machine

open Sys2Proof

/-! Load descriptors (R477). -/

structure LoadDesc where
  part : Nat
  kind : Nat
  main : Nat
  fwin : Bool
  qmask : Nat
  watchdog : Nat
  baseStep : Nat
  qmin : Nat
  qpool : Nat
  windows : List Window
  /-- Pool entries: tile, index, class, region, GENERAL, base offset, buffers. -/
  pools : List (Nat × Nat × Nat × Bool × Bool × Nat × Nat)

def parseWindow (w : Nat) : Window := ⟨bitsOf w 127 124, bitOf w 123, bitOf w 122, bitsOf w 121 86, bitsOf w 85 50⟩

def parsePool (w : Nat) : Nat × Nat × Nat × Bool × Bool × Nat × Nat :=
  (bitsOf w 127 124, bitsOf w 123 118, bitsOf w 117 115, bitOf w 114, bitOf w 113, bitsOf w 112 77, bitsOf w 76 55 + 1)

/-- The descriptor, when its entries fill the parameters exactly. -/
def parseLoad (bs : List Byte) : Option LoadDesc :=
  let h := leNat (bs.take 64)
  let nw := bitsOf h 493 486
  let np := bitsOf h 485 476
  if bs.length ≠ 64 + 16 * (nw + np) ∨ nw = 0 ∨ 160 < nw ∨ np = 0 ∨ 640 < np ∨ bitsOf h 501 494 = 0 then none
  else some
    { part := bitsOf h 511 509, kind := bitsOf h 508 506, main := bitsOf h 505 503, fwin := bitOf h 502, qmask := bitsOf h 501 494
      watchdog := bitsOf h 475 452, baseStep := bitsOf h 451 388, qmin := bitsOf h 387 366, qpool := bitsOf h 365 360
      windows := (List.range nw).map fun i => parseWindow (leAt bs (64 + 16 * i) 16)
      pools := (List.range np).map fun i => parsePool (leAt bs (64 + 16 * (nw + i)) 16) }

def kindOf : Nat → Option PartKind
  | 0 => some .train
  | 1 => some .filler
  | 3 => some .bringup
  | 4 => some .recovery
  | _ => none

/-- A window obeys R477 by itself. -/
def State.windowOk (s : State) (w : Window) : Bool :=
  decide (w.tile < 10) && s.tileIn w.tile && w.off % 2 ^ 21 == 0 && w.size % 2 ^ 21 == 0 && w.size != 0
    && (if w.gather then w.ro && decide (s.gatherBase ≤ w.off ∧ w.off + w.size ≤ journalBase)
        else decide (w.off + w.size ≤ s.gatherBase))

def windowsClash (a b : Window) : Bool := a.tile == b.tile && decide (a.off < b.off + b.size ∧ b.off < a.off + a.size)

/-- Bytes of a pool entry. -/
def poolBytes (p : Nat × Nat × Nat × Bool × Bool × Nat × Nat) : Nat := p.2.2.2.2.2.2 * classBytes p.2.2.1

/-- A pool lies where R477 wants it: in a writable window, or in the populated tile store. -/
def LoadDesc.poolPlace (d : LoadDesc) (p : Nat × Nat × Nat × Bool × Bool × Nat × Nat) : Bool :=
  let (t, _, _, store, _, off, _) := p
  if store then decide (t < 10 ∧ off + poolBytes p ≤ 160 * 2 ^ 20)
  else d.windows.any fun w => w.tile == t && !w.ro && decide (w.off ≤ off ∧ off + poolBytes p ≤ w.off + w.size)

/-- The rules of R466 and R477 that end in JOB_CONFIG. A pool of a reserved class has no size: it is left to POOL_CONFIG (R285). -/
def State.loadOk (s : State) (d : LoadDesc) (kind : PartKind) : Bool :=
  let others := s.parts.zipIdx.flatMap fun (p, i) => if i = d.part then [] else p.windows
  (d.windows.all s.windowOk)
    && ((List.range 10).all fun t => decide ((d.windows.filter fun w => w.tile == t).length ≤ 16))
    && !(d.windows.any fun w => others.any (windowsClash w))
    && (d.pools.all fun p => decide (5 < p.2.2.1) || d.poolPlace p)
    && (kind != .filler || (s.fillerPart.isNone && (s.partition d.main).state != .empty && (s.partition d.main).kind.isMain))
    && d.pools.any fun p => p.1 == 0 && p.2.1 == d.qpool

/-- What Vetch refuses of a load or a setup: the tile, the pool concerned, and the status. -/
abbrev VetchBar := Nat × Nat × Status

/-- One pool added to its tile, unless R285 to R287 refuse it. -/
def addPool (part : Nat) (vs : List VetchTile) (p : Nat × Nat × Nat × Bool × Bool × Nat × Nat) :
    Except VetchBar (List VetchTile) :=
  let (t, i, cls, store, general, off, count) := p
  let v := vs.getD t ⟨[], [], []⟩
  let base := if store then tileStoreAddr t off else dramAddr t off
  let size := classBytes cls
  if 5 < cls ∨ base % size ≠ 0 ∨ (v.pool i).isSome
      ∨ (v.pools.any fun e => decide (base < e.2.base + e.2.count * classBytes e.2.cls ∧ e.2.base < base + count * size))
      ∨ (general ∧ (v.general part cls).isSome) then .error (t, i, .poolConfig)
  else
    let q : Pool :=
      { base, cls, part, region := store, general, count, free := Twin.both count, reserve := Twin.both 0, bufs := [], badBits := [], lowWater := count
        emptyEvents := 0, fallbacks := 0, frozen := false }
    .ok (modifyAt vs t fun v => v.setPool i q)

/-- An owner added to a tile, unless R290 or R301 refuses it. -/
def addOwnerTo (vs : List VetchTile) (t : Nat) (o : Owner) : Except VetchBar (List VetchTile) :=
  match (vs.getD t ⟨[], [], []⟩).newOwner o with
  | .ok k => .ok (modifyAt vs t fun v => v.addOwner k o)
  | .error st => .error (t, o.pool, st)

/-- The pools and the owners of partitions and queues; a partition has one owner on each tile where it has pools, homed in QPOOL on T0 and in
its pool of lowest index elsewhere (assumption log). -/
def LoadDesc.vetch (d : LoadDesc) (vs : List VetchTile) : Except VetchBar (List VetchTile) :=
  let tiles := (List.range 10).filter fun t => d.pools.any fun p => p.1 == t
  let home (t : Nat) : Nat := if t = 0 then d.qpool else ((d.pools.filter fun p => p.1 == t).map (·.2.1)).foldl min 63
  let own (t : Nat) : Nat × Owner := (t, ⟨.partition, d.part, home t, 0, 0, 0, BitVec.ofNat 32 d.part⟩)
  let que (q : Nat) : Nat × Owner := (0, ⟨.queue, d.part, d.qpool, 0, d.qmin, 0, BitVec.ofNat 32 q⟩)
  let owners := tiles.map own ++ (bitsSet d.qmask 8).map que
  match d.pools.foldlM (addPool d.part) vs with
  | .error e => .error e
  | .ok vs => owners.foldlM (fun vs o => addOwnerTo vs o.1 o.2) vs

/-- Bytes and marks of ranges zeroed (R288). -/
def State.zeroRanges (s : State) (rs : List (Nat × Nat)) : State :=
  let out (a : Nat) : Bool := rs.all fun r => decide (a < r.1 ∨ r.1 + r.2 ≤ a)
  { s with mem := s.mem.filter fun e => out e.1, keep := { s.keep with marks := s.keep.marks.filter out } }

/-- Every side memory empty (R193). -/
def State.emptySides (s : State) : State := (s.cores.map (·.1)).foldl (fun s i => s.setCore i { s.core i with side := ⟨[], []⟩ }) s

/-- LOAD_PARTITION's effect (R475). -/
def State.loadPartition (s : State) (params : List Byte) : State × Status :=
  match parseLoad params with
  | none => (s, .jobConfig)
  | some d =>
    match kindOf d.kind with
    | none => (s, .jobConfig)
    | some kind =>
      if !s.loadOk d kind then (s, .jobConfig)
      else
        match d.vetch s.vetch with
        | .error (t, i, st) => (s.vetchRefused t d.part i st, st)
        | .ok vs =>
          let ranges := d.pools.map fun p =>
            (if p.2.2.2.1 then tileStoreAddr p.1 p.2.2.2.2.2.1 else dramAddr p.1 p.2.2.2.2.2.1, poolBytes p)
          let s := s.modPart d.part fun p => { p with state := .loading }
          let s := { s with vetch := vs }.zeroRanges ranges
          let s := s.modPart d.part fun _ => { Partition.reset with
            state := .loaded, kind, main := d.main, fwin := d.fwin, qmask := d.qmask, windows := d.windows
            watchdogUs := if d.watchdog = 0 then 1000000 else d.watchdog, lastSealed := d.baseStep, qpool := d.qpool }
          let s := { s with bnt := { s.bnt with sealParts := modifyAt s.bnt.sealParts d.part fun _ => SealPart.reset } }
          let s := if kind.isMain then
              { (s.zeroRanges biasRanges).emptySides with xpr := { s.xpr with
                genActive := 0, genPending := 0, genStaged := 0, place := .idle, biasShadow := [], demand := []
                stepDemand := [], params := [], stepParams := [], paramsDiffer := false, demandShadow := [], paramsShadow := []
                biasDone := false, routes := []
                active := Xpr.reset.active, pending := Xpr.reset.pending } }
            else s
          (s.setViews, .ok)

/-- LOAD_PARTITION (R475): it starts only while its partition is EMPTY. -/
def execLoadPartition (jseq : Nat) (s : State) : Host.Outcome State Fault Refusal :=
  match s.runnable 0x02 0x01 jseq with
  | some c =>
    if (s.partition (bitsOf (leNat (c.params.take 64)) 511 509)).state = .empty then
      .next (s.runQueued 0x02 0x01 jseq fun c s => State.finishWith c (s.loadPartition c.params))
    else .next s
  | none => .next s

/-- UNLOAD (R476). -/
def execUnload (jseq : Nat) (s : State) : Host.Outcome State Fault Refusal :=
  .next (s.runQueued 0x02 0x02 jseq fun c s => s.tryStop c (leAt c.params 0 1) true)

/-- LOAD_WRITE (R472). -/
def execLoadWrite (jseq : Nat) (s : State) : Host.Outcome State Fault Refusal :=
  .next (s.runQueued 0x02 0x03 jseq fun c s =>
    let a := leAt c.params 0 8
    let bs := c.params.drop 8
    if s.addrOk c.part a bs.length true then (s.writeMem a bs).complete c .ok else s.complete c .addressFault)

/-! Streams. -/

/-- Ring entries of samples n, n + 1, ... as (handle, bytes, oversize); none where an entry is of another sample. -/
def State.ringSamples (s : State) (x : Stream) (first count : Nat) : Option (List (Nat × Nat × Bool)) :=
  (List.range count).mapM fun i =>
    let n := first + i
    let w := s.memNat (x.ringBase + 16 * (n % 2 ^ x.ringLog2)) 16
    if bitsOf w 127 64 = n % 2 ^ 64 ∧ bitOf w 0 then some (bitsOf w 63 32, bitsOf w 31 9, bitOf w 1) else none

/-- LOAD_FROM_STREAM: it waits until its samples are in the ring; a sample that overran its buffer has no bytes. -/
def State.loadFromStream (s : State) (c : Cmd) : State :=
  let first := leAt c.params 2 8
  let count := leAt c.params 10 4
  let dest := leAt c.params 14 8
  match s.stream (leAt c.params 0 2) with
  | none => s.complete c .streamConfig
  | some x =>
    if !x.isOpen ∨ x.part ≠ c.part then s.complete c .streamConfig
    else if x.nextSample < first + count then s
    else
      match s.ringSamples x first count with
      | none => s.complete c .streamConfig
      | some es =>
        let src := es.filterMap fun (h, n, overN) => if overN then none else (s.handleBuf x.tile h).map fun b => (b.1, n)
        let total := (src.map (·.2)).sum
        if 0 < total ∧ !s.addrOk c.part dest total true then s.complete c .addressFault
        else if src.any fun r => marked s.keep.marks r.1 r.2 then s.complete c .memUncorrectable
        else
          let bs := src.flatMap fun r => s.readMem r.1 r.2
          let s := s.writeMem dest bs
          (es.foldl (fun (s : State) e => if e.2.2 then s else s.vetchFree x.tile x.part x.owner e.1) s).complete c .ok

/-- LOAD_FROM_STREAM (R472). -/
def execLoadFromStream (jseq : Nat) (s : State) : Host.Outcome State Fault Refusal :=
  .next (s.runQueued 0x02 0x04 jseq fun c s => s.loadFromStream c)

/-- STREAM_OPEN's effect: the record (R454), then the owner entry's fields in the layout of R289 (assumption log). (DEDUCED, log 27) -/
def State.streamOpen (s : State) (part : Nat) (params : List Byte) : State × Status :=
  let w := leNat (params.take 64)
  let o := leAt params 64 16
  let j := bitsOf w 511 502
  let tile := bitsOf w 498 495
  let log := bitsOf w 223 220
  let base := bitsOf w 271 224
  if (s.stream j).any (·.isOpen) ∨ bitsOf w 335 272 = 0 ∨ log < 4 ∨ 15 < log ∨ bitsOf w 501 499 ≠ part ∨ 9 < tile
      ∨ base % 16 ≠ 0 ∨ !s.jobMemOk part tile base (16 * 2 ^ log) then (s, .streamConfig)
  else
    let ow : Owner := ⟨.stream, part, bitsOf o 121 116, bitsOf o 115 113, bitsOf o 111 90, bitsOf o 89 68, BitVec.ofNat 32 j⟩
    let v := s.vetchOf tile
    match v.newOwner ow with
    | .error st => (s.vetchRefused tile part ow.pool st, st)
    | .ok k =>
      let x : Stream :=
        { isOpen := true, part, tile, src := ⟨bitOf w 493, BitVec.ofNat 128 (bitsOf w 463 336)⟩
          srcPort := BitVec.ofNat 16 (bitsOf w 479 464), token := BitVec.ofNat 64 (bitsOf w 335 272), ringBase := base, ringLog2 := log
          owner := k, nextSeq := 1, nextSample := bitsOf w 161 98, limit := 0, ce := 0, drops := 0, port := 0, cur := none
          heldSamples := [], lastCredit := 0 }
      (((s.setVetch tile (v.addOwner k ow)).setStream j x).sendCredit j none, .ok)

/-- STREAM_OPEN (R455). -/
def execStreamOpen (jseq : Nat) (s : State) : Host.Outcome State Fault Refusal :=
  .next (s.runQueued 0x02 0x05 jseq fun c s => State.finishWith c (s.streamOpen c.part c.params))

/-- STREAM_CLOSE's effect (R455): a partial sample is discarded with the owner's buffers. -/
def State.streamClose (s : State) (part j : Nat) : State × Status :=
  match s.stream j with
  | some x =>
    if !x.isOpen ∨ x.part ≠ part then (s, .streamConfig)
    else
      let s := s.vetchRemove x.tile x.part x.owner
      ({ s with cmp := { s.cmp with streams := eraseAssoc s.cmp.streams j } }, .ok)
  | none => (s, .streamConfig)

/-- STREAM_CLOSE (R455). -/
def execStreamClose (jseq : Nat) (s : State) : Host.Outcome State Fault Refusal :=
  .next (s.runQueued 0x02 0x06 jseq fun c s => State.finishWith c (s.streamClose c.part (leAt c.params 0 2)))

/-! Jobs (R478, R479). -/

/-- The job coordinate on axis a (R478). -/
def State.jobCoord (s : State) (origin a : Nat) : Nat :=
  let size := extentOf s.extent a
  (coordOf s.coord a + size - coordOf origin a % size) % size

/-- JOB_START's effect. -/
def State.jobStart (s : State) (p : Nat) (params : List Byte) : State × Status :=
  let w := leNat (params.take 16)
  let origin := bitsOf w 127 96
  let extent := bitsOf w 95 64
  let x := s.partition p
  let axes := List.range 4
  if x.state ≠ .loaded ∨ (axes.any fun a => decide (extentOf extent a ≤ s.jobCoord origin a))
      ∨ (axes.any fun a => decide (extentOf s.extent a < extentOf extent a))
      ∨ (x.kind = .filler ∧ axes.any fun a => extentOf extent a != 1) then (s, .jobConfig)
  else
    let coord := (axes.map fun a => putBits (8 * a + 4) (8 * a) (s.jobCoord origin a)).sum
    (s.modPart p fun x => { x with
      state := .running, origin := BitVec.ofNat 32 origin, extent := BitVec.ofNat 32 extent, coord := BitVec.ofNat 32 coord }, .ok)

/-- JOB_START (R478). -/
def execJobStart (jseq : Nat) (s : State) : Host.Outcome State Fault Refusal :=
  .next (s.runQueued 0x03 0x01 jseq fun c s => State.finishWith c (s.jobStart c.part c.params))

/-- JOB_PAUSE (R479). -/
def execJobPause (jseq : Nat) (s : State) : Host.Outcome State Fault Refusal :=
  .next (s.runQueued 0x03 0x02 jseq fun c s => s.tryPause c (leAt c.params 0 1))

/-- JOB_RESUME's effect. -/
def State.jobResume (s : State) (p : Nat) : State × Status :=
  if p < 8 ∧ (s.partition p).state = .paused then (s.modPart p fun x => { x with state := .running }, .ok) else (s, .jobConfig)

/-- JOB_RESUME (R479). -/
def execJobResume (jseq : Nat) (s : State) : Host.Outcome State Fault Refusal :=
  .next (s.runQueued 0x03 0x03 jseq fun c s => State.finishWith c (s.jobResume (leAt c.params 0 1)))

/-- JOB_STOP (R476). -/
def execJobStop (jseq : Nat) (s : State) : Host.Outcome State Fault Refusal :=
  .next (s.runQueued 0x03 0x04 jseq fun c s => s.tryStop c (leAt c.params 0 1) false)

/-! Placement staging (R223). -/

/-- PLACE_STAGE's effect. -/
def State.placeStage (s : State) (params : List Byte) : State × Status :=
  let ws : List (Twin W32) := (List.range 256).map fun i =>
    ⟨BitVec.ofNat 32 (leAt params (8 * i) 4), ~~~ (BitVec.ofNat 32 (leAt params (8 * i + 4) 4))⟩
  if !ws.all twinOk then (s, .twinMismatch)
  else
    let g := max s.xpr.genActive s.xpr.genStaged + 1
    ({ s with xpr := { s.xpr with
        pending := modifyAt s.xpr.pending 10 fun _ => ws, genStaged := g, genPending := g, place := .building } }, .ok)

/-- PLACE_STAGE (R223). -/
def execPlaceStage (jseq : Nat) (s : State) : Host.Outcome State Fault Refusal :=
  .next (s.runQueued 0x05 0x03 jseq fun c s => State.finishWith c (s.placeStage c.params))

/-! Power states, resets, isolation. -/

/-- PWR_SET_STATE (R526). -/
def execPwrSetState (jseq : Nat) (s : State) : Host.Outcome State Fault Refusal :=
  .next (s.runQueued 0x06 0x01 jseq fun c s => s.tryPower c (leAt c.params 0 1))

/-- RESET_COLD (R429): the command completes, then the module resets. -/
def execResetCold (jseq : Nat) (s : State) : Host.Outcome State Fault Refusal :=
  .next (s.runQueued 0x06 0x02 jseq fun c s => (s.complete c .ok).coldReset 2)

/-- RESET_WARM (R429, R425, R430). -/
def execResetWarm (jseq : Nat) (s : State) : Host.Outcome State Fault Refusal :=
  .next (s.runQueued 0x06 0x03 jseq fun c s => (s.complete c .ok).requestWarm 4)

/-- TILE_ISOLATE (R431, R561). -/
def execTileIsolate (jseq : Nat) (s : State) : Host.Outcome State Fault Refusal :=
  .next (s.runQueued 0x06 0x04 jseq fun c s =>
    let t := leAt c.params 0 1
    if 10 ≤ t then s.complete c .badCommand else (((s.isolateTile t).complete c .ok).endFailed).settle)

end Sys2Proof.Machine
end

