-- ==== Sys2Proof/Machine/Nodes.lean ====
section
/-! DEFINITION. Sys2Proof/Machine/Nodes.lean: the nodes of a running step: readiness (spec/16 R480), how a node ends and its item-log record (R482), what
the scheduler drops and defers (spec/07 R201, R202, R210), the ranks of a job and of a bucket (spec/11 R312), and how the
loss of a link ends runs (spec/17 R515, R516). -/

namespace Sys2Proof.Machine

open Sys2Proof

/-! The schedule word (R195). -/

def ItemHdr.cls (h : ItemHdr) : Nat := bitsOf h.sched.toNat 63 61
def ItemHdr.layer (h : ItemHdr) : Nat := bitsOf h.sched.toNat 60 49
def ItemHdr.mb (h : ItemHdr) : Nat := bitsOf h.sched.toNat 48 40
def ItemHdr.bucket (h : ItemHdr) : W32 := BitVec.ofNat 32 (bitsOf h.sched.toNat 31 0)

def clsOther : Nat := 0
def clsFwd : Nat := 1
def clsDgrad : Nat := 2
def clsWgrad : Nat := 3
def clsRecomp : Nat := 4

/-- The all-zero layer table entry (R197). -/
def Layer.zero : Layer := ⟨0, false, false, false, 0, 0, 0, 0, 0, 0⟩

def StepRun.layer (r : StepRun) (l : Nat) : Layer := r.layers.getD l Layer.zero

/-- The node's work has completed. -/
def Node.complete (n : Node) : Bool := n.state == .done && n.status.good

/-- NOTES bits that a node's status sets (R483). -/
def noteOf : Status → Nat
  | .okPartial => 1
  | .capacityOverflow => 2
  | .boundSplit => 4
  | _ => 0

/-! The running steps. -/

def State.run (s : State) (filler : Bool) : Option StepRun := if filler then s.filler else s.step

def State.setRun (s : State) (filler : Bool) (r : StepRun) : State :=
  if filler then { s with filler := some r } else { s with step := some r }

def State.mapRun (s : State) (filler : Bool) (f : StepRun → StepRun) : State :=
  if filler then { s with filler := s.filler.map f } else { s with step := s.step.map f }

/-- Whose step a partition's is. -/
def State.runOf (s : State) (p : Nat) : Option (Bool × StepRun) :=
  match s.step with
  | some r => if r.part = p then some (false, r) else (s.filler.filter fun r => r.part == p).map fun r => (true, r)
  | none => (s.filler.filter fun r => r.part == p).map fun r => (true, r)

def StepRun.modNode (r : StepRun) (i : Nat) (f : Node → Node) : StepRun := { r with nodes := modifyAt r.nodes i f }

/-! What is dropped (R201, R208, R210). -/

/-- A WGRAD item of an ADAPTER layer writes the base matrix's gradient: its bucket has a segment of the layer, and none of an adapter matrix. -/
def writesBase (defs : List Bucket) (h : ItemHdr) : Bool :=
  match defs.find? fun d => h.bucket != 0 && d.tag == h.bucket with
  | none => false
  | some d =>
    let mine := d.segs.filter fun g => g.layer == h.layer
    !mine.isEmpty && mine.all fun g => !g.adpt

def StepRun.dropsItem (r : StepRun) (defs : List Bucket) (h : ItemHdr) : Bool :=
  let l := r.layer h.layer
  if h.cls = clsDgrad then l.noDx
  else if h.cls = clsRecomp then l.noDx && l.frozen
  else if h.cls = clsWgrad then l.frozen || (l.mode == 2 && writesBase defs h)
  else false

/-! Deferral (R202). -/

/-- The due layer: none is −1, the end of the backward pass. -/
def dueLayer (layer due : Nat) : Option Nat := if 1 ≤ due ∧ due ≤ layer then some (layer - due) else none

/-- The order of the deferred queue: END, MB, −due layer, −LAYER, submission. -/
def deferKey (r : StepRun) (i : Nat) : List Nat :=
  match (r.nodes.getD i ⟨.item, 0, [], 0, none, .waiting, false, .ok, 0⟩).hdr with
  | none => []
  | some h =>
    match dueLayer h.layer (r.layer h.layer).due with
    | some d => [0, h.mb, 4096 - d, 4096 - h.layer, i]
    | none => [1, h.mb, 4097, 4096 - h.layer, i]

def lexLt : List Nat → List Nat → Bool
  | [], _ => false
  | _ :: _, [] => false
  | a :: as, b :: bs => decide (a < b) || (a == b && lexLt as bs)

def State.deferredOf (s : State) (c : Nat) : List Nat := ((s.deferred.find? fun e => e.1 == c).map (·.2)).getD []

/-- A WGRAD item enters its cluster's deferred queue, or starts at priority 1 when 1024 are there. -/
def State.defer (s : State) (r : StepRun) (i : Nat) (h : ItemHdr) (tile : Nat) : State :=
  let c := 8 * tile + h.cluster
  let q := s.deferredOf c
  if 1024 ≤ q.length then
    let told := r.deferredFull.contains c
    let s := s.mapRun false fun r => { r.modNode i (fun n => { n with state := .ready }) with
      qfull := r.qfull + 1, deferredFull := if told then r.deferredFull else r.deferredFull ++ [c] }
    if told then s
    else s.event { hubEvent .deferredFull s.counter [] with
      source := clusterWord tile h.cluster, logical := clusterWord tile h.cluster, part := r.part, step := r.step % 2 ^ 32 }
  else
    let q := insertBy (fun a b => lexLt (deferKey r a) (deferKey r b)) i q
    { s.mapRun false fun r => r.modNode i fun n => { n with state := .deferred } with deferred := setAssoc s.deferred c q }

/-- A deferred item is promoted (R203). -/
def State.promote (s : State) (i : Nat) : State :=
  { s.mapRun false fun r => { r.modNode i (fun n => { n with state := .promoted }) with promoted := r.promoted + 1 } with
    deferred := s.deferred.map fun (e : Nat × List Nat) => (e.1, e.2.filter (· != i)) }

/-- Every DGRAD item of the step's last microbatch has started (R203). -/
def StepRun.passOver (r : StepRun) : Bool :=
  r.nodes.all fun n => n.started || !(n.hdr.any fun h => h.cls == clsDgrad && h.mb + 1 == r.mb)

/-- At the end of the backward pass every deferred item is promoted. -/
def State.endPass (s : State) : State :=
  match s.step with
  | some r => if r.passOver then (s.deferred.flatMap (·.2)).foldl State.promote s else s
  | none => s

/-! Ready nodes (R480). -/

/-- Requests of a router that have found a place in its queue of eight (R227). -/
def State.admitRoutes (s : State) (t : Nat) : State :=
  let q := s.xpr.queues.getD t []
  let w := s.xpr.waiting.getD t []
  let n := 8 - q.length
  { s with xpr := { s.xpr with
      queues := modifyAt s.xpr.queues t fun _ => q ++ w.take n, waiting := modifyAt s.xpr.waiting t fun _ => w.drop n } }

/-- A node that has become ready; an item that R201 drops is complete with OK. -/
def State.makeReady (s : State) (filler : Bool) (r : StepRun) (i : Nat) (n : Node) : State :=
  let ready (s : State) : State := s.mapRun filler fun r => r.modNode i fun n => { n with state := .ready }
  match n.kind, n.hdr with
  | .item, some h =>
    if r.dropsItem s.bnt.defs h then
      (s.logItem r i .ok Core.reset).mapRun filler fun r => { r.modNode i (fun n => { n with state := .done, started := true, status := .ok }) with
        dropped := r.dropped + 1 }
    else if h.cls = clsWgrad ∧ !filler then s.defer r i h n.tile
    else ready s
  | .route, _ =>
    let s := ready s
    let req : RouteReq := ⟨r.part, i, n.arg⟩
    State.admitRoutes { s with xpr := { s.xpr with waiting := modifyAt s.xpr.waiting n.tile (· ++ [req]) } } n.tile
  | _, _ => ready s

/-- Every node whose dependencies are complete becomes ready, in index order; dropped items may free more. -/
def State.wake (filler : Bool) : Nat → State → State
  | 0, s => s
  | k + 1, s =>
    match s.run filler with
    | none => s
    | some r =>
      let done (d : Nat) : Bool := ((r.nodes[d]?).map Node.complete).getD false
      match r.nodes.findIdx? fun n => n.state == .waiting && n.deps.all done with
      | none => s
      | some i =>
        match r.nodes[i]? with
        | some n => State.wake filler k (s.makeReady filler r i n)
        | none => s

def State.wakeAll (s : State) (filler : Bool) : State :=
  let s := State.wake filler (((s.run filler).map fun r => r.nodes.length).getD 0) s
  if filler then s else s.endPass

/-! The ends of nodes. -/

/-- Every node of a step is complete. -/
def StepRun.allDone (r : StepRun) : Bool := r.nodes.all Node.complete

/-- A step with SEAL = 0 completes once all its nodes have (R336 seals the others). -/
def State.finishStep (s : State) (filler : Bool) : State :=
  match s.run filler with
  | some r =>
    if r.fail.isSome then s.endFailed
    else if r.allDone ∧ !r.isSeal ∧ !(s.bnt.runs.any fun b => tagPart b.tag == r.part && !b.done) then
      if filler then s.completeStep filler none
      else
        let (s, st) := s.biasEnd r.step
        s.completeStep filler (if st = .ok then none else some st)
    else s
  | none => s

/-- A node ends with a status: its record, the step's notes and counts, the nodes that wait for it. `core`: the core that ran an item. -/
def State.nodeDone (s : State) (filler : Bool) (i : Nat) (st : Status) (core : Option Core) : State :=
  match s.run filler with
  | none => s
  | some r =>
    match r.nodes[i]? with
    | none => s
    | some n =>
      if n.state = .done then s
      else
        let c := core.getD Core.reset
        let s := s.logItem r i st c
        let s := s.mapRun filler fun r => { r.modNode i (fun n => { n with state := .done, started := true, status := st }) with
          notes := r.notes ||| noteOf st, nfCount := r.nfCount + c.nfCount
          splitItems := r.splitItems + (if n.kind = .item ∧ st = .boundSplit then 1 else 0) }
        if st.good then s.wakeAll filler else s.failStep filler st

/-- Every node of a tag in a partition's step ends with a status. -/
def State.tagDone (s : State) (tag : W32) (st : Status) : State :=
  match s.runOf (tagPart tag) with
  | none => s
  | some (filler, r) =>
    let is := (r.nodes.zipIdx.filter fun (n, _) =>
      n.kind != .item && n.kind != .route && BitVec.ofNat 32 n.arg == tag && n.state != .done).map (·.2)
    let s := is.foldl (fun s i => s.nodeDone filler i st none) s
    if st.good then s else s.failStep filler st

/-! Ranks (R312, R336). -/

/-- AXES names axis a: X in bit 3 down to W in bit 0. -/
def axisIn (axes a : Nat) : Bool := axes.testBit (3 - a)

def Partition.jobExt (p : Partition) (a : Nat) : Nat := max 1 (extentOf p.extent.toNat a)
def Partition.jobCoord (p : Partition) (a : Nat) : Nat := coordOf p.coord.toNat a

/-- The number of ranks over the named axes. -/
def Partition.groupSize (p : Partition) (axes : Nat) : Nat :=
  (List.range 4).foldl (fun n a => if axisIn axes a then n * p.jobExt a else n) 1

/-- This module's rank over the named axes. -/
def Partition.groupRank (p : Partition) (axes : Nat) : Nat :=
  ((List.range 4).foldl (fun (e : Nat × Nat) a =>
    if axisIn axes a then (e.1 + e.2 * p.jobCoord a, e.2 * p.jobExt a) else e) (0, 1)).1

/-- The job coordinates of rank r over the named axes; the others are this module's own. -/
def Partition.coordsOf (p : Partition) (axes r : Nat) : List Nat :=
  ((List.range 4).foldl (fun (e : List Nat × Nat) a =>
    if axisIn axes a then (e.1 ++ [e.2 % p.jobExt a], e.2 / p.jobExt a) else (e.1 ++ [p.jobCoord a], e.2)) ([], r)).1

/-- Where rank r of a group lies in the installation, in the layout of DST (R478). -/
def State.rankDst (s : State) (p : Partition) (axes r : Nat) : BitVec 20 :=
  let js := p.coordsOf axes r
  BitVec.ofNat 20 (((List.range 4).map fun a =>
    putBits (19 - 5 * a) (15 - 5 * a) ((coordOf p.origin.toNat a + js.getD a 0) % max 1 (extentOf s.extent a))).sum)

/-- All axes: the ranks of the job. -/
def allAxes : Nat := 15

/-- A rank of the group is bypassed (R500). -/
def State.groupUnreachable (s : State) (p : Partition) (axes : Nat) : Bool :=
  (List.range (p.groupSize axes)).any fun r =>
    (List.range 4).any fun a => axisIn axes a && s.bypassed a (dstOf (s.rankDst p axes r) a)

/-- The group's traffic from this module leaves by port i: its transfers use both ports of an axis (R508), which on an axis of extent 2 reach the same
neighbour (R499). -/
def State.groupUses (s : State) (p : Partition) (axes i : Nat) : Bool :=
  (List.range (p.groupSize axes)).any fun r => r != p.groupRank axes && s.nextAxis (s.rankDst p axes r) == some (i / 2)

/-- A port on the group's routes is DOWN, so the run ends with LINK_DOWN (R516). -/
def State.groupDown (s : State) (p : Partition) (axes : Nat) : Bool :=
  (List.range 8).any fun i => s.groupUses p axes i && (s.port i).state == .down

/-- What keeps a run from sending (R500, R516). -/
def State.linkBar (s : State) (p : Partition) (axes : Nat) : Option Status :=
  if s.groupUnreachable p axes then some .linkUnreachable
  else if s.groupDown p axes then some .linkDown
  else none

/-! Buckets: what every end of one needs. -/

def Bucket.part (d : Bucket) : Nat := tagPart d.tag

/-- The tiles of TILE_MASK, ascending. -/
def Bucket.maskTiles (d : Bucket) : List Nat := bitsSet d.tileMask 10

def State.nRanks (s : State) (d : Bucket) : Nat := (s.partition d.part).groupSize d.axes
def State.myRank (s : State) (d : Bucket) : Nat := (s.partition d.part).groupRank d.axes

/-- The run of a tag that has not completed. -/
def State.openRunOf (s : State) (tag : W32) : Option BucketRun := s.bnt.runs.find? fun r => r.tag == tag && !r.done

/-- A bucket's step, low 32 bits: its run's, the running step's, or the one after the last sealed step. -/
def State.bucketStep (s : State) (tag : W32) : Nat :=
  match s.openRunOf tag, s.runOf (tagPart tag) with
  | some r, _ => r.step
  | none, some (_, r) => r.step % 2 ^ 32
  | none, none => ((s.partition (tagPart tag)).lastSealed + 1) % 2 ^ 32

/-! Completion records (R323, R349). -/

def maskBytes (codes : List Nat) : List Byte :=
  (List.range (ceilDiv codes.length 4)).map fun i =>
    BitVec.ofNat 8 (((List.range 4).map fun k => (codes.getD (4 * i + k) 0) * 4 ^ k).sum)

/-- The record of a bucket: what every tile's has in common. -/
def recordWord (tag : W32) (step : Nat) (st : Status) : Nat :=
  putBits 511 480 tag.toNat + putBits 479 448 step + putBits 447 432 st.code

/-- The record and the mask written into the status area of every contributing tile; `nf`: NF_ELEMS of a tile. -/
def State.writeRecord (s : State) (d : Bucket) (w : Nat) (codes : List Nat) (nf : Nat → Nat) : State :=
  d.maskTiles.foldl (fun s n =>
    s.writeMem (dramAddr n d.status) (leBytes 64 (w + putBits 287 256 (min (nf n) (2 ^ 32 - 1))) ++ maskBytes codes)) s

/-- The record of a bucket that ends with a code and delivers nothing: TAG, STEP and STATUS; on the root of an opened one its times too, which
are free values elsewhere. (DEDUCED, log 48; DESIGN CHOICE, log 49) -/
def State.failRecord (s : State) (d : Bucket) (st : Status) : State :=
  let w := recordWord d.tag (s.bucketStep d.tag) st
  match s.openRunOf d.tag with
  | none => s.writeRecord d w [] fun _ => 0
  | some r =>
    if s.myRank d = 0 then
      let times := match r.openedAt with
        | some t => putBits 255 192 t + putBits 191 160 (min (2 ^ 32 - 1) (s.counter - t))
        | none => 0
      s.writeRecord d (w + times) [] fun _ => 0
    else
      (s.drew 2).writeRecord d (w + putBits 255 192 (s.free 0).toNat + putBits 191 160 ((s.free 1).toNat % 2 ^ 32)) [] fun _ => 0

/-! Lost links. -/

/-- The axes of a tag's bucket. -/
def State.axesOf (s : State) (tag : W32) : Nat := ((s.bnt.defs.find? fun d => d.tag == tag).map (·.axes)).getD 0

/-- A run ends without delivering. -/
def State.dropRun (s : State) (tag : W32) (st : Status) : State :=
  { s with bnt := { s.bnt with
      runs := s.bnt.runs.filter fun b => b.tag != tag || b.done
      gathers := s.bnt.gathers.filter fun b => b.tag != tag
      exchanges := s.bnt.exchanges.filter fun b => b.tag != tag } }.tagDone tag st

/-- Every run in flight whose routes use port i ends with LINK_DOWN (R516); or, where only the replay buffer was discarded (R515), those that had packets in
it: which ones had is not tracked, so a free bit says so of each. (DESIGN CHOICE, log 36) -/
def State.linkLost (s : State) (i : Nat) (all : Bool) : State :=
  let tags := (s.bnt.runs.filter fun b => !b.done).map (·.tag) ++ s.bnt.gathers.map (·.tag) ++ s.bnt.exchanges.map (·.tag)
  let uses := tags.filter fun g => s.groupUses (s.partition (tagPart g)) (s.axesOf g) i
  let hit := if all then uses else (uses.zipIdx.filter fun e => (s.free e.2).getLsbD 0).map (·.1)
  let s := if all then s else s.drew uses.length
  (hit.foldl (fun (s : State) g =>
    let s := match s.bnt.defs.find? fun d => d.tag == g with
      | some d => s.failRecord d .linkDown
      | none => s
    s.dropRun g .linkDown) s).endFailed

end Sys2Proof.Machine
end

