-- ==== Sys2Proof/Machine/Burnet.lean ====
section
/-! DEFINITION. Sys2Proof/Machine/Burnet.lean: the parts every Burnet operation shares (spec/11): definitions and segments, ranks and owner units,
twin values, tiles in memory, shard records, messages between ranks, and how a run begins and ends. -/

namespace Sys2Proof.Machine

open Sys2Proof

/-! Twin values (R321, R329). -/

def twinBytes (n w : Nat) : List Byte := leBytes n w ++ (leBytes n w).map (~~~ ·)

/-- The value of a twin of `n` bytes, when it checks. -/
def twinValue (n : Nat) (bs : List Byte) : Option Nat :=
  if slice bs n n = (bs.take n).map (~~~ ·) ∧ bs.length = 2 * n then some (leNat (bs.take n)) else none

/-- A field of a word replaced. -/
def setBits (w hi lo v : Nat) : Nat := w - putBits hi lo (bitsOf w hi lo) + putBits hi lo v

/-! Definitions (R309, R310). -/

def parseSegment (w : Nat) : Segment :=
  { layer := bitsOf w 255 244, rows := bitsOf w 243 220, cols := bitsOf w 219 204, src := bitsOf w 203 168
    mbStride := bitsOf w 167 132, shardRec := bitsOf w 131 96, gmt := bitsOf w 95 60, loc := bitsOf w 59 56
    sorrel := bitOf w 55, wire := bitsOf w 54 50, adpt := bitOf w 49 }

/-- A definition with the segments and the block that follow it. -/
def parseBucket (bs : List Byte) : Bucket :=
  let w := leNat (bs.take 64)
  let n := bitsOf w 429 426 + 1
  { tag := BitVec.ofNat 32 (bitsOf w 511 480), kind := bitsOf w 479 477, axes := bitsOf w 476 473, acc64 := bitOf w 472
    mean := bitOf w 471, exclude := bitOf w 470, params := bitOf w 469, replay := bitOf w 468, fmt := bitsOf w 467 463
    deadlineUs := bitsOf w 462 439, mbm1 := bitsOf w 438 430, tileMask := bitsOf w 425 416, segTable := bitsOf w 415 380
    result := bitsOf w 379 344, status := bitsOf w 343 308, blockOff := bitsOf w 307 272
    segs := (List.range n).map fun i => parseSegment (leAt bs (64 + 32 * i) 32), block := bs.drop (64 + 32 * n) }

/-! Operation kinds (R306). -/

def kReduceScatter : Nat := 0
def kAllReduce : Nat := 1
def kAllGather : Nat := 2
def kParamGather : Nat := 3
def kExchange : Nat := 4
def kPermute : Nat := 5

def Bucket.isReduce (d : Bucket) : Bool := d.kind == kReduceScatter || d.kind == kAllReduce
def Bucket.delivers (d : Bucket) : Bool := d.kind == kReduceScatter && d.params

/-- A tag's fields (R307). -/
def tagEpoch (tag : W32) : Nat := bitsOf tag.toNat 28 21
def tagIndex (tag : W32) : Nat := bitsOf tag.toNat 20 0
def mkTag (part epoch index : Nat) : W32 := BitVec.ofNat 32 (putBits 31 29 part + putBits 28 21 epoch + putBits 20 0 index)

/-- The accumulation format. -/
def Bucket.accFmt (d : Bucket) : Fmt := if d.acc64 then .binary64 else .binary32
def Bucket.accF (d : Bucket) : FloatFmt := if d.acc64 then .b64 else .b32

def Segment.gridCols (g : Segment) : Nat := ceilDiv g.cols 32
def Segment.tiles (g : Segment) : Nat := ceilDiv g.rows 32 * g.gridCols

/-- T, the length of the tile list (R312). -/
def Bucket.total (d : Bucket) : Nat := (d.segs.map Segment.tiles).sum

/-- Each segment with its first bucket tile. -/
def Bucket.based (d : Bucket) : List (Segment × Nat) :=
  d.segs.zipIdx.map fun (g, i) => (g, ((d.segs.take i).map Segment.tiles).sum)

/-- The segment of a bucket tile and the tile's place in it. -/
def Bucket.locate (d : Bucket) (b : Nat) : Option (Segment × Nat) :=
  (d.based.find? fun e => decide (e.2 ≤ b ∧ b < e.2 + e.1.tiles)).map fun e => (e.1, b - e.2)

/-- Largest number of tiles that one owner unit owns. -/
def Bucket.largestUnit (d : Bucket) (nr : Nat) : Nat := ceilDiv d.total (d.maskTiles.length * nr)

/-! Ranks and units (R312). -/

/-- The bucket tiles of owner unit u: from, up to. -/
def State.unitRange (s : State) (d : Bucket) (u : Nat) : Nat × Nat :=
  let k := d.maskTiles.length * s.nRanks d
  (u * d.total / k, (u + 1) * d.total / k)

/-- The owner units of a rank: tile, unit, from, up to. -/
def State.unitsOf (s : State) (d : Bucket) (r : Nat) : List (Nat × Nat × Nat × Nat) :=
  d.maskTiles.zipIdx.map fun (n, i) =>
    let u := d.maskTiles.length * r + i
    (n, u, s.unitRange d u)

def State.myUnits (s : State) (d : Bucket) : List (Nat × Nat × Nat × Nat) := s.unitsOf d (s.myRank d)

/-- The parts of the segments that tiles lo to hi overlap: segment index, segment, first bucket tile, first tile in the segment, count. -/
def Bucket.overlaps (d : Bucket) (lo hi : Nat) : List (Nat × Segment × Nat × Nat × Nat) :=
  d.based.zipIdx.filterMap fun ((g, base), i) =>
    let a := max lo base
    let z := min hi (base + g.tiles)
    if a < z then some (i, g, a, a - base, z - a) else none

/-- A rank's index over all four job axes (R341). -/
def Partition.flatten (p : Partition) (coords : List Nat) : Nat :=
  ((List.range 4).foldl (fun (e : Nat × Nat) a => (e.1 + e.2 * coords.getD a 0, e.2 * p.jobExt a)) (0, 1)).1

/-- Messages between modules: what `kind` of State.out's rank messages is. -/
def mHeader : Nat := 0
def mData : Nat := 1
def mMask : Nat := 2
def mHeaderAgain : Nat := 3
def mConfirm : Nat := 4
def mFail : Nat := 5
def mCommit : Nat := 6
def mAbort : Nat := 7
def mDecision : Nat := 8
def mSegment : Nat := 9
def mSegmentAgain : Nat := 10
def mShardAgain : Nat := 11
def mShard : Nat := 12
def mMove : Nat := 13

/-- The virtual channel of a message (R507). -/
def messageVc (kind : Nat) : Nat :=
  if kind = mSegment ∨ kind = mSegmentAgain then 1
  else if kind = mConfirm ∨ kind = mFail ∨ kind = mCommit ∨ kind = mAbort ∨ kind = mDecision then 3
  else 0

/-- The ports that a message to another module leaves by: a transfer's data by both of the axis, any other message by the one of its route.
(DESIGN CHOICE, log 54) -/
def State.messagePorts (s : State) (kind : Nat) (dst : BitVec 20) : List (Nat × Nat) :=
  match s.nextAxis dst with
  | none => []
  | some a =>
    if kind = mData ∨ kind = mShard ∨ kind = mSegment ∨ kind = mMove then s.axisShares a
    else let i := s.portToward a (dstOf dst a); [(i, (s.port i).payloadRate)]

/-- What ends a message before it is sent: a bypassed destination (R500), a DOWN port on its route (R516). -/
def State.messageBar (s : State) (dst : BitVec 20) (ports : List (Nat × Nat)) : Option Status :=
  if (List.range 4).any fun a => s.bypassed a (dstOf dst a) then some .linkUnreachable
  else if ports.any fun e => (s.port e.1).state == .down then some .linkDown
  else none

/-- A message to rank r of a group, in the output list with its channel and its ports. One that a link ends is not sent; where it is this rank's vote in
a seal, the step fails with the status. (DESIGN CHOICE, log 54) -/
def State.toRank (s : State) (part axes r kind : Nat) (bytes : List Byte) : State :=
  let p := s.partition part
  let dst := s.rankDst p axes r
  let ports := s.messagePorts kind dst
  match s.messageBar dst ports with
  | some st => if kind = mConfirm ∨ kind = mFail then s.failStep false st else s
  | none => { s with out := s.out ++ [.rank part (p.flatten (p.coordsOf axes r)) kind bytes (messageVc kind) ports] }

/-- The other ranks of a bucket, ascending. -/
def State.otherRanks (s : State) (d : Bucket) : List Nat := (List.range (s.nRanks d)).filter (· != s.myRank d)

/-! Tiles in memory. -/

def tileStatus : TileErr → Status
  | .illegalFormat => .illegalFormat
  | .headerCheck => .headerCheck

/-- A tile read through a decompressor (R278, R319). -/
def State.loadTile (s : State) (want : Fmt) (dir : Option DirEntry) (a : Nat) : Except Status Tile32 :=
  let bs := s.readMem a want.denseBytes
  let h := parseHdr bs
  if marked s.keep.marks a (max 16 (min want.denseBytes (tileLen want h.form h.nz))) then .error .memUncorrectable
  else
    match readTile s.part (some want) dir bs with
    | .ok t => .ok t
    | .error e => .error (tileStatus e)

/-- Bytes read by Burnet, unless a word of them is marked (R278). -/
def State.loadBytes (s : State) (a n : Nat) : Except Status (List Byte) :=
  if marked s.keep.marks a n then .error .memUncorrectable else .ok (s.readMem a n)

/-- Tile j of a segment's contribution at address a: dense in place, or packed Sorrel with its directory first (R310). -/
def State.contribTile (s : State) (f : Fmt) (g : Segment) (a j : Nat) : Except Status Tile32 :=
  if g.sorrel then do
    let e := parseDir (leNat (← s.loadBytes (a + 8 * j) 8))
    s.loadTile f (some e) (a + 16 * ceilDiv (8 * g.tiles) 16 + 16 * e.offset)
  else s.loadTile f none (a + j * f.denseBytes)

/-! Shard records (R329). -/

def recVersion (w : Nat) : Nat := bitsOf w 255 224
def recCur (w : Nat) : Bool := bitOf w 223
def recShadow (w : Nat) : Bool := bitOf w 222
/-- The offset of the current slot, or of the other one. -/
def recSlot (w : Nat) (cur : Bool) : Nat := if recCur w == cur then bitsOf w 183 148 else bitsOf w 219 184
def recNt (w : Nat) : Nat := bitsOf w 123 100
def recCrcCur (w : Nat) : Nat := bitsOf w 99 68

/-- A record as Burnet reads it. -/
def State.shardRec (s : State) (n off : Nat) : Except Status Nat := do
  let bs ← s.loadBytes (dramAddr n off) 64
  match twinValue 32 bs with
  | some w => .ok w
  | none => .error .twinMismatch

def State.putRec (s : State) (n off w : Nat) : State := s.writeMem (dramAddr n off) (twinBytes 32 w)

/-- Bytes of a slot before the wire copy: master and two moments (R329). -/
def slotWire (nt : Nat) : Nat := 3 * nt * Fmt.binary32.denseBytes

/-- The wire formats of R310. -/
def wireFmt (code : Nat) : Option Fmt :=
  match Fmt.ofCode code with
  | some f => if f == .bfloat16 || f == .fp8E4M3 || f == .fp8E5M2 || f == .mxfp8E4M3 || f == .mxfp8E5M2 then some f else none
  | none => none

/-- A segment has shard records (R310, R329): where the delivery updates parameters, where a gather reads them, and where a SHARD-delivered
reduction names them for kernel software's update items (R336). -/
def Bucket.hasRecord (d : Bucket) (g : Segment) : Bool :=
  d.delivers || d.kind == kParamGather || (d.kind == kReduceScatter && g.shardRec != 0)

/-- Every record that a definition names on this module's units: tile, offset, wire format, first tile and tiles owned; a unit that owns none of
a segment has its record too, with NT 0 (R329). -/
def State.recordsOf (s : State) (d : Bucket) : List (Nat × Nat × Fmt × Nat × Nat) :=
  (s.myUnits d).flatMap fun (n, _, lo, hi) =>
    (d.segs.zipIdx.filter fun e => d.hasRecord e.1).map fun (g, i) =>
      let (first, nt) := (((d.overlaps lo hi).find? fun o => o.1 == i).map fun o => (o.2.2.2.1, o.2.2.2.2)).getD (0, 0)
      (n, g.shardRec, (wireFmt g.wire).getD .bfloat16, first, nt)

/-- Every record of a partition's definitions, each once: tile, offset, wire format. -/
def State.partRecords (s : State) (part : Nat) : List (Nat × Nat × Fmt) :=
  ((s.bnt.defs.filter fun d => d.part == part).flatMap fun d => (s.recordsOf d).map fun e => (e.1, e.2.1, e.2.2.1)).eraseDups

/-! Definitions, runs and epochs. -/

def State.bucketDef (s : State) (tag : W32) : Option Bucket := s.bnt.defs.find? fun d => d.tag == tag

def State.modRunOf (s : State) (tag : W32) (f : BucketRun → BucketRun) : State :=
  { s with bnt := { s.bnt with runs := s.bnt.runs.map fun r => if r.tag == tag && !r.done then f r else r } }

def State.sealPart (s : State) (p : Nat) : SealPart := s.bnt.sealParts.getD p SealPart.reset
def State.modSeal (s : State) (p : Nat) (f : SealPart → SealPart) : State :=
  { s with bnt := { s.bnt with sealParts := modifyAt s.bnt.sealParts p f } }

/-- The node of a kind that names the tag and is ready. -/
def StepRun.readyNode (r : StepRun) (k : NodeKind) (tag : W32) : Bool :=
  r.nodes.any fun n => n.kind == k && BitVec.ofNat 32 n.arg == tag && n.state == .ready

/-- A PERMUTE of the tag has fenced its old epoch and its moves are not made yet (R342). -/
def State.permuting (s : State) (tag : W32) : Bool :=
  (s.sealPart (tagPart tag)).perm == .fenced && (s.runOf (tagPart tag)).any fun e => e.2.readyNode .permute tag

/-- A tag's bucket is in flight (R308): a reduction or an ALL_GATHER, a gather, an exchange, a PERMUTE. -/
def State.inFlight (s : State) (tag : W32) : Bool :=
  (s.openRunOf tag).isSome || (s.bnt.gathers.any fun g => g.tag == tag) || (s.bnt.exchanges.any fun g => g.tag == tag && g.sent)
    || s.permuting tag

/-- A tag's epoch is not the active one (R342). -/
def State.fenced (s : State) (tag : W32) : Bool :=
  tagEpoch tag != (s.sealPart (tagPart tag)).activeEpoch
    || ((s.sealPart (tagPart tag)).perm == .fenced && tagEpoch tag == (s.sealPart (tagPart tag)).oldEpoch)

/-- The running step names the tag in a node or in the BUCKET field of a WGRAD item (R480, R481); 0 there names
none. -/
def StepRun.names (r : StepRun) (tag : W32) : Bool :=
  r.nodes.any fun n =>
    match n.kind, n.hdr with
    | .item, some h => h.cls == clsWgrad && h.bucket != 0 && h.bucket == tag
    | .route, _ => false
    | _, _ => BitVec.ofNat 32 n.arg == tag

/-- Every WGRAD item of a leaf has completed (R313). -/
def StepRun.leafReady (r : StepRun) (tag : W32) (mb tile : Nat) : Bool :=
  r.nodes.all fun n =>
    match n.kind, n.hdr with
    | .item, some h => !(h.cls == clsWgrad && h.bucket != 0 && h.bucket == tag && h.mb == mb && n.tile == tile) || n.complete
    | _, _ => true

def Bucket.leaves (d : Bucket) : List (Nat × Nat) := (List.range (d.mbm1 + 1)).flatMap fun mb => d.maskTiles.map fun n => (mb, n)

/-! How nodes of a step end. -/

/-- A bucket ends without delivering: its record carries the code, and its nodes and the step fail with it. -/
def State.endBucket (s : State) (d : Bucket) (st : Status) : State :=
  let s := if st == .epochFenced then s.count Reg.bntEpochFenced 1 else if st == .versionGone then s.count Reg.bntVersionGone 1 else s
  let s := if st == .twinMismatch then s.twinFound 1 else s
  let s := if st == .epochFenced then s else s.failRecord d st
  ((s.dropRun d.tag st).finishStep (((s.runOf d.part).map (·.1)).getD false))

/-- The status that keeps a tag's run from starting: its epoch (R342), its links (R500, R516). -/
def State.runBar (s : State) (d : Bucket) : Option Status :=
  if s.fenced d.tag && (s.openRunOf d.tag).isNone then some .epochFenced else s.linkBar (s.partition d.part) d.axes

end Sys2Proof.Machine
end

