-- ==== Sys2Proof/Machine/Setup.lean ====
section
/-! DEFINITION. Sys2Proof/Machine/Setup.lean: COLL_SETUP and COLL_REMOVE (spec/11 R308, R311, R329, R331, R341, R344; spec/16 R472). -/

namespace Sys2Proof.Machine

open Sys2Proof

/-! The blocks. -/

/-- An exchange block and its receive table (R344). -/
structure ExchBlock where
  mode : Nat
  layer : Nat
  mb : Nat
  fmt : Nat
  dt : Nat
  disp : Nat
  recAddr : Nat
  tensor : Nat
  gmt : Nat
  recvTable : Nat
  /-- RECV_ADDR, OUT_ADDR and row capacity of each local index. -/
  table : List (Nat × Nat × Nat)

def parseExch (bs : List Byte) : ExchBlock :=
  let w := leNat (bs.take 64)
  { mode := bitsOf w 511 510, layer := bitsOf w 509 498, mb := bitsOf w 497 489, fmt := bitsOf w 488 484, dt := bitsOf w 483 474
    disp := bitsOf w 473 426, recAddr := bitsOf w 425 378, tensor := bitsOf w 377 330, gmt := bitsOf w 329 282
    recvTable := bitsOf w 281 234
    table := (List.range 16).map fun i =>
      let e := leAt bs (64 + 16 * i) 16
      (bitsOf e 127 80, bitsOf e 79 32, bitsOf e 31 12) }

/-- A PERMUTE block (R341): old and new epoch, moves as OLD_INDEX, NEW_INDEX, SRC_RANK, DST_RANK. -/
structure PermBlock where
  old : Nat
  new : Nat
  moves : List (Nat × Nat × Nat × Nat)

def permMoves (bs : List Byte) : Nat := bitsOf (leNat (bs.take 16)) 111 99

def parsePerm (bs : List Byte) : PermBlock :=
  let w := leNat (bs.take 16)
  { old := bitsOf w 127 120, new := bitsOf w 119 112
    moves := (List.range (permMoves bs)).map fun i =>
      let e := leAt bs (16 + 16 * i) 16
      (bitsOf e 127 107, bitsOf e 106 86, bitsOf e 85 74, bitsOf e 73 62) }

/-- Bytes of the block that a definition's kind carries (R308). -/
def Bucket.blockLen (d : Bucket) : Nat :=
  if d.delivers then 64
  else if d.kind = kExchange then 320
  else if d.kind = kPermute then 16 + 16 * permMoves d.block
  else 0

/-- The exchanged formats (R237). -/
def exchFmt (p : Part) (code : Nat) : Option Fmt :=
  match Fmt.ofCode code with
  | some f => if f.present p && f != .binary64 && f != .int32 then some f else none
  | none => none

/-! The checks of R308, in its order. -/

/-- Step 2: the definition's own fields and the length (R311). (DEDUCED, log 48) -/
def Bucket.fieldsOk (d : Bucket) (part len : Nat) : Bool :=
  let fmtOk :=
    match Fmt.ofCode d.fmt with
    | some f => (f == .binary64 && d.acc64) || f == .binary32 || f == .binary16 || f == .bfloat16
    | none => false
  decide (d.kind ≤ 5) && decide (1 ≤ tagIndex d.tag ∧ tagIndex d.tag ≤ 0x1FFEFF) && d.part == part && d.tileMask != 0
    && (d.isReduce || !(d.deadlineUs != 0 || d.exclude || d.mean || d.acc64 || d.replay))
    && (d.kind == kReduceScatter || !d.params)
    && (!d.isReduce || fmtOk)
    && (d.kind != kExchange || d.axes == 1)
    && (d.blockLen != 0 || d.blockOff == 0)
    && len == 64 + 32 * d.segs.length + d.blockLen
    && (d.kind != kPermute || decide (1 ≤ permMoves d.block ∧ permMoves d.block ≤ 4096))

/-- Segment entries and block, apart from their areas (R311, R331, R341). -/
def State.contentStatus (s : State) (d : Bucket) : Status :=
  let segBad (g : Segment) : Bool :=
    g.rows == 0 || g.cols == 0
      || ((d.delivers || d.kind == kParamGather) && (wireFmt g.wire).isNone) || (d.delivers && g.shardRec == 0)
  let b := parseExch d.block
  let q := parsePerm d.block
  if 2 ^ 22 < d.total ∨ d.segs.any segBad ∨ (d.delivers ∧ 1 < bitsOf (leNat d.block) 511 509) then .bucketSetup
  else if d.kind = kAllGather ∧ !((Fmt.ofCode d.fmt).any fun f => f.present s.part) then .illegalFormat
  else if d.kind = kExchange ∧ ((exchFmt s.part b.fmt).isNone ∨ b.dt = 0 ∨ 512 < b.dt ∨ d.segs.any (·.sorrel)) then .illegalFormat
  else if d.kind = kExchange ∧ b.mode = 3 then .bucketSetup
  else if d.kind = kPermute ∧ (q.old ≠ (s.sealPart d.part).epoch ∨ q.new = q.old) then .permutePlan
  else .ok

/-- Bytes of a contribution of a segment, dense or with its directory. -/
def Segment.span (g : Segment) (f : Fmt) : Nat :=
  g.tiles * f.denseBytes + (if g.sorrel then 16 * ceilDiv (8 * g.tiles) 16 else 0)

/-- Bytes of the delivery area on a unit that owns tiles lo to hi. -/
def State.resultBytes (s : State) (d : Bucket) (lo hi : Nat) : Nat :=
  if d.kind = kReduceScatter then
    (if d.params then 0 else 32 + 16 * (d.overlaps lo hi).length + (hi - lo) * d.accFmt.denseBytes)
  else if d.kind = kAllReduce then d.total * d.accFmt.denseBytes
  else if d.kind = kAllGather then d.total * ((Fmt.ofCode d.fmt).getD .bfloat16).denseBytes
  else if d.kind = kParamGather then 16 * (d.maskTiles.length * s.nRanks d) + d.total * Fmt.bfloat16.denseBytes
  else 0

/-- The areas in a tile's slice that a definition names: offset, bytes, written; `lo` to `hi` are the bucket tiles that the tile owns. -/
def State.sliceAreas (s : State) (d : Bucket) (lo hi : Nat) : List (Nat × Nat × Bool) :=
  let f := (Fmt.ofCode d.fmt).getD .bfloat16
  let contrib (g : Segment) : List (Nat × Nat × Bool) :=
    if d.isReduce || d.kind == kAllGather then
      (List.range (d.mbm1 + 1)).map (fun mb => (g.src + mb * g.mbStride, g.span f, false))
        ++ (if g.gmt = 0 then [] else [(g.gmt, 512 * (d.mbm1 + 1), false)])
    else []
  let recs := (d.segs.filter d.hasRecord).map fun g => (g.shardRec, 64, true)
  [(d.segTable, 32 * d.segs.length, true), (d.status, 64 + ceilDiv (s.nRanks d) 4, true)]
    ++ (if d.blockLen = 0 then [] else [(d.blockOff, d.blockLen, true)])
    ++ (if d.kind = kParamGather then [] else [(d.result, s.resultBytes d lo hi, true)])
    ++ d.segs.flatMap contrib ++ recs

/-- An area of a slice lies in the partition's job memory (R263, R311). -/
def State.areaOk (s : State) (part n : Nat) (a : Nat × Nat × Bool) : Bool :=
  a.2.1 == 0 || (decide (a.1 + a.2.1 ≤ 2 ^ 36) && s.addrOk part (dramAddr n a.1) a.2.1 a.2.2)

/-- Areas of an exchange, by physical address (R344). The rows of TENSOR are the route's, which no setup knows, so its first row of tiles stands for
it here and the exchange checks the rest when it runs; an output tensor is as long as its receive tensor where the exchange reads it (RETURN_SLOT),
and named by its first tile where a dispatch passes it on. (DEDUCED, log 48) -/
def State.exchAreasOk (s : State) (d : Bucket) : Bool :=
  let b := parseExch d.block
  let f := (Fmt.ofCode b.fmt).getD .bfloat16
  let at_ (a n : Nat) (w : Bool) : Bool := s.addrOk d.part a n w
  at_ b.disp 1024 false && at_ b.recAddr 32 false && at_ b.tensor (b.dt * f.denseBytes) (b.mode == 2) && at_ b.gmt 512 true
    && at_ b.recvTable 256 false
    && b.table.all fun e =>
      let rows := ceilDiv e.2.2 32 * b.dt * f.denseBytes
      e.2.2 == 0 || (at_ e.1 rows true && at_ e.2.1 (if b.mode = 2 then rows else f.denseBytes) false)

/-- Step 4's areas and slots, and the records' twins (R311, R329): the records with FIRST, NT and CRC_CUR filled. -/
def State.fillRecords (s : State) (d : Bucket) : Except Status (List (Nat × Nat × Nat)) := do
  let areas := (s.myUnits d).all fun (n, _, lo, hi) => (s.sliceAreas d lo hi).all (s.areaOk d.part n)
  let gatherOk := d.kind != kParamGather || decide (d.result + s.resultBytes d 0 0 ≤ s.gatherSize)
  if !areas || !gatherOk || (d.kind == kExchange && !s.exchAreasOk d) then throw .bucketSetup
  (s.recordsOf d).mapM fun (n, off, wf, first, nt) => do
    let w ← s.shardRec n off
    let slot := slotWire nt + nt * wf.denseBytes
    if !(s.areaOk d.part n (recSlot w true, slot, true) && s.areaOk d.part n (recSlot w false, slot, true)) then throw .bucketSetup
    let wire ← s.loadBytes (dramAddr n (recSlot w true + slotWire nt)) (nt * wf.denseBytes)
    pure (n, off, setBits (setBits (setBits w 147 124 first) 123 100 nt) 99 68 (crc32 wire).toNat)

/-- Dense bytes of the bucket's largest transfer (R308, R61, R136; assumption log). -/
def State.largestTransfer (s : State) (d : Bucket) : Nat :=
  let unit := d.largestUnit (s.nRanks d)
  if d.kind = kAllReduce then d.total * d.accFmt.denseBytes
  else if d.kind = kAllGather then unit * ((Fmt.ofCode d.fmt).getD .bfloat16).denseBytes
  else if d.kind = kParamGather then
    unit * (d.segs.map fun g => ((wireFmt g.wire).getD .bfloat16).denseBytes).foldl max 0
  else if d.kind = kExchange then
    let b := parseExch d.block
    (b.table.map fun e => ceilDiv e.2.2 32 * b.dt * ((Fmt.ofCode b.fmt).getD .bfloat16).denseBytes).foldl max 0
  else unit * d.accFmt.denseBytes

/-- The bucket's owner on a tile (R308 step 7, R302): homed in the partition's general pool of the largest class. -/
def State.bucketOwner (s : State) (d : Bucket) (v : VetchTile) : Option Owner :=
  let gs := v.pools.filter fun e => e.2.general && e.2.part == d.part
  let cls := (gs.map fun e => e.2.cls).foldl max 0
  (gs.find? fun e => e.2.cls == cls).map fun e =>
    ⟨.bucket, d.part, e.1, 0, ceilDiv (s.largestTransfer d) (classBytes cls), 0, d.tag⟩

/-- The owners of a tag's bucket removed (R297, R308). -/
def State.dropOwners (s : State) (tag : W32) : State :=
  (List.range s.vetch.length).foldl (fun (s : State) n =>
    ((s.vetchOf n).owners.filter fun o => o.2.val.kind == .bucket && o.2.val.ref == tag).foldl
      (fun s o => s.vetchRemove n (tagPart tag) o.1) s) s

/-- The owners created on every tile of TILE_MASK, or what Vetch refuses; a tile without a general pool of the partition names pool 0. -/
def State.addOwners (s : State) (d : Bucket) : Except VetchBar State :=
  let add (vs : List VetchTile) (n : Nat) : Except VetchBar (List VetchTile) :=
    match s.bucketOwner d (vs.getD n ⟨[], [], []⟩) with
    | some o => addOwnerTo vs n o
    | none => .error (n, 0, .poolConfig)
  (d.maskTiles.foldlM add s.vetch).map fun vs => { s with vetch := vs }

/-- COLL_SETUP's effect (R308). (DEDUCED, log 48) -/
def State.collSetup (s : State) (part : Nat) (params : List Byte) : State × Status :=
  let d := parseBucket params
  if (s.partition part).kind = .filler then (s, .illegalOperand)
  else if params.length < 64 ∨ !d.fieldsOk part params.length then (s, .bucketSetup)
  else if d.delivers ∧ s.part = .ywbl10e then (s, .paramsUnavailable)
  else if s.contentStatus d ≠ .ok then (s, s.contentStatus d)
  else
    match s.fillRecords d with
    | .error st => (s, st)
    | .ok recs =>
      if s.inFlight d.tag then (s, .tagBusy)
      else if (s.bucketDef d.tag).isNone ∧ 4096 ≤ s.bnt.defs.length then (s, .bucketLimit)
      else
        match (s.dropOwners d.tag).addOwners d with
        | .error (n, i, st) => (s.vetchRefused n part i st, st)
        | .ok s =>
          let s := recs.foldl (fun s e => s.putRec e.1 e.2.1 e.2.2) s
          let s := d.maskTiles.foldl (fun s n =>
            let s := s.writeMem (dramAddr n d.segTable) (slice params 64 (32 * d.segs.length))
            if d.blockLen = 0 then s else s.writeMem (dramAddr n d.blockOff) d.block) s
          ({ s with bnt := { s.bnt with defs := s.bnt.defs.filter (fun x => x.tag != d.tag) ++ [d] } }, .ok)

/-- COLL_SETUP (R308). -/
def execCollSetup (jseq : Nat) (s : State) : Host.Outcome State Fault Refusal :=
  .next (s.runQueued 0x05 0x01 jseq fun c s => State.finishWith c (s.collSetup c.part c.params))

/-- COLL_REMOVE's effect: a tag that the partition has not defined leaves nothing to remove. (DEDUCED, log 48) -/
def State.collRemove (s : State) (part : Nat) (tag : W32) : State × Status :=
  if tagPart tag ≠ part then (s, .ok)
  else if s.inFlight tag then (s, .tagBusy)
  else
    ({ s.dropOwners tag with bnt := { s.bnt with defs := s.bnt.defs.filter fun d => d.tag != tag } }, .ok)

/-- COLL_REMOVE (R472). -/
def execCollRemove (jseq : Nat) (s : State) : Host.Outcome State Fault Refusal :=
  .next (s.runQueued 0x05 0x02 jseq fun c s => State.finishWith c (s.collRemove c.part (BitVec.ofNat 32 (leAt c.params 0 4))))

end Sys2Proof.Machine
end

