-- ==== Sys2Proof/Machine/Reduce.lean ====
section
/-! DEFINITION. Sys2Proof/Machine/Reduce.lean: reductions and ALL_GATHER (spec/11 R313 to R332, R347, R349, R637): leaves and rank values, headers,
deadlines and masks, the reduced sums, delivery, and the optimiser step unit. -/

namespace Sys2Proof.Machine

open Sys2Proof

/-! Rank values (R313 to R315). -/

/-- Elements of a tile as codes. -/
abbrev Codes := List Nat

def zeroCodes : Codes := List.replicate 1024 0

def addCodes (f : FloatFmt) (a b : Codes) : Codes := List.zipWith (fun x y => f.encode (FVal.add (f.decode x) (f.decode y))) a b

/-- A segment that takes no part in the step (R314). -/
def inactive (l : Layer) (g : Segment) : Bool := l.frozen || (g.adpt != (l.mode == 2))

/-- Row r of a ROWMASK layer trains (R209). -/
def State.rowOn (s : State) (l : Layer) (r : Nat) : Bool :=
  l.mode != 1 || decide (l.maskRows ≤ r) || ((s.readMem (l.maskAddr + r / 8) 1).headD 0).toNat.testBit (r % 8)

/-- An element of tile j of a segment lies within the tensor (R62). -/
def Segment.within (g : Segment) (j i : Nat) : Bool :=
  decide (32 * (j / g.gridCols) + i / 32 < g.rows ∧ 32 * (j % g.gridCols) + i % 32 < g.cols)

/-- Tile j of segment g of the leaf of tile n and microbatch mb; none: entered as +0 without being read (R314). -/
def State.leafTile (s : State) (r : StepRun) (d : Bucket) (n mb : Nat) (g : Segment) (j : Nat) : Except Status (Option Codes) := do
  let l := r.layer g.layer
  if inactive l g then return none
  if g.gmt ≠ 0 then
    let e ← s.loadBytes (dramAddr n (g.gmt + 512 * mb + 32 * g.loc)) 32
    if bitsOf (leNat e) 255 232 = 0 then return none
  let t ← s.contribTile ((Fmt.ofCode d.fmt).getD .binary32) g (dramAddr n (g.src + mb * g.mbStride)) j
  let row := 32 * (j / g.gridCols)
  let on := (List.range 32).map fun k => s.rowOn l (row + k)
  return some ((List.range 1024).map fun i =>
    if g.within j i && on.getD (i / 32) true then widenElem d.accFmt (t.val (i / 32) (i % 32)) else 0)

/-- One bucket tile of this module's rank value, and whether every leaf of it was left unread. -/
def State.rankTile (s : State) (r : StepRun) (d : Bucket) (g : Segment) (j : Nat) : Except Status (Codes × Bool) := do
  let vals ← (List.range 10).mapM fun n =>
    if d.tileMask.testBit n then do
      let ls ← (List.range (d.mbm1 + 1)).mapM fun mb => s.leafTile r d n mb g j
      pure (tree (addCodes d.accF) zeroCodes (ls.map fun x => x.getD zeroCodes), ls.all Option.isNone)
    else pure (zeroCodes, true)
  return (tree (addCodes d.accF) zeroCodes (vals.map (·.1)), vals.all (·.2))

/-- This module's rank value, tile by tile; the dense tiles' bytes of its own units for ALL_GATHER. -/
def State.rankValue (s : State) (r : StepRun) (d : Bucket) : Except Status (List (Nat × Codes) × Bool) :=
  if d.isReduce then do
    let ts ← (d.based.flatMap fun (g, base) => (List.range g.tiles).map fun j => (g, base, j)).mapM fun (g, base, j) => do
      let v ← s.rankTile r d g j
      pure (base + j, v.1, v.2)
    return (ts.map fun e => (e.1, e.2.1), ts.all fun e => e.2.2)
  else do
    let f := (Fmt.ofCode d.fmt).getD .bfloat16
    let ts ← ((s.myUnits d).flatMap fun (n, _, lo, hi) => (List.range (hi - lo)).map fun k => (n, lo + k)).mapM fun (n, b) =>
      match d.locate b with
      | some (g, j) => do
        let t ← s.contribTile f g (dramAddr n g.src) j
        pure (b, (encodeDense t).map (·.toNat))
      | none => pure (b, [])
    return (ts, false)

/-- A tile as it crosses a link (R319). -/
def Bucket.wireTile (d : Bucket) (c : Codes) : List Byte :=
  if d.isReduce then
    let t := tileOfCodes d.accFmt c.toArray
    compress { t with nonfinite := t.hasNonfinite }
  else
    match readTile .ywbl10 none none (c.map (BitVec.ofNat 8)) with
    | .ok t => compress t
    | .error _ => []

def codesNf (f : FloatFmt) (c : Codes) : Nat := (c.filter fun x => (f.decode x).isNonfinite).length

/-! Headers (R321). -/

def headerWord (tag : W32) (src step : Nat) (nf empty thr : Bool) (reason tiles first : Nat) : Nat :=
  putBits 255 224 tag.toNat + putBits 223 212 src + putBits 211 180 step + putBits 179 179 (b2n nf) + putBits 178 178 (b2n empty)
    + putBits 177 177 (b2n thr) + putBits 176 173 reason + putBits 167 144 tiles + putBits 143 120 first

/-! Opening (R320, R324). -/

/-- The codes in the status area of the root's lowest tile, when their number is n_r. -/
def State.storedMask (s : State) (d : Bucket) : Except Status (List Nat) := do
  let nr := s.nRanks d
  let a := dramAddr (d.maskTiles.headD 0) d.status
  let w := leNat (← s.loadBytes a 64)
  if bitsOf w 431 419 + bitsOf w 418 406 + bitsOf w 405 393 + bitsOf w 392 380 ≠ nr then throw .bucketSetup
  let m ← s.loadBytes (a + 64) (ceilDiv nr 4)
  return (List.range nr).map fun r => bitsOf (leAt m (r / 4) 1) (2 * (r % 4) + 1) (2 * (r % 4))

/-- The run of a bucket exists. -/
def State.ensureRun (s : State) (d : Bucket) (step : Nat) : State :=
  if (s.openRunOf d.tag).isSome then s
  else
    let run : BucketRun :=
      { tag := d.tag, step, openedAt := none, headers := [], mask := none, data := [], asked := [], done := false, kept := false, told := false }
    { s with bnt := { s.bnt with runs := s.bnt.runs ++ [run] } }

/-- The mask becomes known on the root: it goes to every other rank. -/
def State.fixMask (s : State) (d : Bucket) (step : Nat) (codes : List Nat) : State :=
  let s := s.modRunOf d.tag fun r => { r with mask := some codes }
  (s.otherRanks d).foldl (fun s r =>
    s.toRank d.part d.axes r mMask (leBytes 4 d.tag.toNat ++ leBytes 4 step ++ maskBytes codes)) s

/-- The root opens a bucket (R320): under REPLAY it takes the stored mask, and after an abort the one it had fixed. -/
def State.openBucket (s : State) (d : Bucket) (step : Nat) : State :=
  let s := s.ensureRun d step
  match s.openRunOf d.tag with
  | none => s
  | some r =>
    if s.myRank d ≠ 0 ∨ r.openedAt.isSome then s
    else
      let s := s.modRunOf d.tag fun r => { r with openedAt := some s.counter }
      match r.mask, d.replay with
      | some m, _ => s.fixMask d step m
      | none, true =>
        match s.storedMask d with
        | .ok m => s.fixMask d step m
        | .error st => s.endBucket d st
      | none, false => s

/-- Buckets of the running step that the root opens because a first leaf of its own is ready. -/
def State.openLeaves (s : State) (filler : Bool) : State :=
  match s.run filler with
  | none => s
  | some r =>
    s.bnt.defs.foldl (fun s d =>
      if d.part = r.part ∧ (d.isReduce ∨ d.kind = kAllGather) ∧ r.names d.tag ∧ s.myRank d = 0
          ∧ !(s.bnt.runs.any fun b => b.tag == d.tag && (b.done || b.openedAt.isSome)) ∧ !s.fenced d.tag
          ∧ d.leaves.any (fun e => r.leafReady d.tag e.1 e.2) then s.openBucket d (r.step % 2 ^ 32)
      else s) s

/-- A node of a step ends (R480, R482): the nodes that wait for it wake, buckets open, and the step may be over. -/
def State.nodeEnd (s : State) (filler : Bool) (i : Nat) (st : Status) (core : Option Core) : State :=
  ((s.nodeDone filler i st core).openLeaves filler).finishStep filler

/-- A gather, an exchange or a PERMUTE completes: its record names every rank as included. -/
def State.finishOp (s : State) (d : Bucket) : State :=
  let codes := List.replicate (s.nRanks d) 0
  let s := { s with bnt := { s.bnt with slowRank := 0, slowReason := 0, slowThrottled := false } }
  let s := s.writeRecord d (recordWord d.tag (s.bucketStep d.tag) .ok + putBits 431 419 codes.length) codes fun _ => 0
  let filler := ((s.runOf d.part).map (·.1)).getD false
  (((s.count Reg.bntCompleted 1).tagDone d.tag .ok).openLeaves filler).finishStep filler

/-! The optimiser step unit (R330 to R332). -/

structure Optim where
  adam : Bool
  lr : FVal
  b1 : FVal
  b2 : FVal
  eps : FVal
  wd : FVal
  omb1 : FVal
  omb2 : FVal
  c1 : FVal
  c2 : FVal

/-- b to the power s by square-and-multiply from the most significant bit, each product rounded to binary64. -/
def powB64 (b : FVal) (s : Nat) : FVal :=
  (List.range (bitLen s)).reverse.foldl (fun p i =>
    let p := FloatFmt.b64.mul p p
    if s.testBit i then FloatFmt.b64.mul p b else p) FVal.one

/-- round32(1/(1 − b^s)), subtraction and division in binary64. -/
def biasCorrection (b : FVal) (s : Nat) : FVal :=
  FloatFmt.b32.round (FloatFmt.b64.div FVal.one (FloatFmt.b64.sub FVal.one (powB64 b s)))

def parseOptim (bs : List Byte) (step : Nat) : Optim :=
  let w := leNat (bs.take 64)
  let f (hi lo : Nat) : FVal := FloatFmt.b32.decode (bitsOf w hi lo)
  let b1 := f 447 416
  let b2 := f 415 384
  { adam := bitsOf w 511 509 == 1, lr := f 479 448, b1, b2, eps := f 383 352, wd := f 351 320
    omb1 := FloatFmt.b32.sub FVal.one b1, omb2 := FloatFmt.b32.sub FVal.one b2
    c1 := biasCorrection b1 step, c2 := biasCorrection b2 step }

/-- One parameter: master, first and second moment after the update with sum g. -/
def Optim.update (o : Optim) (w m v g : FVal) : FVal × FVal × FVal :=
  let f := FloatFmt.b32
  if o.adam then
    let m := f.fma o.b1 m (f.mul o.omb1 g)
    let v := f.fma o.b2 v (f.mul (f.mul o.omb2 g) g)
    let step := f.div (f.mul m o.c1) (f.add (f.sqrt (f.mul v o.c2)) o.eps)
    (f.fma o.lr.negate (f.fma o.wd w step) w, m, v)
  else
    let m := f.fma o.b1 m g
    (f.fma o.lr.negate (f.fma o.wd w m) w, m, v)

/-- A row of the wire copy: its scale byte and codes (R330). -/
def wireRow (wf : Fmt) (row : List FVal) : Byte × List Nat :=
  if wf.isMx then
    let sc := mxScale wf row
    (sc, row.map (mxElem wf sc .rne))
  else (0, row.map (narrowElem wf .rne false))

/-- One tile of a shard updated: the bytes of the three binary32 tiles and of the wire tile, `on` naming the rows that train. -/
def State.updateTile (s : State) (o : Optim) (wf : Fmt) (addrs : List Nat) (g : Segment) (j : Nat) (on : List Bool) (sum : List FVal) :
    Except Status (List (List Byte)) := do
  let size (k : Nat) : Nat := if k < 3 then Fmt.binary32.denseBytes else wf.denseBytes
  if on.all (!·) then addrs.zipIdx.mapM fun (a, k) => s.loadBytes a (size k)
  else
    let w ← s.loadTile .binary32 none (addrs.getD 0 0)
    let m ← s.loadTile .binary32 none (addrs.getD 1 0)
    let v ← s.loadTile .binary32 none (addrs.getD 2 0)
    let old ← s.loadTile wf none (addrs.getD 3 0)
    let dec := FloatFmt.b32.decode
    let new := (List.range 1024).map fun i =>
      let keep := (w.codes.getD i 0, m.codes.getD i 0, v.codes.getD i 0)
      if !on.getD (i / 32) true then keep
      else if !g.within j i then (0, 0, if o.adam then 0 else keep.2.2)
      else
        let (a, b, c) := o.update (dec keep.1) (dec keep.2.1) (dec keep.2.2) (sum.getD i FVal.posZero)
        let e := FloatFmt.b32.encode
        (e a, e b, if o.adam then e c else keep.2.2)
    let master := new.map fun e => dec e.1
    let rows := (List.range 32).map fun r =>
      if on.getD r true then wireRow wf ((master.drop (32 * r)).take 32)
      else (old.scales.getD r 0, (List.range 32).map fun c => old.codes.getD (32 * r + c) 0)
    let plain (cs : List Nat) : List Byte := encodeDense (tileOfCodes .binary32 cs.toArray)
    let wire := { tileOfCodes wf (rows.flatMap (·.2)).toArray with scales := (rows.map (·.1)).toArray }
    return [plain (new.map (·.1)), plain (new.map (·.2.1)), plain (new.map (·.2.2)), encodeDense wire]

/-- A unit's part of a segment updated into the shadow slot (R330): what to write. `sums`: the reduced sums of a bucket tile. -/
def State.updateShard (s : State) (r : StepRun) (d : Bucket) (none_ : Bool) (n : Nat) (g : Segment) (b0 first nt : Nat)
    (sums : Nat → List FVal) : Except Status (List (Nat × List Byte)) := do
  let w ← s.shardRec n g.shardRec
  let wf := (wireFmt g.wire).getD .bfloat16
  let l := r.layer g.layer
  let o := parseOptim d.block r.step
  let cur := dramAddr n (recSlot w true)
  let shd := dramAddr n (recSlot w false)
  let t32 := Fmt.binary32.denseBytes
  let place (base k : Nat) : List Nat :=
    [base + k * t32, base + (nt + k) * t32, base + (2 * nt + k) * t32, base + slotWire nt + k * wf.denseBytes]
  let outs ← (List.range nt).mapM fun k => do
    let row := 32 * ((first + k) / g.gridCols)
    let on := (List.range 32).map fun i => !none_ && !inactive l g && s.rowOn l (row + i)
    let bs ← s.updateTile o wf (place cur k) g (first + k) on (sums (b0 + k))
    pure ((place shd k).zip bs)
  let wire := outs.flatMap fun ws => (ws.getD 3 (0, [])).2
  let w := setBits (setBits w 222 222 1) 67 36 (crc32 wire).toNat
  return outs.flatten ++ [(dramAddr n g.shardRec, twinBytes 32 w)]

/-! The reduced sums (R315, R317). -/

/-- Groups of k consecutive entries. -/
def groupsOf {α : Type} (k : Nat) (l : List α) : List (List α) :=
  (List.range (l.length / max 1 k)).map fun i => (l.drop (k * i)).take k

/-- One bucket tile reduced over the ranks, axis by axis. -/
def State.reduceTile (s : State) (d : Bucket) (codes : List Nat) (run : BucketRun) (b : Nat) : Codes :=
  let p := s.partition d.part
  let vals := codes.zipIdx.map fun (c, r) =>
    if c = 0 then ((run.data.find? fun e => e.1 == r && e.2.1 == b).map (·.2.2)).getD zeroCodes else zeroCodes
  let axes := (List.range 4).filter (axisIn d.axes)
  let vals := axes.foldl (fun vs a => (groupsOf (p.jobExt a) vs).map (tree (addCodes d.accF) zeroCodes)) vals
  let sum := vals.headD zeroCodes
  let inc := codes.count 0
  let divisor := inc * d.maskTiles.length * (d.mbm1 + 1)
  if inc = 0 then zeroCodes
  else if d.mean then sum.map fun x => d.accF.encode (d.accF.div (d.accF.decode x) (FVal.ofInt divisor 0))
  else sum

/-! Delivery (R328, R330, R637). -/

/-- The shard header and notes of a unit (R328), padded to 16 bytes. -/
def shardHead (r : StepRun) (d : Bucket) (step lo hi : Nat) : List Byte :=
  let os := d.overlaps lo hi
  leBytes 4 d.tag.toNat ++ leBytes 4 step ++ leBytes 4 lo ++ leBytes 4 (hi - lo) ++ leBytes 1 os.length ++ zeros 15
    ++ os.flatMap fun (i, g, b0, _, nt) =>
      let l := r.layer g.layer
      leBytes 16 (putBits 127 124 i + putBits 123 100 b0 + putBits 99 76 nt + putBits 75 28 (if l.mode = 1 then l.maskAddr else 0))

/-- What a completed bucket writes on this module, and the non-finite elements delivered by tile. -/
def State.delivery (s : State) (r : StepRun) (d : Bucket) (codes : List Nat) (run : BucketRun) :
    Except Status (List (Nat × List Byte) × List (Nat × Nat)) :=
  let f := d.accF
  let dense (c : Codes) : List Byte := encodeDense (tileOfCodes d.accFmt c.toArray)
  if d.kind = kAllReduce then
    let ts := (List.range d.total).map fun b => s.reduceTile d codes run b
    let bs := ts.flatMap dense
    let nf := (ts.map (codesNf f)).sum
    .ok (d.maskTiles.map fun n => (dramAddr n d.result, bs), d.maskTiles.map fun n => (n, nf))
  else if d.kind = kAllGather then
    let bs := (List.range d.total).flatMap fun b =>
      ((run.data.find? fun e => e.2.1 == b).map fun e => e.2.2.map (BitVec.ofNat 8)).getD []
    let tileNf (bs : List Byte) : Nat :=
      match readTile s.part none none bs with
      | .ok t => ((List.range 1024).filter fun i => (t.val (i / 32) (i % 32)).isNonfinite).length
      | .error _ => 0
    let nf := ((groupsOf ((Fmt.ofCode d.fmt).getD .bfloat16).denseBytes bs).map tileNf).sum
    .ok (d.maskTiles.map fun n => (dramAddr n d.result, bs), d.maskTiles.map fun n => (n, nf))
  else
    let units := (s.myUnits d).map fun (n, _, lo, hi) => (n, lo, (List.range (hi - lo)).map fun k => s.reduceTile d codes run (lo + k))
    let nfs := units.map fun (n, _, ts) => (n, (ts.map (codesNf f)).sum)
    if d.params then do
      let ws ← units.mapM fun (n, lo, ts) =>
        (d.overlaps lo (lo + ts.length)).mapM fun (_, g, b0, first, nt) =>
          s.updateShard r d (codes.count 0 == 0) n g b0 first nt fun b =>
            (ts.getD (b - lo) zeroCodes).map fun x => FloatFmt.b32.round (f.decode x)
      return (ws.flatten.flatten, nfs)
    else
      .ok (units.map fun (n, lo, ts) =>
        (dramAddr n d.result, shardHead r d run.step lo (lo + ts.length) ++ ts.flatMap dense), nfs)

/-! Completion (R323, R347, R349). -/

/-- The late rank that a mask names as the slowest: the lowest of a deadline bucket that takes its own decisions (R347). -/
def lateRank (d : Bucket) (codes : List Nat) : Option Nat :=
  if d.deadlineUs ≠ 0 ∧ !d.replay then codes.findIdx? (· == 1) else none

/-- The slowest rank as the root names it (R347). -/
def slowestRank (d : Bucket) (codes : List Nat) (hs : List Header) : Nat :=
  match lateRank d codes with
  | some r => r
  | none =>
    let last := (hs.map (·.time)).foldl max 0
    ((hs.filter fun h => h.time == last).map (·.rank)).foldl min 4095

/-- The codes in force, once every rank's inclusion is known (R316). -/
def State.codesOf (s : State) (d : Bucket) (r : BucketRun) : Option (List Nat) :=
  match r.mask with
  | some m => some m
  | none => if d.deadlineUs ≠ 0 ∨ d.exclude ∨ d.replay then none else some (List.replicate (s.nRanks d) 0)

/-- Everything that this module needs has arrived: a header of every included rank, and the data of the tiles it owns or receives. -/
def State.haveAll (s : State) (d : Bucket) (codes : List Nat) (r : BucketRun) : Bool :=
  let inc := (codes.zipIdx.filter fun e => e.1 == 0).map (·.2)
  if d.kind = kAllGather then (List.range d.total).all fun b => r.data.any fun e => e.2.1 == b
  else
    let need := if d.kind = kAllReduce then List.range d.total
      else (s.myUnits d).flatMap fun (_, _, lo, hi) => (List.range (hi - lo)).map (lo + ·)
    inc.all fun k => (r.headers.any fun h => h.rank == k) && need.all fun b => r.data.any fun e => e.1 == k && e.2.1 == b

/-- The completion record's fields, its slowest rank, reason and flag. On a rank other than the root the fields that only the root knows are free
values: its counter, and who reached it last; a late rank stands in the mask, and its pace flags in its header where that came here too.
(DESIGN CHOICE, log 49) -/
def State.bucketRecord (s : State) (d : Bucket) (r : BucketRun) (codes : List Nat) (st : Status) (nonfinite : Bool) :
    State × Nat × Nat × Nat × Bool :=
  let replayed := d.replay
  let inc := codes.count 0
  let cnt (k : Nat) : Nat := if replayed then 0 else codes.count k
  let empty := (codes.zipIdx.filter fun (c, k) => c == 0 && r.headers.any fun h => h.rank == k && h.empty).length
  let root := s.myRank d == 0
  let slow :=
    if root then slowestRank d codes r.headers
    else (lateRank d codes).getD ((s.free 0).toNat % max 1 (s.nRanks d))
  let h := if root || (lateRank d codes).isSome then r.headers.find? fun h => h.rank == slow else none
  let reason := (h.map (·.reason)).getD (if root then 0 else (s.free 1).toNat % 8)
  let thr := (h.map (·.throttled)).getD (!root && (s.free 2).toNat.testBit 0)
  let opened := if root then r.openedAt.getD 0 else (s.free 3).toNat
  let elapsed := if root then min (2 ^ 32 - 1) (s.counter - r.openedAt.getD s.counter) else (s.free 4).toNat % 2 ^ 32
  let w := recordWord d.tag r.step st + putBits 431 419 inc + putBits 418 406 (cnt 1) + putBits 405 393 (cnt 2)
    + putBits 392 380 (if replayed then codes.length - inc else 0) + putBits 379 367 empty + putBits 366 355 slow
    + putBits 354 351 reason + putBits 350 350 (b2n thr) + putBits 349 349 (b2n nonfinite)
    + putBits 319 288 (if d.isReduce then inc * d.maskTiles.length * (d.mbm1 + 1) else 0)
    + putBits 255 192 opened + putBits 191 160 elapsed
  (if root then s else s.drew 5, w, slow, reason, thr)

/-- The events of omitted ranks (R323). -/
def State.omitEvents (s : State) (d : Bucket) (step : Nat) (codes : List Nat) : State :=
  codes.foldl (fun s c =>
    if c = 1 ∨ c = 2 then
      s.event { hubEvent (if c = 1 then .deadlineOmit else .nonfiniteOmit) s.counter [] with part := d.part, step }
    else s) s

/-- A bucket completes on this module. -/
def State.completeBucket (s : State) (r : StepRun) (filler : Bool) (d : Bucket) (run : BucketRun) (codes : List Nat) : State :=
  match s.delivery r d codes run with
  | .error st => s.endBucket d st
  | .ok (ws, nfs) =>
    let nf (n : Nat) : Nat := ((nfs.filter fun e => e.1 == n).map (·.2)).sum
    let nonfinite := nfs.any fun e => e.2 != 0
    let st : Status := if codes.all (· == 0) then .ok else .okPartial
    let s := s.writeAll ws
    let (s, w, slow, reason, thr) := s.bucketRecord d run codes st nonfinite
    let s := s.writeRecord d w codes nf
    let s := (s.count Reg.bntCompleted 1).count Reg.bntPartial (b2n (st == .okPartial))
    let s := if d.replay then s
      else (s.count Reg.bntDeadlineOmits (codes.count 1)).count Reg.bntNonfiniteOmits (codes.count 2)
    let s := s.count Reg.bntNonfiniteResults (b2n nonfinite)
    let s := if d.replay || run.told then s else s.omitEvents d run.step codes
    let s := { s with bnt := { s.bnt with slowRank := slow, slowReason := reason, slowThrottled := thr } }
    let s := s.modRunOf d.tag fun b => { b with done := true, told := true, data := [] }
    let s := s.mapRun filler fun r => { r with
      notes := r.notes ||| (if nonfinite then 32 else 0) ||| (if st = .okPartial then 1 else 0) }
    ((s.tagDone d.tag st).openLeaves filler).finishStep filler

/-- What a bucket can do next: the root of a strict EXCLUDE bucket fixes the mask once every header is in; a bucket with everything completes. -/
def State.settleBucket (s : State) (d : Bucket) : State :=
  match s.openRunOf d.tag, s.runOf d.part with
  | some run, some (filler, r) =>
    let inAll := (List.range (s.nRanks d)).all fun k => run.headers.any fun h => h.rank == k
    let nfOf (k : Nat) : Nat := if run.headers.any fun h => h.rank == k && h.nf then 2 else 0
    let s := if s.myRank d = 0 ∧ run.mask.isNone ∧ d.exclude ∧ d.deadlineUs = 0 ∧ !d.replay ∧ inAll then
        s.fixMask d run.step ((List.range (s.nRanks d)).map nfOf)
      else s
    match s.openRunOf d.tag with
    | some run =>
      match s.codesOf d run with
      | some codes =>
        if run.step = r.step % 2 ^ 32 ∧ r.names d.tag ∧ s.haveAll d codes run then s.completeBucket r filler d run codes else s
      | none => s
    | none => s
  | _, _ => s

/-! The commands. -/

/-- This rank's headers and data sent to every other rank (R321): one header to the root, one to each owner unit, with the tiles that the unit owns.
Every unit of an ALL_REDUCE receives the whole tensor (R637): the tiles that other ranks' units own follow as data of the same transfer.
(DEDUCED, log 48) -/
def State.sendValue (s : State) (d : Bucket) (step : Nat) (vals : List (Nat × Codes)) (nf empty : Bool) : State :=
  let me := s.myRank d
  let (reason, thr) := s.pace
  let head (s : State) (r first count : Nat) : State :=
    s.toRank d.part d.axes r mHeader (twinBytes 32 (headerWord d.tag me step nf empty thr reason count first))
  let data (s : State) (r first count : Nat) : State :=
    let ts := vals.filter fun e => decide (first ≤ e.1 ∧ e.1 < first + count)
    if ts.isEmpty then s
    else s.toRank d.part d.axes r mData (leBytes 4 d.tag.toNat ++ leBytes 4 me ++ leBytes 4 first ++ ts.flatMap fun e => d.wireTile e.2)
  let both (s : State) (r : Nat) (u : Nat × Nat × Nat × Nat) : State :=
    data (head s r u.2.2.1 (u.2.2.2 - u.2.2.1)) r u.2.2.1 (u.2.2.2 - u.2.2.1)
  (s.otherRanks d).foldl (fun s r =>
    if d.kind = kAllGather then
      (s.myUnits d).foldl (fun s (_, _, lo, hi) => data (head s r lo (hi - lo)) r lo (hi - lo)) s
    else
      let s := if r = 0 then head s r 0 d.total else s
      let us := s.unitsOf d r
      let s := us.foldl (fun s u => both s r u) s
      if d.kind = kAllReduce then
        let lo := ((us.head?).map (·.2.2.1)).getD 0
        let hi := ((us.getLast?).map (·.2.2.2)).getD 0
        data (data s r 0 lo) r hi (d.total - hi)
      else s) s

/-- RANK_VALUE_READY (R321): every leaf of this rank is ready, so its rank value is formed, its header and data go out. -/
def execRankValueReady (tag : W32) (t : Nat) (s : State) : Host.Outcome State Fault Refusal :=
  let s' := (s.at t).accrue
  match s.bucketDef tag, s.runOf (tagPart tag) with
  | some d, some (filler, r) =>
    let me := s.myRank d
    let doneAlready := s.bnt.runs.any fun b => b.tag == tag && b.step == r.step % 2 ^ 32 && (b.done || b.headers.any fun h => h.rank == me)
    if !s.up ∨ !(d.isReduce || d.kind == kAllGather) ∨ !r.names tag ∨ r.fail.isSome ∨ r.prepared ∨ doneAlready
        ∨ !(d.leaves.all fun e => r.leafReady tag e.1 e.2) then .next s
    else
      let s := s'
      match s.runBar d with
      | some st => .next (s.endBucket d st)
      | none =>
        match s.rankValue r d with
        | .error st => .next (s.endBucket d st)
        | .ok (vals, empty) =>
          let step := r.step % 2 ^ 32
          let nf := d.isReduce && vals.any fun e => codesNf d.accF e.2 != 0
          let s := s.openBucket d step
          let (reason, thr) := s.pace
          let own : Header := ⟨me, s.counter, nf, empty, thr, reason, 0⟩
          let s := s.modRunOf tag fun b => { b with
            headers := b.headers ++ [own], data := b.data ++ vals.map fun e => (me, e.1, e.2) }
          let s := s.sendValue d step vals nf empty
          .next ((s.settleBucket d).openLeaves filler)
  | _, _ => .next s

/-- A step number is earlier than another, both low 32 bits. -/
def stepBefore (a b : Nat) : Bool := decide (a ≠ b ∧ (b + 2 ^ 32 - a) % 2 ^ 32 < 2 ^ 31)

/-- A header whose twin fails (R321, R550): asked for again once, then TWIN_MISMATCH. Which header it is, its damaged fields say.
(DEDUCED, log 48) -/
def State.headerTwin (s : State) (tag : W32) (rank first : Nat) : State :=
  match s.bucketDef tag with
  | none => s
  | some d =>
    let s := s.ensureRun d (s.bucketStep tag)
    if (s.openRunOf tag).any fun r => r.asked.contains (rank, first) then s.endBucket d .twinMismatch
    else
      ((s.modRunOf tag fun r => { r with asked := r.asked ++ [(rank, first)] }).twinFound 1).toRank d.part d.axes rank mHeaderAgain
        (leBytes 4 tag.toNat ++ leBytes 4 first)

/-- A header that checks. -/
def State.takeHeader (s : State) (d : Bucket) (w : Nat) : State :=
  let rank := bitsOf w 223 212
  let step := bitsOf w 211 180
  let cur := s.bucketStep d.tag
  if s.nRanks d ≤ rank ∨ rank = s.myRank d then s
  else if stepBefore step cur then
    (s.count Reg.bntStale 1).event { hubEvent .staleContribution s.counter [] with part := d.part, step }
  else if step ≠ cur ∨ (s.bnt.runs.any fun b => b.tag == d.tag && b.done && b.step == step) then s
  else if s.fenced d.tag && (s.openRunOf d.tag).isNone then s.count Reg.bntEpochFenced 1
  else
    let s := s.openBucket d step
    let first := bitsOf w 143 120
    if (s.openRunOf d.tag).any fun r => r.headers.any fun h => h.rank == rank && h.first == first then s
    else
      let again := (s.openRunOf d.tag).any fun r => r.asked.contains (rank, first)
      let s := if again then
          (s.modRunOf d.tag fun r => { r with asked := r.asked.filter (· != (rank, first)) }).twinRestored
            { hubEvent .twinRepaired s.counter [] with part := d.part, step }
        else s
      let h : Header := ⟨rank, s.counter, bitOf w 179, bitOf w 178, bitOf w 177, bitsOf w 176 173, first⟩
      (s.modRunOf d.tag fun r => { r with headers := r.headers ++ [h] }).settleBucket d

/-- CONTRIBUTION_HEADER (R321): 64 bytes, the value and its complement. -/
def execContributionHeader (word : W512) (t : Nat) (s : State) : Host.Outcome State Fault Refusal :=
  if !s.up then .next s
  else
    let s := s.at t
    let bs := leBytes 64 word.toNat
    match twinValue 32 bs with
    | none =>
      let w := leNat (bs.take 32)
      .next (s.headerTwin (BitVec.ofNat 32 (bitsOf w 255 224)) (bitsOf w 223 212) (bitsOf w 143 120))
    | some w =>
      match s.bucketDef (BitVec.ofNat 32 (bitsOf w 255 224)) with
      | some d => if d.isReduce || d.kind == kAllGather then .next (s.takeHeader d w) else .next s
      | none => .next s

/-- BUCKET_DEADLINE (R322): the root fixes the mask once the window [open, open + DEADLINE) has passed. -/
def execBucketDeadline (tag : W32) (t : Nat) (s : State) : Host.Outcome State Fault Refusal :=
  match s.bucketDef tag, s.openRunOf tag with
  | some d, some run =>
    let close := run.openedAt.getD 0 + 1000 * d.deadlineUs
    if !s.up ∨ s.myRank d ≠ 0 ∨ run.openedAt.isNone ∨ run.mask.isSome ∨ d.deadlineUs = 0 ∨ d.replay ∨ t < close then .next s
    else
      let s := s.at t
      let code (k : Nat) : Nat :=
        match run.headers.find? fun h => h.rank == k && decide (h.time < close) with
        | none => 1
        | some h => if d.exclude && h.nf then 2 else 0
      .next ((s.fixMask d run.step ((List.range (s.nRanks d)).map code)).settleBucket d)
  | _, _ => .next s

/-- MASK (R322): the root's mask reaches this rank; later masks of the run change nothing. -/
def execMask (tag : W32) (step : W32) (bytes : List Byte) (s : State) : Host.Outcome State Fault Refusal :=
  match s.bucketDef tag with
  | none => .next s
  | some d =>
    if !s.up ∨ s.myRank d = 0 ∨ step.toNat ≠ s.bucketStep tag ∨ !d.isReduce
        ∨ (s.bnt.runs.any fun b => b.tag == tag && b.done && b.step == step.toNat) then .next s
    else
      let s := s.ensureRun d step.toNat
      let codes := (List.range (s.nRanks d)).map fun r => bitsOf (leAt bytes (r / 4) 1) (2 * (r % 4) + 1) (2 * (r % 4))
      let s := s.modRunOf tag fun r => if r.mask.isSome then r else { r with mask := some codes }
      .next (s.settleBucket d)

/-- Tiles one after another from the front of the bytes. -/
def parseTiles (p : Part) (f : Fmt) : Nat → List Byte → Except Status (List Tile32)
  | 0, _ => .ok []
  | k + 1, bs =>
    if bs.isEmpty then .ok []
    else
      match checkHdr p (some f) none bs, readTile p (some f) none bs with
      | .ok (_, h), .ok t => (parseTiles p f k (bs.drop (tileLen f h.form h.nz))).map (t :: ·)
      | .error e, _ => .error (tileStatus e)
      | _, .error e => .error (tileStatus e)

/-- CONTRIBUTION_DATA (R315, R319, R322): tiles of a rank value from bucket tile `first` on; an omitted rank's are discarded. -/
def execContributionData (tag : W32) (rank first : Nat) (bytes : List Byte) (s : State) : Host.Outcome State Fault Refusal :=
  match s.bucketDef tag with
  | none => .next s
  | some d =>
    let omitted := (s.openRunOf tag).any fun r => r.mask.any fun m => m.getD rank 1 != 0
    if !s.up ∨ !(d.isReduce || d.kind == kAllGather) ∨ s.nRanks d ≤ rank ∨ rank = s.myRank d ∨ omitted
        ∨ (s.bnt.runs.any fun b => b.tag == tag && b.done && b.step == s.bucketStep tag) then .next s
    else if s.fenced tag && (s.openRunOf tag).isNone then .next (s.count Reg.bntEpochFenced 1)
    else
      let f := if d.isReduce then d.accFmt else (Fmt.ofCode d.fmt).getD .bfloat16
      match parseTiles s.part f (d.total - first) bytes with
      | .error st => .next (s.endBucket d st)
      | .ok ts =>
        let s := s.ensureRun d (s.bucketStep tag)
        let new := ts.zipIdx.map fun (t, k) =>
          (rank, first + k, if d.isReduce then t.codes.toList else (encodeDense t).map (·.toNat))
        let s := s.modRunOf tag fun r => { r with
          data := r.data ++ new.filter fun e => !(r.data.any fun x => x.1 == e.1 && x.2.1 == e.2.1) }
        .next (s.settleBucket d)

end Sys2Proof.Machine
end

