-- ==== Sys2Proof/Machine/Gather.lean ====
section
/-! DEFINITION. Sys2Proof/Machine/Gather.lean: parameter gathers (spec/11 R333 to R335) and PERMUTE (R341 to R343). -/

namespace Sys2Proof.Machine

open Sys2Proof

/-! Parameter gathers. -/

/-- The wire bytes of an owner unit's shard, with VERSION and CRC_CUR: the parts of its segments one after another (assumption log: the CRC of
a unit that owns parts of several segments is that of all their bytes, and fails where a part's own fails). The version asked for must be the one in every current slot (R333). -/
def State.serveUnit (s : State) (d : Bucket) (version n lo hi : Nat) : Except Status (Nat × List Byte) := do
  let parts ← (d.overlaps lo hi).mapM fun (_, g, _, _, nt) => do
    let w ← s.shardRec n g.shardRec
    if recVersion w ≠ version then throw .versionGone
    let bs ← s.loadBytes (dramAddr n (recSlot w true + slotWire nt)) (nt * ((wireFmt g.wire).getD .bfloat16).denseBytes)
    pure (recCrcCur w, bs)
  match parts with
  | [e] => return e
  | es =>
    let bs := es.flatMap (·.2)
    let bad := es.foldl (fun x e => x ^^^ (crc32 e.2 ^^^ BitVec.ofNat 32 e.1)) 0
    return ((crc32 bs ^^^ bad).toNat, bs)

/-- A wire tile widened to dense BF16 (R335, R49). -/
def widenTile (p : Part) (f : Fmt) (bs : List Byte) : Except Status (List Byte) :=
  match readTile p (some f) none bs with
  | .ok t =>
    .ok (encodeDense (tileOfCodes .bfloat16 ((Array.range 1024).map fun i => widenElem .bfloat16 (t.val (i / 32) (i % 32)))))
  | .error e => .error (tileStatus e)

/-- Consecutive tiles of given formats widened. -/
def widenTiles (p : Part) : List Fmt → List Byte → Except Status (List Byte)
  | [], _ => .ok []
  | f :: fs, bs => do
    let a ← widenTile p f (bs.take f.denseBytes)
    let b ← widenTiles p fs (bs.drop f.denseBytes)
    return a ++ b

/-- The formats of the tiles lo to hi. -/
def Bucket.fmtsOf (d : Bucket) (lo hi : Nat) : List Fmt :=
  (List.range (hi - lo)).map fun k =>
    match d.locate (lo + k) with
    | some (g, _) => (wireFmt g.wire).getD .bfloat16
    | none => .bfloat16

/-- Units of the whole group that own at least one tile. -/
def State.liveUnits (s : State) (d : Bucket) : List (Nat × Nat × Nat) :=
  (List.range (d.maskTiles.length * s.nRanks d)).filterMap fun u =>
    let (lo, hi) := s.unitRange d u
    if lo < hi then some (u, lo, hi) else none

def State.modGather (s : State) (tag : W32) (f : GatherRun → GatherRun) : State :=
  { s with bnt := { s.bnt with gathers := s.bnt.gathers.map fun g => if g.tag = tag then f g else g } }

/-- A gather with every shard in writes its records and tiles and completes (R335). -/
def State.settleGather (s : State) (d : Bucket) : State :=
  match s.bnt.gathers.find? fun g => g.tag == d.tag with
  | none => s
  | some run =>
    let shard (u : Nat) : Option (Nat × Nat × Nat × List Byte) := run.shards.find? fun e => e.1 == u
    if !((s.liveUnits d).all fun e => (shard e.1).isSome) then s
    else
      let recs := (List.range (d.maskTiles.length * s.nRanks d)).flatMap fun u =>
        let (lo, hi) := s.unitRange d u
        match shard u with
        | some (_, v, c, _) => leBytes 4 v ++ leBytes 4 c ++ leBytes 3 (hi - lo) ++ zeros 5
        | none => leBytes 4 run.version ++ zeros 12
      let widen (e : Nat × Nat × Nat) : Except Status (List Byte) :=
        widenTiles s.part (d.fmtsOf e.2.1 e.2.2) (((shard e.1).map fun x => x.2.2.2).getD [])
      match (s.liveUnits d).mapM widen with
      | .error st => s.endBucket d st
      | .ok ts =>
        let bs := recs ++ ts.flatten
        let s := d.maskTiles.foldl (fun (s : State) n => s.writeMem (dramAddr n (s.gatherBase + d.result)) bs) s
        { s with bnt := { s.bnt with gathers := s.bnt.gathers.filter fun g => g.tag != d.tag } }.finishOp d

/-- PARAM_GATHER (R333): a ready GATHER node's run; this module's own shards go to every rank, itself among them: one whose bytes do not give its
CRC gives it no better when it is asked for again twice (R334). -/
def execParamGather (tag : W32) (s : State) : Host.Outcome State Fault Refusal :=
  match s.bucketDef tag, s.runOf (tagPart tag) with
  | some d, some (_, r) =>
    if !s.up ∨ d.kind ≠ kParamGather ∨ r.fail.isSome ∨ !r.readyNode .gather tag
        ∨ (s.bnt.gathers.any fun g => g.tag == tag) then .next s
    else
      match s.runBar d with
      | some st => .next (s.endBucket d st)
      | none =>
        let version := (r.step + 2 ^ 32 - 1) % 2 ^ 32
        let mine := (s.myUnits d).filter fun (_, _, lo, hi) => decide (lo < hi)
        match mine.mapM fun (n, u, lo, hi) => (s.serveUnit d version n lo hi).map fun e => (u, e) with
        | .error st => .next (s.endBucket d st)
        | .ok es =>
          if es.any fun e => (crc32 e.2.2).toNat ≠ e.2.1 then .next ((s.count Reg.bntGatherRetries 2).endBucket d .gatherCheck)
          else
          let run : GatherRun := ⟨tag, version, es.map fun (u, c, bs) => (u, version, c, bs), []⟩
          let s := { s with bnt := { s.bnt with gathers := s.bnt.gathers ++ [run] } }
          let s := (s.otherRanks d).foldl (fun s k => es.foldl (fun s (u, c, bs) =>
            s.toRank d.part d.axes k mShard (leBytes 4 tag.toNat ++ leBytes 4 u ++ leBytes 4 version ++ leBytes 4 c ++ bs)) s) s
          .next (s.settleGather d)
  | _, _ => .next s

/-- GATHER_SHARD (R334): a served shard arrives; its CRC is checked, and a failing one is asked for again at most twice. -/
def execGatherShard (tag : W32) (unit : Nat) (version crc : W32) (bytes : List Byte) (s : State) : Host.Outcome State Fault Refusal :=
  match s.bucketDef tag, s.bnt.gathers.find? fun g => g.tag == tag with
  | some d, some run =>
    let (lo, hi) := s.unitRange d unit
    if !s.up ∨ hi ≤ lo ∨ d.maskTiles.length * s.nRanks d ≤ unit ∨ (run.shards.any fun e => e.1 == unit) then .next s
    else if version.toNat ≠ run.version then .next (s.endBucket d .versionGone)
    else if crc32 bytes ≠ crc then
      let asks := ((run.asks.find? fun e => e.1 == unit).map (·.2)).getD 0
      if 2 ≤ asks then .next (s.endBucket d .gatherCheck)
      else
        let s := s.modGather tag fun g => { g with asks := setAssoc g.asks unit (asks + 1) }
        .next ((s.count Reg.bntGatherRetries 1).toRank d.part d.axes (unit / d.maskTiles.length) mShardAgain
          (leBytes 4 tag.toNat ++ leBytes 4 unit))
    else
      let s := s.modGather tag fun g => { g with shards := g.shards ++ [(unit, version.toNat, crc.toNat, bytes)] }
      .next (s.settleGather d)
  | some d, none => .next (if s.up && d.kind == kParamGather && s.fenced tag then s.count Reg.bntEpochFenced 1 else s)
  | _, _ => .next s

/-! PERMUTE. -/

/-- The new definition agrees with the old one as R341 asks. -/
def State.sameShape (s : State) (a b : Bucket) : Bool :=
  a.kind == b.kind && s.nRanks a == s.nRanks b && a.acc64 == b.acc64
    && (a.segs.map fun g => (g.rows, g.cols, g.wire)) == (b.segs.map fun g => (g.rows, g.cols, g.wire))

/-- The definitions of a move entry, old and new. -/
def State.moveDefs (s : State) (part : Nat) (q : PermBlock) (e : Nat × Nat × Nat × Nat) : Option (Bucket × Bucket) :=
  match s.bucketDef (mkTag part q.old e.1), s.bucketDef (mkTag part q.new e.2.1) with
  | some a, some b => some (a, b)
  | _, _ => none

def State.planOk (s : State) (part : Nat) (q : PermBlock) : Bool :=
  q.moves.all fun e =>
    match s.moveDefs part q e with
    | some (a, b) => s.sameShape a b
    | none => false

/-- Bytes of a SHARD-delivered shard of the step in a tile's slice. -/
def State.shardBytes (s : State) (d : Bucket) (n : Nat) : Nat :=
  if d.kind = kReduceScatter ∧ !d.params then
    ((((s.myUnits d).find? fun e => e.1 == n).map fun (_, _, lo, hi) => s.resultBytes d lo hi)).getD 0
  else 0

/-- What tile n sends for segment i of an old definition (R342): the record's value, the slots by number, the gradient shard. -/
def State.moveOut (s : State) (d : Bucket) (entry n i : Nat) (g : Segment) : Except Status MoveData := do
  let shard := s.readMem (dramAddr n d.result) (s.shardBytes d n)
  if g.shardRec = 0 then return ⟨entry, n, i, [], [], shard⟩
  let w ← s.shardRec n g.shardRec
  let size := slotWire (recNt w) + recNt w * ((wireFmt g.wire).getD .bfloat16).denseBytes
  let cur ← s.loadBytes (dramAddr n (recSlot w true)) size
  let slots ← if recShadow w then do
      let other ← s.loadBytes (dramAddr n (recSlot w false)) size
      pure [cur, other]
    else pure [cur]
  return ⟨entry, n, i, leBytes 32 w, slots, shard⟩

/-- What a move writes at its new place: the record's version, current slot, SHADOW and CRCs, its slots, the gradient shard. -/
def State.moveIn (s : State) (d : Bucket) (m : MoveData) : Except Status (List (Nat × List Byte)) := do
  let shard := if m.shard.isEmpty then [] else [(dramAddr m.tile d.result, m.shard)]
  match d.segs[m.segment]? with
  | none => return []
  | some g =>
    if m.record.isEmpty then return shard
    let w ← s.shardRec m.tile g.shardRec
    let v := leNat m.record
    let w := setBits (setBits (setBits w 255 224 (recVersion v)) 223 222 (bitsOf v 223 222)) 99 36 (bitsOf v 99 36)
    let slot (k : Nat) (bs : List Byte) : Nat × List Byte := (dramAddr m.tile (recSlot w (k == 0)), bs)
    return (m.slots.zipIdx.map fun (bs, k) => slot k bs) ++ [(dramAddr m.tile g.shardRec, twinBytes 32 w)] ++ shard

/-- The moves that end on this module: entry, new definition, tile, segment, its source rank and old definition. -/
def State.incoming (s : State) (part : Nat) (q : PermBlock) (me : Nat) : List (Nat × Bucket × Nat × Nat × Nat × Bucket) :=
  q.moves.zipIdx.flatMap fun (e, k) =>
    match s.moveDefs part q e with
    | some (a, b) =>
      if e.2.2.2 = me then b.maskTiles.flatMap fun n => (List.range b.segs.length).map fun i => (k, b, n, i, e.2.2.1, a) else []
    | none => []

/-- The data of every incoming move: this module's own, or what arrived; none while some are missing. -/
def State.moveData (s : State) (part : Nat) (q : PermBlock) (me : Nat) (moves : List MoveData) :
    Option (List (Bucket × Except Status MoveData)) :=
  (s.incoming part q me).mapM fun (k, b, n, i, src, a) =>
    if src = me then some (b, s.moveOut a k n i (a.segs.getD i (parseSegment 0)))
    else (moves.find? fun m => m.entry == k && m.tile == n && m.segment == i).map fun m => (b, .ok m)

/-- The bytes of one move in a message. -/
def moveBytes (m : MoveData) : List Byte :=
  leBytes 2 m.entry ++ leBytes 1 m.tile ++ leBytes 1 m.segment ++ m.record ++ m.slots.flatten ++ m.shard

/-- This module's shards sent to the ranks that take them over (R342). (DESIGN CHOICE, log 54) -/
def State.sendMoves (s : State) (part : Nat) (q : PermBlock) (me : Nat) : Except Status State :=
  q.moves.zipIdx.foldlM (fun (s : State) (e, k) =>
    match s.moveDefs part q e with
    | some (a, _) =>
      if e.2.2.1 = me ∧ e.2.2.2 ≠ me then
        (a.maskTiles.flatMap fun n => a.segs.zipIdx.map fun (g, i) => (n, g, i)).foldlM (fun (s : State) (n, g, i) => do
          let m ← s.moveOut a k n i g
          return s.toRank part allAxes e.2.2.2 mMove (moveBytes m)) s
      else .ok s
    | none => .ok s) s

/-- The moves made and the epochs switched (R342, R343): what the records and slots held is kept for an ABORT. -/
def State.permuteMoves (s : State) (d : Bucket) (q : PermBlock) (me : Nat) (data : List (Bucket × Except Status MoveData)) :
    Except Status State := do
  let ws ← data.mapM fun (b, m) => do s.moveIn b (← m)
  let s ← s.sendMoves d.part q me
  let undo := ws.flatten.map fun (a, bs) => (a, s.readMem a bs.length)
  return (s.writeAll ws.flatten).modSeal d.part fun p => { p with perm := .moved, activeEpoch := q.new, undo := undo }

/-- PERMUTE (R341, R342): a ready PERMUTE node's run. It fences the old epoch at once; the moves follow when that epoch's open buckets have
drained and every incoming move has arrived. -/
def execPermute (tag : W32) (moves : List MoveData) (s : State) : Host.Outcome State Fault Refusal :=
  match s.bucketDef tag, s.runOf (tagPart tag) with
  | some d, some (_, r) =>
    let q := parsePerm d.block
    let p := s.sealPart d.part
    if !s.up ∨ d.kind ≠ kPermute ∨ r.fail.isSome ∨ !r.readyNode .permute tag then .next s
    else if p.perm = .idle ∧ tagEpoch tag ≠ p.activeEpoch then .next (s.endBucket d .epochFenced)
    else if !s.planOk d.part q then .next (s.endBucket d .permutePlan)
    else
      match s.linkBar (s.partition d.part) allAxes with
      | some st => .next (s.endBucket d st)
      | none =>
        let s := if p.perm = .idle then s.modSeal d.part fun p => { p with perm := .fenced, oldEpoch := q.old } else s
        let old (tag : W32) : Bool := tagPart tag == d.part && tagEpoch tag == q.old
        let drained := !((s.bnt.runs.any fun b => old b.tag && !b.done) || (s.bnt.gathers.any fun g => old g.tag)
          || s.bnt.exchanges.any fun x => old x.tag && x.sent)
        let me := (s.partition d.part).groupRank allAxes
        match drained, s.moveData d.part q me moves with
        | true, some data =>
          match s.permuteMoves d q me data with
          | .error st => .next (s.endBucket d st)
          | .ok s => .next (s.finishOp d)
        | _, _ => .next s
  | _, _ => .next s

end Sys2Proof.Machine
end

