-- ==== Sys2Proof/Machine/Router.lean ====
section
/-! DEFINITION. Sys2Proof/Machine/Router.lean: the expert router (spec/08 R221 to R235), placement tables (R222 to R224), and BIAS_UPDATE (R252). -/

namespace Sys2Proof.Machine

open Sys2Proof

/-! Placement reads. -/

/-- A placement entry as tile t reads it (R224, R550): its own copy, else the hub's, else another tile's, which repairs it; none when no copy
checks. -/
def State.placeEntry (s : State) (t e : Nat) : State × Option W32 :=
  let w (c : Nat) : Twin W32 := (s.xpr.active.getD c []).getD e placeEmpty
  if twinOk (w t) then (s, some (w t).val)
  else
    match (10 :: List.range 10).find? fun c => twinOk (w c) with
    | none => (s, none)
    | some c =>
      let active := modifyAt s.xpr.active t fun l => modifyAt l e fun _ => w c
      ((({ s with xpr := { s.xpr with active } }).twinFound 1).twinRestored (tileEvent .twinRepaired s.counter t 0xFF []), some (w c).val)

/-- ACTIVE as tile t reads it: 256 values, or none when some entry checks in no copy. -/
def State.placement (s : State) (t : Nat) : State × Option (List Nat) :=
  (List.range 256).foldl (fun (x : State × Option (List Nat)) e =>
    match x with
    | (s, none) => (s, none)
    | (s, some vs) =>
      let (s, v) := s.placeEntry t e
      (s, v.map fun w => vs ++ [w.toNat])) (s, some [])

/-- The experts that a table places. -/
def placedExperts (tab : List Nat) : List Nat := (tab.zipIdx.filter fun e => bitOf e.1 31).map (·.2)

/-! The route descriptor (R225). -/

structure Route where
  gate : Nat
  disp : Nat
  recAddr : Nat
  summ : Nat
  t : Nat
  e : Nat
  k : Nat
  depth : Nat
  norm : Bool
  biasEn : Bool
  cap : Nat
  layer : Nat
  pm1 : Nat
  eta : Nat
  mb : Nat

def parseRoute (w : Nat) : Route :=
  { gate := bitsOf w 511 464, disp := bitsOf w 463 416, recAddr := bitsOf w 415 368, summ := bitsOf w 367 320
    t := bitsOf w 319 304 + 1, e := bitsOf w 303 295 + 1, k := bitsOf w 294 293 + 1, depth := bitsOf w 292 290, norm := bitOf w 289
    biasEn := bitOf w 288, cap := bitsOf w 287 272, layer := bitsOf w 271 260, pm1 := bitsOf w 259 256, eta := bitsOf w 255 224
    mb := bitsOf w 223 215 }

/-- The four areas: address and bytes, the gate tensor first. -/
def Route.areas (d : Route) : List (Nat × Nat) :=
  [(d.gate, ceilDiv d.t 32 * ceilDiv d.e 32 * Fmt.binary32.denseBytes), (d.disp, 1024 + 4 * d.cap * d.e), (d.recAddr, 32 * d.t),
    (d.summ, 2112)]

/-- A range lies in a tile's own slice or store. -/
def inTile (t a n : Nat) : Bool :=
  rangePopulated a n &&
    match regionOf a with
    | .dram x _ => x == t
    | .tileStore x _ => x == t
    | _ => false

/-- The fields obey R226, given the placement. -/
def Route.ok (d : Route) (t : Nat) (tab : List Nat) : Bool :=
  let eta := FloatFmt.b32.decode d.eta
  decide (d.t ≤ 32768 ∧ d.e ≤ 256 ∧ d.depth ≤ 4 ∧ d.cap ≤ 32768 ∧ d.k ≤ d.e ∧ d.k + d.depth ≤ 8 ∧ d.cap ≠ 0)
    && placedExperts tab == List.range d.e
    && (!d.biasEn || (!eta.isNonfinite && !eta.isZero && !eta.sign))
    && d.areas.all fun a => inTile t a.1 a.2

/-- The gate tensor's tiles, row-major, or the status that refuses them (R226): R54 and R55 alone are checked, and a non-finite value is data
(R232). -/
def State.gateTiles (s : State) (d : Route) : Except Status (List Tile32) :=
  (List.range (ceilDiv d.t 32 * ceilDiv d.e 32)).mapM fun i =>
    let a := d.gate + i * Fmt.binary32.denseBytes
    let h := parseHdr (s.readMem a 16)
    if h.form ≠ Form.dense.code ∨ h.fmt ≠ Fmt.binary32.code then .error .routeDescriptor
    else
      let bs := s.readMem a Fmt.binary32.denseBytes
      if marked s.keep.marks a Fmt.binary32.denseBytes then .error .memUncorrectable
      else
        match checkHdr s.part (some .binary32) none bs with
        | .error _ => .error .headerCheck
        | .ok (f, h) => .ok (decodeTile f h bs)

/-! Selection and admission (R228 to R231). -/

/-- The candidate list of a token from its scores, and whether a score is a NaN. -/
def candidates (scores : List FVal) (n : Nat) : List Nat × Bool :=
  let cs := (scores.zipIdx.filter fun e => !e.1.isNan)
  let before (a b : FVal × Nat) : Bool := FVal.lt b.1 a.1 || (FVal.eq a.1 b.1 && decide (a.2 < b.2))
  (((sortBy before cs).map (·.2)).take n, scores.any FVal.isNan)

/-- Admission of one token: the loads, its slots as (expert, row), and the candidates that overflowed. -/
def admitToken (k cap : Nat) : List Nat → Array Nat → List (Nat × Nat) → Nat → Array Nat × List (Nat × Nat) × Nat
  | [], load, adm, overN => (load, adm, overN)
  | c :: cs, load, adm, overN =>
    if k ≤ adm.length then (load, adm, overN)
    else if load.getD c 0 < cap then admitToken k cap cs (load.modify c (· + 1)) (adm ++ [(c, load.getD c 0)]) overN
    else admitToken k cap cs load adm (overN + 1)

/-- What a route has come to: loads, demand, slots of the tokens so far (expert, row, weight code), counts. -/
structure RouteOut where
  load : Array Nat
  demand : Array Nat
  slots : List (List (Nat × Nat × Nat))
  overN : Nat
  nans : Nat

/-- Weights of a token's admitted slots (R230). -/
def slotWeights (norm : Bool) (gs : List Nat) : List Nat :=
  if norm then
    let vs := gs.map FloatFmt.b32.decode
    let sum := match vs with
      | [] => FVal.posZero
      | v :: r => r.foldl FloatFmt.b32.add v
    vs.map fun v => FloatFmt.b32.encode (FloatFmt.b32.div v sum)
  else gs

/-- One token routed. -/
def Route.token (d : Route) (bias : Nat → FVal) (gates : List Nat) (o : RouteOut) : RouteOut :=
  let scores := gates.zipIdx.map fun (g, e) => FloatFmt.b32.add (FloatFmt.b32.decode g) (bias e)
  let (cs, nan) := candidates scores (d.k + d.depth)
  let (load, adm, overN) := admitToken d.k d.cap cs o.load [] o.overN
  let ws := slotWeights d.norm (adm.map fun a => gates.getD a.1 0)
  let demand := if d.biasEn then (cs.take d.k).foldl (fun m e => m.modify e (· + 1)) o.demand else o.demand
  { load, demand, slots := o.slots ++ [(adm.zip ws).map fun (a, w) => (a.1, a.2, w)], overN, nans := o.nans + b2n nan }

/-! Outputs (R233 to R235). -/

def slotWord (e row w : Nat) : Nat := putBits 63 32 w + putBits 31 24 e + putBits 23 23 1 + putBits 14 0 row
def residualWord : Nat := 0x00000000FF000000

/-- The dispatch lists, record and summary as writes. -/
def Route.outputs (d : Route) (o : RouteOut) : List (Nat × List Byte) :=
  let counts (a : Array Nat) : List Byte := (List.range 256).flatMap fun e => leBytes 4 (a.getD e 0)
  let entries := o.slots.zipIdx.flatMap fun (sl, t) => sl.zipIdx.map fun (x, j) => (x.1, x.2.1, t + putBits 16 15 j)
  let lists := (List.range d.e).filterMap fun e =>
    let es := (entries.filter fun x => x.1 == e).map fun x => x.2.2
    if es.isEmpty then none else some (d.disp + 1024 + 4 * d.cap * e, es.flatMap (leBytes 4 ·))
  let record := o.slots.flatMap fun sl =>
    (List.range 4).flatMap fun j =>
      leBytes 8 (match sl[j]? with
        | some (e, row, w) => slotWord e row w
        | none => residualWord)
  let admitted := (o.slots.map List.length).sum
  let head := [d.t, admitted, o.overN, d.k * d.t - admitted, o.nans].flatMap (leBytes 8 ·) ++ zeros 24
  (d.disp, counts o.load) :: lists ++ [(d.recAddr, record), (d.summ, head ++ counts o.demand ++ counts o.load)]

/-- A route request's effect on tile t: the state with its outputs, and its status. A filler's route counts no demand: the bias loop is the main
partition's (R219). (DEDUCED, log 47) -/
def State.route (s : State) (filler : Bool) (t : Nat) (req : RouteReq) : State × Status :=
  if !s.addrOk req.part req.addr 64 false then (s, .addressFault)
  else if marked s.keep.marks req.addr 64 then (s, .memUncorrectable)
  else
    let d := parseRoute (s.memNat req.addr 64)
    let (s, tab) := s.placement t
    match tab with
    | none => (s.twinFound 1, .twinMismatch)
    | some tab =>
      if !d.ok t tab then (s, .routeDescriptor)
      else if d.biasEn && marked s.keep.marks (biasAddr t d.layer 0) (4 * d.e) then (s, .memUncorrectable)
      else if d.areas.zipIdx.any fun (a, i) => !s.addrOk req.part a.1 a.2 (i != 0) then (s, .addressFault)
      else
        match s.gateTiles d with
        | .error st => (s, st)
        | .ok ts =>
          let cols := ceilDiv d.e 32
          let gate (r e : Nat) : Nat := ((ts[cols * (r / 32) + e / 32]?).map fun x => x.codes.getD (32 * (r % 32) + e % 32) 0).getD 0
          let bias (e : Nat) : FVal := if d.biasEn then FloatFmt.b32.decode (s.biasAt t d.layer e) else FVal.posZero
          let o := (List.range d.t).foldl (fun o r => d.token bias ((List.range d.e).map (gate r)) o)
            ⟨Array.replicate 256 0, Array.replicate 256 0, [], 0, 0⟩
          let residual := d.k * d.t - (o.slots.map List.length).sum
          let s := s.writeAll (d.outputs o)
          let s := (((s.count Reg.xprRoutes 1).count Reg.xprOverflowed o.overN).count Reg.xprResidual residual).count
            Reg.xprNanTokens o.nans
          let x := { s.xpr with routes := setAssoc s.xpr.routes d.disp ⟨d.t, d.e, d.k, d.cap⟩ }
          let x := if d.biasEn && !filler then
              { x with stepDemand := (List.range d.e).foldl (fun l e => addDemand l (256 * d.layer + e) (o.demand.getD e 0)) x.stepDemand }.carry
                d.layer ⟨d.e - 1, d.pm1, d.eta⟩
            else x
          ({ s with xpr := x }, if residual = 0 then .ok else .capacityOverflow)

/-- ROUTE_REQUEST (R227, R229): the router of a tile runs the request at the head of its queue. -/
def execRouteRequest (tile : Tile) (s : State) : Host.Outcome State Fault Refusal :=
  match (s.xpr.queues.getD tile.val []).head? with
  | none => .next s
  | some req =>
    match s.runOf req.part with
    | none => .next s
    | some (filler, r) =>
      if !s.up ∨ r.fail.isSome ∨ r.abort.isSome then .next s
      else
        let s := { s with xpr := { s.xpr with queues := modifyAt s.xpr.queues tile.val List.tail } }.admitRoutes tile.val
        let (s, st) := s.route filler tile.val req
        .next (s.nodeEnd filler req.node st none)

/-- PLACEMENT_BUILD (R223): every copy holds the staged placement. -/
def execPlacementBuild (s : State) : Host.Outcome State Fault Refusal :=
  if !s.up ∨ s.xpr.place ≠ .building then .next s
  else
    let hub := s.xpr.pending.getD 10 []
    .next { s with xpr := { s.xpr with pending := List.replicate 11 hub, place := .ready } }

/-! The balance bias (R252). -/

/-- Every route of a step has completed: its demand is whole. -/
def StepRun.routesDone (r : StepRun) : Bool := r.nodes.all fun n => n.kind != .route || n.complete

/-- BIAS_UPDATE (R252): every route of the main step is complete, and the demand of the job's other modules has arrived. (DEDUCED, log 47) -/
def execBiasUpdate (part : Nat) (others : List DemandMsg) (s : State) : Host.Outcome State Fault Refusal :=
  match s.step with
  | some r =>
    if !s.up ∨ r.part ≠ part ∨ r.fail.isSome ∨ r.prepared ∨ r.abort.isSome ∨ !r.routesDone ∨ s.xpr.biasDone then .next s
    else
      let (s, st) := s.biasUpdate r.step others
      .next (if st = .ok then s else s.failStep false st)
  | none => .next s

end Sys2Proof.Machine
end

