-- ==== Sys2Proof/Machine/Exchange.lean ====
section
/-! DEFINITION. Sys2Proof/Machine/Exchange.lean: the token exchange (spec/08 R236 to R242, spec/11 R344, R345). -/

namespace Sys2Proof.Machine

open Sys2Proof

/-! Rows (R239). -/

/-- Bytes of a row of `dt` tiles. -/
def rowBytes (f : Fmt) (dt : Nat) : Nat := (if f.isMx then dt else 0) + 4 * dt * f.bits

/-- Row `row` of a dense tensor: its scale bytes, then its elements packed. A tile that is not dense, or whose scales lie along the other axis, breaks
R237; the setup cannot see it, so the exchange ends with that status when it reads it. (DEDUCED, log 48) -/
def State.tensorRow (s : State) (f : Fmt) (dt base row : Nat) : Except Status (List Byte) := do
  let at_ (c : Nat) : Nat := base + ((row / 32) * dt + c) * f.denseBytes
  if (List.range dt).any fun c => (parseHdr (s.readMem (at_ c) 16)).form ≠ Form.dense.code then throw .illegalFormat
  let ts ← (List.range dt).mapM fun c => s.loadTile f none (at_ c)
  if f.isMx && ts.any fun t => t.axis then throw .illegalFormat
  let sc := if f.isMx then ts.map fun t => t.scales.getD (row % 32) 0 else []
  return sc ++ pack f.bits (ts.flatMap fun t => (List.range 32).map fun i => t.codes.getD (32 * (row % 32) + i) 0)

/-- The dense tiles of `n` rows; a missing row is +0. -/
def rowTiles (f : Fmt) (dt n : Nat) (row : Nat → Option (List Byte)) : List Byte :=
  (List.range (ceilDiv n 32)).flatMap fun tr =>
    let rs := (List.range 32).map fun i => if 32 * tr + i < n then row (32 * tr + i) else none
    let k := if f.isMx then dt else 0
    let es := rs.map fun r => (r.map fun bs => (bs.take k, (unpack f.bits (4 * dt) (bs.drop k)).toArray))
    (List.range dt).flatMap fun c =>
      let codes := es.flatMap fun e => (List.range 32).map fun i => (e.map fun x => x.2.getD (32 * c + i) 0).getD 0
      let scales := es.map fun e => (e.map fun x => x.1.getD c 0).getD 0
      encodeDense { tileOfCodes f codes.toArray with scales := scales.toArray }

/-! Segments (R238). -/

def segmentHead (tag : W32) (src : Nat) (b : ExchBlock) (gen : Nat) (counts : List Nat) : Nat :=
  putBits 383 352 tag.toNat + putBits 351 348 src + putBits 347 346 b.mode + putBits 345 334 b.layer + putBits 333 325 b.mb
    + putBits 319 256 gen + (counts.zipIdx.map fun (n, i) => putBits (16 * i + 15) (16 * i) n).sum

/-- The expert that a module hosts at each local index, by ACTIVE. -/
def hosted (tab : List Nat) (rank : Nat) : List (Option Nat) :=
  (List.range 16).map fun i => tab.findIdx? fun w => bitOf w 31 && bitsOf w 7 4 == rank && bitsOf w 3 0 == i

/-- load_e, and an entry (t, j) of expert e's dispatch list (R233). -/
def State.listCount (s : State) (b : ExchBlock) (e : Nat) : Nat := s.memNat (b.disp + 4 * e) 4

def State.listEntry (s : State) (b : ExchBlock) (f : RouteFacts) (e i : Nat) : Nat × Nat :=
  let w := s.memNat (b.disp + 1024 + 4 * f.cap * e + 4 * i) 4
  (bitsOf w 14 0, bitsOf w 16 15)

/-- Counts and rows of the segment for group rank g (R236, R239, R241). -/
def State.segmentFor (s : State) (b : ExchBlock) (f : Fmt) (facts : RouteFacts) (tab : List Nat) (g : Nat) :
    Except Status (List Nat × List Byte) :=
  if b.mode ≠ 2 then do
    let parts ← (hosted tab g).mapM fun h =>
      match h with
      | none => pure (0, [])
      | some e => do
        let n := s.listCount b e
        let rows ← (List.range n).mapM fun i =>
          let (t, j) := s.listEntry b facts e i
          s.tensorRow f b.dt b.tensor (if b.mode = 0 then t else j * facts.t + t)
        pure (n, rows.flatten)
    return (parts.map (·.1), parts.flatMap (·.2))
  else do
    let got := ((s.bnt.recv.find? fun e => e.1 == b.gmt).map (·.2)).getD []
    let cnt (r i : Nat) : Nat := (((got.find? fun e => e.1 == r).map (·.2)).getD []).getD i 0
    let parts ← (List.range 16).mapM fun i => do
      let before := ((List.range g).map fun r => cnt r i).sum
      let rows ← (List.range (cnt g i)).mapM fun k => s.tensorRow f b.dt (b.table.getD i (0, 0, 0)).2.1 (before + k)
      pure (cnt g i, rows.flatten)
    return (parts.map (·.1), parts.flatMap (·.2))

/-! Receiving (R240, R241). -/

/-- Row k that source r sent for local index i. -/
def segmentRow (f : Fmt) (dt : Nat) (segs : List (Nat × List Nat × List Byte)) (r i k : Nat) : Option (List Byte) :=
  match segs.find? fun e => e.1 == r with
  | some (_, counts, bs) =>
    if k < counts.getD i 0 then some (slice bs (((counts.take i).sum + k) * rowBytes f dt) (rowBytes f dt)) else none
  | none => none

/-- Rows for local index i from every source, in ascending rank. -/
def receivedRows (f : Fmt) (dt g : Nat) (segs : List (Nat × List Nat × List Byte)) (i : Nat) : List (List Byte) :=
  (List.range g).flatMap fun r =>
    let n := ((segs.find? fun e => e.1 == r).map fun e => e.2.1.getD i 0).getD 0
    (List.range n).filterMap (segmentRow f dt segs r i)

/-- A grouped-matrix table entry (R242). -/
def gmtEntry (count expert dt fmt recv out step gen : Nat) : Nat :=
  putBits 255 232 count + putBits 231 224 expert + putBits 223 208 dt + putBits 207 203 fmt + putBits 191 144 recv
    + putBits 143 96 out + putBits 95 64 step + putBits 63 0 gen

/-- What a complete dispatch writes: receive tensors and the table. -/
def State.dispatchWrites (s : State) (b : ExchBlock) (f : Fmt) (tab : List Nat) (me g step : Nat)
    (segs : List (Nat × List Nat × List Byte)) : Except Status (List (Nat × List Byte)) := do
  let parts ← (hosted tab me).zipIdx.mapM fun (h, i) => do
    let (recv, out, cap) := b.table.getD i (0, 0, 0)
    let rows := receivedRows f b.dt g segs i
    match h with
    | none => pure ([], gmtEntry 0 0xFF 0 0 0 0 0 0)
    | some e =>
      if cap < rows.length then throw .receiveOverrun
      let ws := if rows.isEmpty then [] else [(recv, rowTiles f b.dt rows.length fun k => rows[k]?)]
      pure (ws, gmtEntry rows.length e b.dt f.code recv out step s.xpr.genActive)
  return parts.flatMap (·.1) ++ [(b.gmt, parts.flatMap fun e => leBytes 32 e.2)]

/-- What a complete return writes: every row of the slot tensor. -/
def State.returnWrites (s : State) (b : ExchBlock) (f : Fmt) (facts : RouteFacts) (tab : List Nat)
    (segs : List (Nat × List Nat × List Byte)) : List (Nat × List Byte) :=
  let rows := (placedExperts tab).flatMap fun e =>
    let w := tab.getD e 0
    (List.range (s.listCount b e)).map fun i =>
      let (t, j) := s.listEntry b facts e i
      (j * facts.t + t, segmentRow f b.dt segs (bitsOf w 7 4) (bitsOf w 3 0) i)
  [(b.tensor, rowTiles f b.dt (facts.k * facts.t) fun k => (rows.find? fun e => e.1 == k).bind (·.2))]

def State.modExchange (s : State) (tag : W32) (f : ExchangeRun → ExchangeRun) : State :=
  { s with bnt := { s.bnt with exchanges := s.bnt.exchanges.map fun g => if g.tag = tag then f g else g } }

def State.ensureExchange (s : State) (tag : W32) : State :=
  if s.bnt.exchanges.any fun g => g.tag == tag then s
  else
    let run : ExchangeRun := ⟨tag, false, [], []⟩
    { s with bnt := { s.bnt with exchanges := s.bnt.exchanges ++ [run] } }

/-- The facts of the route that an exchange names (assumption log). -/
def State.routeFacts (s : State) (b : ExchBlock) : Option RouteFacts := (s.xpr.routes.find? fun e => e.1 == b.disp).map (·.2)

/-- An exchange that has sent and received every segment writes its result and completes (R345). -/
def State.settleExchange (s : State) (d : Bucket) : State :=
  match s.bnt.exchanges.find? fun g => g.tag == d.tag with
  | none => s
  | some run =>
    let g := s.nRanks d
    if !run.sent ∨ !((List.range g).all fun r => run.segments.any fun e => e.1 == r) then s
    else
      let b := parseExch d.block
      let f := (Fmt.ofCode b.fmt).getD .bfloat16
      let (s, tab) := s.placement (d.maskTiles.headD 0)
      match tab, s.routeFacts b with
      | none, _ => s.endBucket d .twinMismatch
      | some _, none => s.endBucket d .routeDescriptor
      | some tab, some facts =>
        let ws := if b.mode = 2 then .ok (s.returnWrites b f facts tab run.segments)
          else s.dispatchWrites b f tab (s.myRank d) g (s.bucketStep d.tag) run.segments
        match ws with
        | .error st => s.endBucket d st
        | .ok ws =>
          let s := s.writeAll ws
          let recv := if b.mode = 2 then s.bnt.recv
            else setAssoc s.bnt.recv b.gmt (run.segments.map fun e => (e.1, e.2.1))
          { s with bnt := { s.bnt with recv, exchanges := s.bnt.exchanges.filter fun g => g.tag != d.tag } }.finishOp d

/-- The areas that an exchange reads and writes, now that the route gives their rows, lie in the partition's windows (R264). -/
def State.exchSpansOk (s : State) (d : Bucket) (b : ExchBlock) (f : Fmt) (facts : RouteFacts) : Bool :=
  let tiles (rows : Nat) : Nat := ceilDiv rows 32 * b.dt * f.denseBytes
  let ok (a n : Nat) (w : Bool) : Bool := n == 0 || s.addrOk d.part a n w
  ok b.disp (1024 + 4 * facts.cap * facts.e) false && ok b.recAddr (32 * facts.t) false
    && ok b.tensor (tiles (if b.mode = 0 then facts.t else facts.k * facts.t)) (b.mode == 2)
    && (b.mode != 2 ||
      let got := ((s.bnt.recv.find? fun e => e.1 == b.gmt).map (·.2)).getD []
      (List.range 16).all fun i => ok (b.table.getD i (0, 0, 0)).2.1 (tiles (got.map fun e => e.2.getD i 0).sum) false)

/-- EXCHANGE (R238): a ready EXCHANGE node's run; one segment goes to every module of the group. -/
def execExchange (tag : W32) (s : State) : Host.Outcome State Fault Refusal :=
  match s.bucketDef tag, s.runOf (tagPart tag) with
  | some d, some (_, r) =>
    if !s.up ∨ d.kind ≠ kExchange ∨ r.fail.isSome ∨ !r.readyNode .exchange tag ∨ s.inFlight tag then .next s
    else
      match s.runBar d with
      | some st => .next (s.endBucket d st)
      | none =>
        let b := parseExch d.block
        let f := (Fmt.ofCode b.fmt).getD .bfloat16
        let me := s.myRank d
        let (s, tab) := s.placement (d.maskTiles.headD 0)
        match tab, s.routeFacts b with
        | none, _ => .next (s.endBucket d .twinMismatch)
        | some _, none => .next (s.endBucket d .routeDescriptor)
        | some tab, some facts =>
          if !s.exchSpansOk d b f facts then .next (s.endBucket d .addressFault)
          else
          match (List.range (s.nRanks d)).mapM fun g => (s.segmentFor b f facts tab g).map fun e => (g, e) with
          | .error st => .next (s.endBucket d st)
          | .ok es =>
            let own := (es.filter fun e => e.1 == me).map fun e => (me, e.2.1, e.2.2)
            let s := (s.ensureExchange tag).modExchange tag fun x => { x with sent := true, segments := x.segments ++ own }
            let s := (es.filter fun e => e.1 != me).foldl (fun s (g, counts, rows) =>
              s.toRank d.part d.axes g mSegment (twinBytes 48 (segmentHead tag me b s.xpr.genActive counts) ++ rows)) s
            .next (s.settleExchange d)
  | _, _ => .next s

/-- A segment whose header checks: compared with this module's own view, then kept (R239). -/
def State.takeSegment (s : State) (d : Bucket) (w : Nat) (rows : List Byte) : State :=
  let b := parseExch d.block
  let src := bitsOf w 351 348
  if s.nRanks d ≤ src ∨ src = s.myRank d then s
  else if bitsOf w 319 256 ≠ s.xpr.genActive ∨ bitsOf w 345 334 ≠ b.layer ∨ bitsOf w 333 325 ≠ b.mb ∨ bitsOf w 347 346 ≠ b.mode then
    s.endBucket d .segmentMismatch
  else
    let s := s.ensureExchange d.tag
    let again := s.bnt.exchanges.any fun x => x.tag == d.tag && x.asked.contains src && !(x.segments.any fun e => e.1 == src)
    let s := if again then s.twinRestored { hubEvent .twinRepaired s.counter [] with part := d.part, step := s.bucketStep d.tag } else s
    let counts := (List.range 16).map fun i => bitsOf w (16 * i + 15) (16 * i)
    (s.modExchange d.tag fun x =>
      if x.segments.any fun e => e.1 == src then x else { x with segments := x.segments ++ [(src, counts, rows)] }).settleExchange d

/-- SEGMENT (R239): 96 header bytes and the rows; a failing twin is asked for again once (R550). -/
def execSegment (tag : W32) (bytes : List Byte) (s : State) : Host.Outcome State Fault Refusal :=
  match s.bucketDef tag with
  | some d =>
    if !s.up ∨ d.kind ≠ kExchange then .next s
    else if s.fenced tag && !s.inFlight tag then .next (s.count Reg.bntEpochFenced 1)
    else
      match twinValue 48 (bytes.take 96) with
      | some w => .next (s.takeSegment d w (bytes.drop 96))
      | none =>
        let src := bitsOf (leNat (bytes.take 48)) 351 348
        let s := s.ensureExchange tag
        if s.bnt.exchanges.any fun x => x.tag == tag && x.asked.contains src then .next (s.endBucket d .twinMismatch)
        else
          let s := (s.modExchange tag fun x => { x with asked := x.asked ++ [src] }).twinFound 1
          .next (s.toRank d.part d.axes src mSegmentAgain (leBytes 4 tag.toNat))
  | none => .next s

end Sys2Proof.Machine
end

