-- ==== Sys2Proof/Machine/Seal.lean ====
section
/-! DEFINITION. Sys2Proof/Machine/Seal.lean: the step seal (spec/11 R336 to R340, R343; spec/16 R486). -/

namespace Sys2Proof.Machine

open Sys2Proof

/-- The ranks of a partition's job and this module's own (R336). -/
def State.jobRanks (s : State) (p : Nat) : Nat := (s.partition p).groupSize allAxes
def State.jobRank (s : State) (p : Nat) : Nat := (s.partition p).groupRank allAxes

/-- BNT_SEAL_TIMEOUT in ns. -/
def State.sealTimeout (s : State) : Nat := 1000000 * s.reg Reg.bntSealTimeout

/-- The main step of a partition, when it seals. -/
def State.sealingStep (s : State) (p : Nat) : Option StepRun := s.step.filter fun r => r.part == p && r.isSeal

/-- A status that no replay can mend (R486). -/
def programRefusal : Status → Bool
  | .illegalFormat | .illegalOperand | .headerCheck | .addressFault | .dmaDescriptor | .splitAreaFull | .sideFull | .layerTable
  | .routeDescriptor | .bucketSetup | .versionGone | .epochFenced | .stepGraph | .stepOrder => true
  | _ => false

def refusalCodes : List Nat :=
  [Status.illegalFormat, .illegalOperand, .headerCheck, .addressFault, .dmaDescriptor, .splitAreaFull, .sideFull, .layerTable,
    .routeDescriptor, .bucketSetup, .versionGone, .epochFenced, .stepGraph, .stepOrder].map Status.code

/-! The boundary. -/

/-- Every record that checks and has SHADOW = 1, rewritten; `f`: the new value. -/
def State.mapShadows (s : State) (p : Nat) (f : Nat → Nat) : State :=
  (s.partRecords p).foldl (fun s (n, off, _) =>
    match s.shardRec n off with
    | .ok w => if recShadow w then s.putRec n off (f w) else s
    | .error _ => s) s

/-- The shadow slot becomes current as version `step` (R338). -/
def flipRecord (step w : Nat) : Nat :=
  let w1 := setBits w 223 223 (1 - bitsOf w 223 223)
  let w2 := setBits w1 255 224 step
  let w3 := setBits w2 99 68 (bitsOf w 67 36)
  setBits w3 222 222 0

/-! What the journal holds of a decision. The root writes its entry when it decides, before it sends (R337), every other rank when it acts. -/

/-- STATUS of an ABORTED entry (R488): the cause that the ABORT carries, SEAL_ABORT where it carries none. -/
def abortCode (cause : Nat) : Nat := if cause = 0 then Status.sealAbort.code else cause

/-- The STEP_RUN of a partition's step, running or waiting. -/
def State.stepRunCmd (s : State) (p step : Nat) : Option Cmd :=
  s.allCmds.find? fun c => c.part == p && c.family == 4 && c.op == 1 && bitsOf (leNat (c.params.take 64)) 511 448 == step

/-- The entry of a decision, which carries the STEP_RUN's REQ_ID (R488); a root without that command has none to write it for.
(DEDUCED, log 50) -/
def State.decisionEntry (s : State) (p : Nat) (d : Decision) : State :=
  match s.stepRunCmd p d.step with
  | some c => if d.commit then s.jnlEntry c .sealedStep .ok d.step else s.jnlCode c .aborted (abortCode d.cause) d.step
  | none => s

/-- COMMIT's step boundary (R338): records, bias table, placement, epoch, SEALED; then the step completes. -/
def State.applyCommit (s : State) (r : StepRun) (gen : Nat) : State :=
  let s := s.mapShadows r.part (flipRecord (r.step % 2 ^ 32))
  let s := s.biasFlip
  let x := s.xpr
  let x := if gen = 0 then x else { x with active := x.pending, genActive := x.genPending, place := .idle }
  let s := { s with xpr := x }
  let s := s.modSeal r.part fun p => { p with
    epoch := p.activeEpoch, perm := .idle, undo := [], sealSt := .committed, votes := [], firstVote := none }
  let s := s.modPart r.part fun p => { p with lastSealed := r.step }
  let s := match s.stepCmd r with
    | some c => if s.jobRank r.part = 0 then s else s.jnlEntry c .sealedStep .ok r.step
    | none => s
  s.completeStep false none

/-- The nodes of a step that has just begun, or begun again. -/
def State.startNodes (s : State) (filler : Bool) : State := ((s.wakeAll filler).openLeaves filler).finishStep filler

/-- ABORT once no item of the step runs any more (R339): SHADOW cleared, the old epoch active again, ABORTED; then the replay or the end. -/
def State.finishAbort (s : State) : State :=
  match s.step with
  | none => s
  | some r =>
    match r.abort with
    | none => s
    | some (replay, cause) =>
      if !(s.busyCores false).isEmpty then s
      else
        let st := r.fail.getD .sealAbort
        let s := s.mapShadows r.part fun w => setBits w 222 222 0
        let q := s.sealPart r.part
        let s := s.writeAll q.undo
        let s := s.modSeal r.part fun p => { p with
          activeEpoch := if p.perm == .idle then p.activeEpoch else p.oldEpoch, perm := .idle, undo := [], sealSt := .aborted
          aborts := p.aborts + 1 }
        let s := match s.stepCmd r with
          | some c => if s.jobRank r.part = 0 then s else s.jnlCode c .aborted ((r.fail.map Status.code).getD (abortCode cause)) r.step
          | none => s
        let s := (s.count Reg.bntSealAborts 1).event
          { hubEvent .sealAbort s.counter [] with part := r.part, step := r.step % 2 ^ 32 }
        if replay then
          let s := s.replayStep r
          if s.step.any fun r => r.fail.isSome then s else s.startNodes false
        else s.completeStep false (some st)

/-- ABORT reaches a rank (R339): no item starts, and the running ones run to their ends, those that wait in a SYN among them. -/
def State.takeAbort (s : State) (r : StepRun) (replay : Bool) (cause : Nat) : State :=
  (s.mapRun false fun _ => { r with abort := some (replay, cause) }).finishAbort

/-- ABORT of the next step reaches a rank that does not run it (R339: in any state): the records' SHADOW bits are cleared, the abort is recorded, and
the STEP_RUN, if it waits, runs in its turn. (DEDUCED, log 50) -/
def State.abortIdle (s : State) (p step cause : Nat) : State :=
  let s := (s.mapShadows p fun w => setBits w 222 222 0).modSeal p fun q => { q with sealSt := .aborted, aborts := q.aborts + 1 }
  let s := match s.stepRunCmd p step with
    | some c => s.jnlCode c .aborted (abortCode cause) step
    | none => s
  (s.count Reg.bntSealAborts 1).event { hubEvent .sealAbort s.counter [] with part := p, step := step % 2 ^ 32 }

/-! The root (R337). -/

/-- The step that the root's round is about. -/
def State.roundStep (s : State) (p : Nat) : Nat :=
  match s.sealingStep p with
  | some r => r.step
  | none => (s.partition p).lastSealed + 1

/-- Replays allowed and made of the step of a round (R481, R486). -/
def State.replayCounts (s : State) (p step : Nat) : Nat × Nat :=
  match s.sealingStep p with
  | some r => (r.replays, r.replayMax)
  | none =>
    let q := s.sealPart p
    let done := if q.abortsOf.1 = step then q.abortsOf.2 else 0
    (done, ((s.stepRunCmd p step).map fun c => bitsOf (leNat (c.params.take 64)) 261 259).getD 0)

def decisionBytes (d : Decision) : List Byte :=
  if d.commit then leBytes 8 d.step ++ leBytes 8 d.gen else leBytes 8 d.step ++ leBytes 1 (b2n d.replay) ++ leBytes 2 d.cause

def State.sendDecision (s : State) (p r : Nat) (d : Decision) : State :=
  s.toRank p allAxes r (if d.commit then mCommit else mAbort) (decisionBytes d)

/-- The root decides: the decision is recorded and kept, goes to every other rank, and its own rank acts on it. -/
def State.announce (s : State) (p : Nat) (d : Decision) : State :=
  let s := (s.decisionEntry p d).modSeal p fun x => { x with
    votes := [], firstVote := none, decisions := (d :: x.decisions.filter fun e => e.step != d.step).take 16 }
  let s := (List.range (s.jobRanks p - 1)).foldl (fun s k => s.sendDecision p (k + 1) d) s
  match s.sealingStep p with
  | some r => if r.step ≠ d.step then s else if d.commit then s.applyCommit r d.gen else s.takeAbort r d.replay d.cause
  | none => s

def State.decideAbort (s : State) (p : Nat) (cause : Nat) : State :=
  let step := s.roundStep p
  let (done, most) := s.replayCounts p step
  let s := s.modSeal p fun q => { q with abortsOf := (step, done + 1) }
  s.announce p ⟨step, false, 0, decide (done < most) && !refusalCodes.contains cause, cause⟩

/-- A CONFIRM or FAIL reaches the root. -/
def State.vote (s : State) (p : Nat) (v : SealVote) : State :=
  let q := s.sealPart p
  match q.decisions.find? fun d => d.step == v.step && (d.commit || !d.replay) with
  | some d => if v.rank = s.jobRank p then s else s.sendDecision p v.rank d
  | none =>
    if q.votes.any fun e => e.rank == v.rank then s
    else
      let s := s.modSeal p fun x => { x with votes := x.votes ++ [v], firstVote := some (x.firstVote.getD s.counter) }
      let votes := (s.sealPart p).votes
      match v.fail with
      | some st => s.decideAbort p st
      | none =>
        if v.step ≠ s.roundStep p ∨ votes.any fun e => e.epoch != v.epoch then s.decideAbort p 0
        else if votes.length = s.jobRanks p then
          let gen := if votes.all fun e => e.gen == v.gen then v.gen else 0
          s.announce p ⟨v.step, true, gen, false, 0⟩
        else s

/-- This rank's message to the root, or its own vote. -/
def State.castVote (s : State) (p : Nat) (v : SealVote) : State :=
  if v.rank = 0 then s.vote p v
  else
    match v.fail with
    | some st => s.toRank p allAxes 0 mFail (leBytes 8 v.step ++ leBytes 2 st)
    | none => s.toRank p allAxes 0 mConfirm (leBytes 8 v.step ++ leBytes 8 v.gen ++ leBytes 1 v.epoch)

/-! Preparing (R336). -/

/-- Every bucket that the step names has completed. -/
def State.bucketsDone (s : State) (r : StepRun) : Bool :=
  s.bnt.defs.all fun d =>
    !(d.part == r.part && (d.isReduce || d.kind == kAllGather) && r.names d.tag)
      || s.bnt.runs.any fun b => b.tag == d.tag && b.done && b.step == r.step % 2 ^ 32

/-- CRC_SHADOW of every shadow slot. -/
def State.sealCrcs (s : State) (p : Nat) : Except Status State :=
  (s.partRecords p).foldlM (fun (s : State) (n, off, wf) => do
    let w ← s.shardRec n off
    if recShadow w then
      let bs ← s.loadBytes (dramAddr n (recSlot w false + slotWire (recNt w))) (recNt w * wf.denseBytes)
      return s.putRec n off (setBits w 67 36 (crc32 bs).toNat)
    else return s) s

/-- The rank sends FAIL with the step's status. -/
def State.sendFail (s : State) (p : Nat) (r : StepRun) (st : Status) : State :=
  let s := s.mapRun false fun r => { r with failSent := true }
  s.castVote p ⟨s.jobRank p, r.step, 0, 0, some st.code⟩

/-- The rank prepares and confirms. (DEDUCED, log 47) -/
def State.prepare (s : State) (p : Nat) (r : StepRun) : State :=
  let (s, st) := if s.xpr.biasDone then (s, .ok) else s.biasUpdate r.step []
  if st ≠ .ok then (s.failStep false st).sendFail p r st
  else
    match s.sealCrcs p with
    | .error st => (s.failStep false st).sendFail p r st
    | .ok s =>
      let s := match s.stepCmd r with
        | some c => s.jnlEntry c .prepared .ok r.step
        | none => s
      let offer := s.xpr.place == .ready || s.xpr.place == .confirmed
      let s := if offer then { s with xpr := { s.xpr with place := .confirmed } } else s
      let s := s.mapRun false fun r => { r with prepared := true }
      let s := s.modSeal p fun x => { x with sealSt := .prepared, confirmAt := s.counter }
      s.castVote p ⟨s.jobRank p, r.step, if offer then s.xpr.genPending else 0, (s.sealPart p).activeEpoch, none⟩

/-- PREPARE (R336): a sealing step whose every node and bucket has completed confirms; a failed one sends FAIL. -/
def execPrepare (part : Nat) (s : State) : Host.Outcome State Fault Refusal :=
  match s.sealingStep part with
  | none => .next s
  | some r =>
    if !s.up ∨ r.prepared ∨ r.failSent ∨ r.abort.isSome then .next s
    else
      match r.fail with
      | some st => .next (s.sendFail part r st)
      | none => if r.allDone && s.bucketsDone r then .next (s.prepare part r) else .next s

/-- A message of another rank for the root of a partition's job. (DEDUCED, log 50) -/
def State.rootHears (s : State) (p rank t : Nat) (v : SealVote) : State :=
  if !s.up ∨ 8 ≤ p ∨ s.jobRank p ≠ 0 ∨ rank = 0 ∨ s.jobRanks p ≤ rank ∨ (s.partition p).state = .empty then s
  else (s.at t).vote p v

/-- CONFIRM (R337). (DEDUCED, log 50) -/
def execConfirm (part rank step gen epoch t : Nat) (s : State) : Host.Outcome State Fault Refusal :=
  .next (s.rootHears part rank t ⟨rank, step, gen, epoch, none⟩)

/-- FAIL (R337). (DEDUCED, log 50) -/
def execFail (part rank step : Nat) (status : W16) (t : Nat) (s : State) : Host.Outcome State Fault Refusal :=
  .next (s.rootHears part rank t ⟨rank, step, 0, 0, some status.toNat⟩)

/-- SEAL_TIMEOUT (R337): not every rank was heard from within BNT_SEAL_TIMEOUT of the first message. -/
def execSealTimeout (part t : Nat) (s : State) : Host.Outcome State Fault Refusal :=
  match (s.sealPart part).firstVote with
  | some t0 =>
    if !s.up ∨ t < t0 + s.sealTimeout then .next s else .next ((s.at t).decideAbort part 0)
  | none => .next s

/-- COMMIT (R338): the root's decision reaches a rank that has prepared. -/
def execCommit (part step gen : Nat) (s : State) : Host.Outcome State Fault Refusal :=
  match s.sealingStep part with
  | some r =>
    if !s.up ∨ s.jobRank part = 0 ∨ r.step ≠ step ∨ !r.prepared ∨ r.abort.isSome then .next s else .next (s.applyCommit r gen)
  | none => .next s

/-- ABORT (R339): accepted in any state of the step, and before it runs. -/
def execAbort (part step : Nat) (replay : Bool) (cause : W16) (s : State) : Host.Outcome State Fault Refusal :=
  match s.sealingStep part with
  | some r =>
    if !s.up ∨ s.jobRank part = 0 ∨ r.step ≠ step ∨ r.abort.isSome then .next s else .next (s.takeAbort r replay cause.toNat)
  | none =>
    let p := s.partition part
    if !s.up ∨ s.jobRank part = 0 ∨ p.state = .empty ∨ step ≠ p.lastSealed + 1 then .next s else .next (s.abortIdle part step cause.toNat)

/-- The running step of a rank that has confirmed and has no decision. -/
def State.awaiting (s : State) (p : Nat) : Option StepRun :=
  (s.sealingStep p).filter fun r => r.prepared && r.abort.isNone && s.jobRank p != 0

/-- SEAL_DECISION_TIMEOUT (R340): the rank asks the root for its decision; at the root, another rank's question about a step, which the root answers with
the decision it keeps, if it has decided. (DEDUCED, log 50) -/
def execSealDecisionTimeout (part : Nat) (ask : DecisionAsk) (s : State) : Host.Outcome State Fault Refusal :=
  match ask.asker with
  | none =>
    match s.awaiting part with
    | some r =>
      if !s.up ∨ ask.t < (s.sealPart part).confirmAt + s.sealTimeout then .next s
      else .next ((s.at ask.t).toRank part allAxes 0 mDecision (leBytes 8 r.step))
    | none => .next s
  | some (rank, step) =>
    if !s.up ∨ s.jobRank part ≠ 0 ∨ rank = 0 ∨ s.jobRanks part ≤ rank then .next s
    else
      match (s.sealPart part).decisions.find? fun d => d.step == step with
      | some d => .next ((s.at ask.t).sendDecision part rank d)
      | none => .next (s.at ask.t)

/-- SEAL_ROOT_LOST (R340): the root stayed unreachable for twice the timeout more; the step ends and the job pauses. -/
def execSealRootLost (part t : Nat) (s : State) : Host.Outcome State Fault Refusal :=
  match s.awaiting part with
  | some _ =>
    if !s.up ∨ t < (s.sealPart part).confirmAt + 3 * s.sealTimeout then .next s
    else
      let s := (s.at t).modPart part fun p => { p with state := .paused }
      .next (s.completeStep false (some .sealRootLost))
  | none => .next s

end Sys2Proof.Machine
end

