-- ==== Sys2Proof/Machine/Sched.lean ====
section
/-! DEFINITION. Sys2Proof/Machine/Sched.lean: STEP_RUN (spec/16 R480, R481; spec/07 R196 to R198), the cluster schedulers (spec/07 R199 to R203, R211
to R214, R218), how an item starts, ends and is re-run (spec/16 R482; spec/19 R551 to R554). -/

namespace Sys2Proof.Machine

open Sys2Proof

/-! STEP_RUN. -/

/-- A work-item header (R482). -/
def parseItem (addr : Nat) (bs : List Byte) : ItemHdr :=
  let w := leNat (bs.take 64)
  { addr, acctl := BitVec.ofNat 64 (bitsOf w 511 448), sched := BitVec.ofNat 64 (bitsOf w 447 384)
    seed := BitVec.ofNat 64 (bitsOf w 383 320), prog := bitsOf w 319 272, plen := bitsOf w 271 260 + 1, lsProg := bitsOf w 259 244
    sideBase := bitsOf w 243 228, sideUnits := bitsOf w 227 212, cluster := bitsOf w 211 209, teasel := bitOf w 208
    watchdogUs := bitsOf w 207 184, pin := bitOf w 183, core := bitsOf w 182 179 }

/-- A layer table entry (R197). -/
def parseLayer (bs : List Byte) : Layer :=
  let w := leNat (bs.take 32)
  { mode := bitsOf w 255 254, frozen := bitOf w 253, recomp := bitOf w 252, noDx := bitOf w 251, due := bitsOf w 239 228
    rank := bitsOf w 227 222, alpha := bitsOf w 191 160, maskAddr := bitsOf w 159 112, adaptAddr := bitsOf w 111 64
    maskRows := bitsOf w 63 32 }

def nodeKindOf : Nat → Option NodeKind
  | 0 => some .item
  | 1 => some .route
  | 2 => some .bucket
  | 3 => some .gather
  | 4 => some .exchange
  | 5 => some .permute
  | _ => none

/-- An area of a step's description: within the partition's windows (R481), and readable (R278). -/
def State.stepArea (s : State) (part a n : Nat) : Except Status (List Byte) :=
  if !s.addrOk part a n false then .error .stepGraph
  else if marked s.keep.marks a n then .error .memUncorrectable
  else .ok (s.readMem a n)

/-- Node i of the graph (R480, R481). (DEDUCED, log 40) -/
def State.parseNode (s : State) (part deps i : Nat) (bs : List Byte) : Except Status Node := do
  let w := leNat (bs.take 16)
  let n := bitsOf w 120 116
  let arg := bitsOf w 47 0
  let tile := bitsOf w 124 121
  let ds ← if n = 0 then pure [] else do
    let d ← s.stepArea part (deps + 4 * bitsOf w 95 64) (4 * n)
    pure ((List.range n).map fun k => leAt d (4 * k) 4)
  match nodeKindOf (bitsOf w 127 125) with
  | none => throw .stepGraph
  | some kind =>
    let placed := kind == .item || kind == .route
    if (ds.any fun d => decide (i ≤ d)) || (placed && decide (9 < tile)) then throw .stepGraph
    let hdr ← match kind with
      | .item => do
        let h ← s.stepArea part arg 64
        pure (some (parseItem arg h))
      | .route => do
        let _ ← s.stepArea part arg 64
        pure none
      | _ => pure none
    return { kind, tile, deps := ds, arg := if placed then arg else arg % 2 ^ 32, hdr, state := .waiting, started := false
             status := .ok, reruns := 0 }

/-- A layer table entry obeys R198. (DEDUCED, log 40) -/
def layerOk (kind : PartKind) (l : Layer) : Bool :=
  l.mode != 3 && (l.mode != 1 || (l.maskAddr != 0 && l.maskRows != 0))
    && (l.mode != 2 || (l.adaptAddr != 0 && (kind == .selftest || kind == .bringup || kind == .recovery)))
    && (!l.frozen || l.mode == 0)

/-- The tags that a node names (R481); a BUCKET field of 0 in a WGRAD item names none (assumption log). -/
def Node.tag (n : Node) : Option W32 :=
  match n.kind, n.hdr with
  | .item, some h => if h.cls = clsWgrad ∧ h.bucket ≠ 0 then some h.bucket else none
  | .item, none => none
  | .route, _ => none
  | _, _ => some (BitVec.ofNat 32 n.arg)

/-- A tag passes R481's check. -/
def State.tagOk (s : State) (part step : Nat) (tag : W32) : Bool :=
  (s.bucketDef tag).isSome && tagPart tag == part
    && !(s.bnt.runs.any fun r => r.tag == tag && !r.done && r.step != step)
    && !(s.bnt.gathers.any fun r => r.tag == tag) && !(s.bnt.exchanges.any fun r => r.tag == tag && r.sent)

/-- The step that STEP_RUN's parameters describe, or the status that refuses it. Where several of STEP_ORDER, STEP_GRAPH and LAYER_TABLE apply, the manual
gives no order: the step number counts first, then the nodes and addresses, then the layer table, then the tags. (DEDUCED, log 40) -/
def State.parseStep (s : State) (part jseq : Nat) (filler : Bool) (params : List Byte) : Except Status StepRun := do
  let w := leNat (params.take 64)
  let p := s.partition part
  let step := bitsOf w 511 448
  let isSeal := bitOf w 262 && !filler
  if isSeal ∧ step ≠ p.lastSealed + 1 then throw .stepOrder
  let n := bitsOf w 399 380 + 1
  let log := bitsOf w 258 211
  let graph ← s.stepArea part (bitsOf w 447 400) (16 * n)
  if log ≠ 0 ∧ !s.addrOk part log (16 * n) true then throw .stepGraph
  let nodes ← (List.range n).mapM fun i => s.parseNode part (bitsOf w 379 332) i (slice graph (16 * i) 16)
  let nl := bitsOf w 283 272 + 1
  let table ← s.stepArea part (bitsOf w 331 284) (32 * nl)
  let layers := (List.range nl).map fun i => parseLayer (slice table (32 * i) 32)
  if !layers.all (layerOk p.kind) ∨ nodes.any (fun n => n.hdr.any fun h => decide (nl ≤ h.layer)) then throw .layerTable
  let own := (nodes.filter fun n => n.kind != .item).filterMap Node.tag
  if !(nodes.filterMap Node.tag).all (s.tagOk part (step % 2 ^ 32)) ∨ own.eraseDups.length ≠ own.length then throw .stepGraph
  return { part, jseq, step, nodes, layers, mb := bitsOf w 271 263 + 1, isSeal, replayMax := bitsOf w 261 259, itemLog := log, replays := 0
           startedAt := 0, retryNs0 := s.retryNow, fail := none, notes := 0, subst := 0, promoted := 0, qfull := 0, dropped := 0
           nfCount := 0, splitItems := 0, deferredFull := [], tileErrors := [], prepared := false, failSent := false, abort := none }

/-- A STEP_RUN of a main partition (R466, R468). -/
def State.mainStep (s : State) (c : Cmd) : Bool := c.family == 4 && c.op == 1 && (s.partition c.part).kind.isMain

/-- R468: the steps of main partitions run one at a time, in the order of acceptance, so an earlier accepted one that is not final comes first, whatever
holds it; the filler's run beside them. (DEDUCED, log 40) -/
def State.stepMayStart (s : State) (c : Cmd) : Bool :=
  let p := s.partition c.part
  p.state == PartState.running && s.power.state == .full && !s.power.moving
    && (if p.kind == .filler then s.filler.isNone
        else s.step.isNone && !(s.allCmds.any fun d => decide (d.jseq < c.jseq) && s.mainStep d))

/-- A step that nothing of runs: its record carries the status (R481, R483). (DEDUCED, log 24) -/
def State.refuseStep (s : State) (c : Cmd) (step : Nat) (st : Status) : State :=
  s.finish c .completed st (putBits 63 32 step)
    (leBytes 64 (putBits 511 448 step + putBits 447 432 st.code + putBits 63 0 s.fp.toNat))

/-- The step starts. -/
def State.beginStep (s : State) (filler : Bool) (r : StepRun) : State :=
  let s := s.accrue
  let s := if filler then s else
    { s with xpr := { s.xpr with stepDemand := [], stepParams := [], paramsDiffer := false, biasDone := false } }
  let s := s.modSeal r.part fun q => { q with sealSt := .idle }
  (s.setRun filler r).startNodes filler

/-- STEP_RUN (R481): until it may start, it stays ACCEPTED. -/
def execStepRun (jseq : Nat) (s : State) : Host.Outcome State Fault Refusal :=
  match s.runnable 4 1 jseq with
  | none => .next s
  | some c =>
    if !s.stepMayStart c then .next s
    else
      .next (s.runQueued 4 1 jseq fun c s =>
        if c.params.length ≠ 64 then s.complete c .badCommand
        else
          let filler := (s.partition c.part).kind == .filler
          match s.parseStep c.part jseq filler c.params with
          | .error st => s.refuseStep c (bitsOf (leNat (c.params.take 64)) 511 448) st
          | .ok r => s.beginStep filler r)

/-! Slots (R211). -/

/-- The slot sequence of a stage: forward or not, and the microbatch. -/
def slotSeq (p s m : Nat) : List (Bool × Nat) :=
  let warm := min (p - 1 - s) m
  (List.range warm).map (fun i => (true, i))
    ++ ((List.range (m - warm)).flatMap fun i => [(true, warm + i), (false, i)])
    ++ ((List.range warm).map fun i => (false, m - warm + i))

/-- The slot that an item belongs to: FWD to forward(MB), RECOMP and DGRAD to backward(MB); none for the others. -/
def ItemHdr.slot (h : ItemHdr) (slots : List (Bool × Nat)) : Option Nat :=
  if h.cls = clsFwd then slots.findIdx? (· == (true, h.mb))
  else if h.cls = clsDgrad ∨ h.cls = clsRecomp then slots.findIdx? (· == (false, h.mb))
  else none

def State.slotsOf (s : State) (r : StepRun) : List (Bool × Nat) :=
  let p := s.partition r.part
  slotSeq (p.jobExt 2) (p.jobCoord 2) r.mb

/-- What a slot needs from its neighbour stage has arrived (R212): activations for a forward slot of a stage s > 0, gradients for a backward slot of a
stage s < p − 1. -/
def State.slotFed (s : State) (r : StepRun) (slot : Bool × Nat) : Bool :=
  let p := s.partition r.part
  let need := if slot.1 then decide (0 < p.jobCoord 2) else decide (p.jobCoord 2 + 1 < p.jobExt 2)
  !need || s.links.arrived.contains slot

/-- Every item of the slots before one has started (R212). -/
def StepRun.slotOpen (r : StepRun) (slots : List (Bool × Nat)) (k : Nat) : Bool :=
  r.nodes.all fun n =>
    n.started || match n.hdr.bind fun h => h.slot slots with
      | some j => decide (k ≤ j)
      | none => true

/-- The place of an item among the work of priority 1: slot, descending layer and RECOMP first in a backward slot, submission (R199, R201);
items of no slot come after. RECOMP items of a layer whose RECOMP bit is 0 run before its DGRAD items too, a case that R201 leaves out. (DEDUCED, log 40) -/
def startKey (slots : List (Bool × Nat)) (i : Nat) (h : ItemHdr) : List Nat :=
  match h.slot slots with
  | some k => if h.cls = clsFwd then [k, 0, 0, i] else [k, 4096 - h.layer, b2n (h.cls == clsDgrad), i]
  | none => [slots.length, 0, 0, i]

/-! Who may run an item. -/

/-- The logical core may take the item (R199, R200, R482). -/
def State.canRun (s : State) (core : Nat) (h : ItemHdr) : Bool :=
  let k := core % 12
  (!h.pin || h.core == k) && (!h.teasel || teaselLog s.part k)

/-- The logical cores of a cluster that are in service. -/
def State.liveCores (s : State) (cluster : Nat) : List Nat :=
  (List.range 12).filter fun k => (s.physCore (12 * cluster + k)).isSome

/-- Refusals that no core of the cluster changes (R200, R482, R560). -/
def State.placeBar (s : State) (cluster : Nat) (h : ItemHdr) : Option Status :=
  let live := s.liveCores cluster
  if h.pin && decide (11 < h.core) then some .illegalOperand
  else if h.teasel && !((List.range 12).any (teaselLog s.part)) then some .illegalFormat
  else if h.pin && h.teasel && h.core != 10 && h.core != 11 then some .illegalOperand
  else if h.teasel && !(live.any (teaselLog s.part)) then some .illegalFormat
  else if h.pin && !live.contains h.core then some .illegalOperand
  else if 4 < h.cls then some .illegalOperand
  else none

/-- A tile on which items do not start, and why (R532, R561). -/
def State.tileBar (s : State) (t : Nat) : Option Status := s.tileTrip t

/-- A ready item that this core would take, or that is refused wherever it starts. -/
def State.takes (s : State) (core : Nat) (h : ItemHdr) : Bool := s.canRun core h || (s.placeBar (core / 12) h).isSome

/-! What a header's memory must obey (R115, R482, R632, R217). -/

/-- Bytes of the local store's tile register file and above. -/
def trfBase : Nat := 0xF0000

/-- L of R87. -/
def rawLen (b64 : Bool) : Nat := if b64 then 8208 else 4112

/-- Split area and non-finite log: base and bytes. -/
def splitArea (ctl : Nat) : Nat × Nat := (16 * bitsOf ctl 47 32, bitsOf ctl 55 48 * (16 + rawLen (!bitOf ctl 60)))
def nfArea (ctl : Nat) : Nat × Nat := (16 * bitsOf ctl 15 0, 8 * bitsOf ctl 31 24)

def rangesMeet (a b : Nat × Nat) : Bool := decide (0 < a.2 ∧ 0 < b.2 ∧ a.1 < b.1 + b.2 ∧ b.1 < a.1 + a.2)

/-- The accumulation control word obeys R115. -/
def acctlOk (ctl : Nat) : Bool :=
  let a := splitArea ctl
  let b := nfArea ctl
  decide (bitsOf ctl 63 61 < 6) && decide (a.2 = 0 ∨ a.1 + a.2 ≤ trfBase) && decide (b.2 = 0 ∨ b.1 + b.2 ≤ trfBase)
    && !rangesMeet a b

/-- A local-store range that an item of partition p may address, seen from the filler window of R217. -/
def State.lsWindowOk (s : State) (p : Nat) (filler : Bool) (a n : Nat) : Bool :=
  let w := s.fillerWindow p
  if filler then decide (trfBase - w ≤ a ∧ a + n ≤ trfBase) else !rangesMeet (a, n) (trfBase - w, w)

/-- A range of an item's own that an empty length makes nothing of. -/
def State.itemArea (s : State) (p : Nat) (filler : Bool) (r : Nat × Nat) : Bool :=
  r.2 == 0 || (decide (r.1 + r.2 ≤ trfBase) && s.lsWindowOk p filler r.1 r.2)

/-- Program, side-spill ring, split area and non-finite log lie where R115, R216, R217, R482 and R632 allow. -/
def State.itemFits (s : State) (p : Nat) (filler : Bool) (h : ItemHdr) : Bool :=
  s.itemArea p filler (16 * h.lsProg, 16 * h.plen) && s.itemArea p filler (16 * h.sideBase, 16 * h.sideUnits)
    && s.itemArea p filler (splitArea h.acctl.toNat) && s.itemArea p filler (nfArea h.acctl.toNat)

/-- Why an item is refused when it starts. -/
def State.itemBar (s : State) (filler : Bool) (part core : Nat) (h : ItemHdr) : Option Status :=
  match s.tileBar (core / 96), s.placeBar (core / 12) h with
  | some st, _ => some st
  | none, some st => some st
  | none, none =>
    if !acctlOk h.acctl.toNat || !s.itemFits part filler h then some .illegalOperand
    else if !s.addrOk part h.prog (16 * h.plen) false then some .addressFault
    else if marked s.keep.marks h.prog (16 * h.plen) then some .memUncorrectable
    else none

/-! Starting (R92, R482). -/

/-- A core about to issue an item's first instruction. -/
def Core.begin (c : Core) (filler : Bool) (node part t : Nat) (h : ItemHdr) (prog : List Byte) : Core :=
  { c.idle.write (16 * h.lsProg) prog with item := some (filler, node), hdr := some h, part, startedAt := t }

/-- Local-store words fully written lose their marks (R278). -/
def State.lsWrote (s : State) (core : Nat) (rs : List (Nat × Nat)) : State :=
  { s with keep := { s.keep with marks := rs.foldl (fun m r => clearMarks m (lsKey core r.1) r.2) s.keep.marks } }

/-- A node's item starts on a core, or ends with the status that refuses it. -/
def State.startItem (s : State) (filler : Bool) (core i : Nat) (r : StepRun) (h : ItemHdr) : State :=
  let s := { s with deferred := s.deferred.map fun (e : Nat × List Nat) => (e.1, e.2.filter fun k => filler || k != i) }
  let s := s.mapRun filler fun r => { r.modNode i (fun n => { n with state := .running, started := true }) with
    startedAt := if r.startedAt = 0 then s.counter else r.startedAt
    retryNs0 := if r.startedAt = 0 then s.retryNow else r.retryNs0 }
  match s.itemBar filler r.part core h with
  | some st => s.nodeEnd filler i st none
  | none =>
    let c := (s.core core).begin filler i r.part s.counter h (s.readMem h.prog (16 * h.plen))
    (s.setCore core c).lsWrote core [(16 * h.lsProg, 16 * h.plen)]

/-- A suspended filler item goes on (R218). -/
def State.resumeItem (s : State) (core part : Nat) (u : Suspended) : State :=
  let c := s.core core
  let counts (f : WinEntry → List Nat) : List (Nat × Nat) :=
    (u.window.flatMap f).foldl (fun m k => Sparse.set 0 m k (Sparse.get 0 m k + 1)) []
  s.setCore core { c.idle with
    item := some (true, u.node), hdr := some u.hdr, part, startedAt := s.counter - u.ran, ended := u.ended, pc := u.pc, window := u.window
    wcounts := counts (·.writes), rcounts := counts (·.reads), slots := u.slots, shadow := u.shadow, shadowSet := u.shadowSet
    active := u.active, nfLog := u.nfLog, nfDropped := u.nfDropped, nfCount := u.nfCount, splitUsed := u.splitUsed, suspended := none }

/-! Choosing (R199, R203, R213). -/

/-- Items of a cluster in a state, with their headers. -/
def StepRun.itemsIn (r : StepRun) (cluster : Nat) (st : NodeState) : List (Nat × ItemHdr) :=
  r.nodes.zipIdx.filterMap fun (n, i) =>
    match n.hdr with
    | some h => if n.state == st && 8 * n.tile + h.cluster == cluster then some (i, h) else none
    | none => none

/-- No DGRAD item of the layer and microbatch has started in the cluster. -/
def StepRun.firstDgrad (r : StepRun) (cluster : Nat) (h : ItemHdr) : Bool :=
  h.cls == clsDgrad && !(r.nodes.any fun n => n.started && n.hdr.any fun g =>
    8 * n.tile + g.cluster == cluster && g.cls == clsDgrad && g.layer == h.layer && g.mb == h.mb)

/-- Deferred items of a cluster that a first DGRAD item of (L, MB) promotes (R203). -/
def State.dueNow (s : State) (r : StepRun) (cluster : Nat) (h : ItemHdr) : List Nat :=
  (s.deferredOf cluster).filter fun i =>
    match (r.nodes[i]?).bind (·.hdr) with
    | some g =>
      match dueLayer g.layer (r.layer g.layer).due with
      | some d => decide (h.layer ≤ d ∧ g.mb ≤ h.mb)
      | none => false
    | none => false

def State.promotedOf (s : State) (cluster : Nat) : List (Nat × ItemHdr) :=
  match s.step with
  | some r => sortBy (fun a b => lexLt (deferKey r a.1) (deferKey r b.1)) (r.itemsIn cluster .promoted)
  | none => []

/-- Priority 1: ready items whose slot is open and fed, in order. -/
def State.firstChoice (s : State) (r : StepRun) (cluster : Nat) : List (Nat × ItemHdr) :=
  let slots := s.slotsOf r
  let open_ := (r.itemsIn cluster .ready).filter fun e =>
    ((e.2.slot slots).map fun k => r.slotOpen slots k && s.slotFed r (slots.getD k (true, 0))).getD true
  sortBy (fun a b => lexLt (startKey slots a.1 a.2) (startKey slots b.1 b.2)) open_

/-- What a free core takes of the main step, with what it promoted on the way. -/
def State.chooseMain (s : State) (r : StepRun) (core : Nat) : State × Option (Nat × ItemHdr) :=
  let cl := core / 12
  let ones := (s.firstChoice r cl).filter fun e => s.takes core e.2
  let later (s : State) : Option (Nat × ItemHdr) :=
    match (s.promotedOf cl).find? fun e => s.takes core e.2 with
    | some e => some e
    | none => ((s.deferredOf cl).filterMap fun i => ((r.nodes[i]?).bind (·.hdr)).map fun h => (i, h)).find? fun e => s.takes core e.2
  match ones.head? with
  | none => (s, later s)
  | some e =>
    if !r.firstDgrad cl e.2 then (s, some e)
    else
      let s := (s.dueNow r cl e.2).foldl State.promote s
      let ps := s.promotedOf cl
      if ps.isEmpty then (s, some e)
      else
        match ps.find? fun p => s.takes core p.2 with
        | some p => (s, some p)
        | none => (s, ones.find? fun e => !r.firstDgrad cl e.2)

/-- The main step has work of priorities 1 to 3 in a cluster (R213). -/
def State.mainWork (s : State) (cluster : Nat) : Bool :=
  match s.step with
  | some r => !(s.firstChoice r cluster).isEmpty || !(r.itemsIn cluster .promoted).isEmpty || !(s.deferredOf cluster).isEmpty
  | none => false

/-- A logical core that is free for an item. -/
def State.coreFree (s : State) (i : Nat) : Bool := (s.physCore i).isSome && (s.core i).item.isNone && s.tileIn (i / 96)

/-- WORK_ITEM_START on a free core for the main step. -/
def State.startMain (s : State) (core : Nat) : State :=
  match s.step with
  | none => s
  | some r =>
    if r.abort.isSome then s
    else
      match s.chooseMain r core with
      | (s, none) => s
      | (s, some (i, h)) =>
        let s := s.startItem false core i r h
        s.endPass

/-- WORK_ITEM_START for the filler: its suspended item first, then its ready items in submission order. -/
def State.startFiller (s : State) (core : Nat) : State :=
  match s.filler with
  | none => s
  | some r =>
    if s.mainWork (core / 12) then s
    else
      match (s.core core).suspended with
      | some u => s.resumeItem core r.part u
      | none =>
        match (r.itemsIn (core / 12) .ready).find? fun e => s.takes core e.2 with
        | some (i, h) => s.startItem true core i r h
        | none => s

/-- WORK_ITEM_START (R199). -/
def execWorkItemStart (c : CoreId) (filler : Bool) (t : Nat) (s : State) : Host.Outcome State Fault Refusal :=
  if !s.up ∨ s.power.state ≠ .full ∨ !s.coreFree c.idx then .next s
  else .next (if filler then (s.at t).startFiller c.idx else (s.at t).startMain c.idx)

/-! Ends (R482). -/

/-- Every instruction of the item has completed and every queue has drained. -/
def State.itemDrained (s : State) (i : Nat) : Bool :=
  let c := s.core i
  let k := s.cluster (i / 12)
  (c.hdr.any fun h => decide (h.plen ≤ c.pc)) && c.window.isEmpty && c.draining.isEmpty
    && !(k.dma.any fun d => d.core == i) && !(k.groups.any fun g => g.owner == i)

/-- An item leaves its core with a status, and its node ends. -/
def State.endItem (s : State) (i : Nat) (st : Status) : State :=
  let c := s.core i
  match c.item with
  | none => s
  | some (filler, n) => ((s.releaseCore i).nodeEnd filler n st (some c)).finishAbort

/-- WORK_ITEM_COMPLETE (R127, R482): with the status that ended it, or once its last instruction has completed. -/
def execWorkItemComplete (c : CoreId) (t : Nat) (s : State) : Host.Outcome State Fault Refusal :=
  let k := s.core c.idx
  if !s.up ∨ k.item.isNone then .next s
  else
    match k.ended with
    | some st => .next ((s.at t).endItem c.idx st)
    | none =>
      if s.itemDrained c.idx then .next ((s.at t).endItem c.idx (if 0 < k.splitUsed then .boundSplit else .ok)) else .next s

/-- Watchdog of an item in ns (R482). -/
def State.itemLimit (s : State) (c : Core) : Nat :=
  let us := (c.hdr.map (·.watchdogUs)).getD 0
  1000 * (if us = 0 then (s.partition c.part).watchdogUs else us)

/-- ITEM_WATCHDOG (R482): the item has run for longer than its watchdog. -/
def execItemWatchdog (c : CoreId) (t : Nat) (s : State) : Host.Outcome State Fault Refusal :=
  let k := s.core c.idx
  if !s.up ∨ k.item.isNone ∨ t ≤ k.startedAt + s.itemLimit k then .next s else .next ((s.at t).endItem c.idx .itemWatchdog)

/-- The lowest core of a cluster that runs a filler item. -/
def State.fillerCore (s : State) (cluster : Nat) : Option Nat :=
  ((List.range 12).map (12 * cluster + ·)).find? fun i =>
    match (s.core i).item with
    | some (f, _) => f
    | none => false

/-- FILLER_PREEMPT (R214): a main item is ready in a cluster with no free core. -/
def execFillerPreempt (tile : Tile) (cluster : Cluster) (s : State) : Host.Outcome State Fault Refusal :=
  let cl := 8 * tile.val + cluster.val
  if !s.up ∨ !s.mainWork cl ∨ ((List.range 12).any fun k => s.coreFree (12 * cl + k)) then .next s
  else
    match s.fillerCore cl with
    | some i => .next (s.preempt i)
    | none => .next s

/-! Unit faults of cores (R551 to R554, R557). -/

/-- A filler item goes back to its ready items (R218). -/
def State.backToReady (s : State) (filler : Bool) (n : Nat) : State :=
  s.mapRun filler fun r => r.modNode n fun n => { n with state := .ready }

/-- The main items of a cluster end with CLUSTER_REPLACED, which fails the step; its filler items start again (R557, R218). -/
def State.clearCluster (s : State) (cluster : Nat) : State :=
  let s := s.fillerBack fun k => k / 12 == cluster
  (List.range 12).foldl (fun s k =>
    let i := 12 * cluster + k
    match (s.core i).item with
    | some (false, _) => s.endItem i .clusterReplaced
    | some (true, _) => s.releaseCore i
    | none => s) s

/-- The re-run of an item after a unit fault counts in the step (R552, R554). -/
def State.countRerun (s : State) (n : Nat) : State :=
  ((s.mapRun false fun r => { r.modNode n (fun n => { n with reruns := n.reruns + 1 }) with
    subst := r.subst + 1, notes := r.notes ||| 8 }).count Reg.lifReruns 1).addPace 6 1

/-- An item starts again from its start (R552 step 3): on its logical core where that still stands, else wherever the scheduler starts it. -/
def State.rerunItem (s : State) (i n : Nat) (h : ItemHdr) : State :=
  match s.step with
  | none => s
  | some r =>
    let s := s.countRerun n
    if (s.physCore i).isSome then s.startItem false i n r h else s.backToReady false n

/-- The item of core i, which is no longer on the core, after a unit fault of it. -/
def State.faultedItem (s : State) (i : Nat) (c : Core) : State :=
  match c.item, c.hdr with
  | some (false, n), some h =>
    match s.step with
    | none => s
    | some r =>
      if r.abort.isSome then (s.backToReady false n).finishAbort
      else if 3 ≤ ((r.nodes[n]?).map (·.reruns)).getD 0 then (s.nodeEnd false n .itemFaultLimit none).finishAbort
      else s.rerunItem i n h
  | some (true, n), _ => s.backToReady true n
  | _, _ => s

/-- A unit fault of logical core i charged: its unit is replaced; a cluster that moves loses its items (R552, R557). -/
def State.chargeCore (s : State) (i : Nat) : State :=
  match (s.coreFault i).2 with
  | .moved => ((s.clearCluster (i / 12)).coreFault i).1
  | _ => (s.coreFault i).1.isolateIfEmpty (i / 96)

/-- A unit fault of logical core i (R552): its unit is charged and replaced, and its item starts again. A cluster that moves takes its items
with it, and the step fails with CLUSTER_REPLACED (R557). -/
def State.itemFault (s : State) (i : Nat) : State :=
  let c := s.core i
  match (s.coreFault i).2 with
  | .moved => s.chargeCore i
  | _ => ((s.releaseCore i).chargeCore i).faultedItem i c

/-- Core i is charged for an upset, while its item ends with another status (R108, R551). -/
def State.chargeOnly (s : State) (i : Nat) (st : Status) : State := (s.endItem i st).chargeCore i

/-- A unit fault of a cluster (R551, R557): its items end and the step fails. -/
def State.clusterFaulted (s : State) (cluster : Nat) : State :=
  let s := s.clearCluster cluster
  (s.clusterFault cluster).1.endFailed

end Sys2Proof.Machine
end

