-- ==== Sys2Proof/Machine/Issue.lean ====
section
/-! DEFINITION. Sys2Proof/Machine/Issue.lean: the issue unit (spec/03 R69 to R92, R632): the window, the frame counts, the issue rule, how an
instruction ends; SYN and HOLD (spec/11 R348). -/

namespace Sys2Proof.Machine

open Sys2Proof

/-! Instruction words (R69, R70). -/

def opcodeOf (w : W128) : Nat := bitsOf w.toNat 127 120

def opMma : Nat := 0x01
def opGmm : Nat := 0x02
def opTld : Nat := 0x03
def opTcv : Nat := 0x04
def opVch : Nat := 0x10
def opTrd : Nat := 0x11
def opRwf : Nat := 0x12
def opRwb : Nat := 0x13
def opDmv : Nat := 0x20
def opSyn : Nat := 0x30
def opStl : Nat := 0x31

/-- The queue of an opcode (R69, R88, R144, R160); none: no instruction. -/
def engineOf (op : Nat) : Option Engine :=
  if op = opMma ∨ op = opGmm ∨ op = opTld ∨ op = opTcv ∨ op = opStl then some .matrix
  else if op = opVch ∨ op = opTrd then some .vector
  else if op = opRwf ∨ op = opRwb then some .row
  else if op = opDmv then some .dma
  else if op = opSyn then some .barrier
  else none

/-- Bytes of the local store (R70). -/
def lsBytes : Nat := 2 ^ 20

/-! Local-store ranges (byte, length). -/

abbrev Span := Nat × Nat

/-- The frames that ranges touch (R88). -/
def framesOf (rs : List Span) : List Nat :=
  (List.range 256).filter fun f => rs.any fun r => decide (0 < r.2 ∧ r.1 < 4096 * f + 4096 ∧ 4096 * f < r.1 + r.2)

def spanFits (r : Span) : Bool := decide (r.1 + r.2 ≤ lsBytes)

/-- What an instruction reads and writes of the local store, and what must be read to know that: descriptors, directories. -/
structure Spans where
  need : List Span
  reads : List Span
  writes : List Span

def Spans.none : Spans := ⟨[], [], []⟩

/-! The scoreboard (R88, R89). -/

/-- Instructions of a core that have issued and whose accesses are not complete. -/
def State.inFlightOf (s : State) (i : Nat) : List WinEntry :=
  let k := s.cluster (i / 12)
  (s.core i).draining.map (·.entry) ++ ((k.dma.filter fun d => d.core == i).map (·.entry))
    ++ (k.groups.filter fun g => g.owner == i).map (·.entry)

def meets (a b : List Nat) : Bool := a.any fun x => b.contains x

/-- The oldest instruction of a queue that has not issued. -/
def Core.head (c : Core) (e : Engine) : Option WinEntry := c.window.find? fun w => w.engine == e

/-- Older instructions than one: those in the window, and those in flight. -/
def State.older (s : State) (i : Nat) (e : WinEntry) : List WinEntry :=
  ((s.core i).window ++ s.inFlightOf i).filter fun w => decide (w.index < e.index)

/-- The conditions of R89 that every instruction shares: no older SYN waits, no older instruction writes what it reads, and none reads or writes
what it writes. A group of the core holds its matrix queue (R144). (DEDUCED, log 41) -/
def State.mayIssue (s : State) (i : Nat) (e : WinEntry) : Bool :=
  let old := s.older i e
  !(old.any fun w => w.engine == .barrier || meets w.writes e.reads || meets w.writes e.writes || meets w.reads e.writes)
    && !(e.engine == .matrix && (s.cluster (i / 12)).groups.any fun g => g.owner == i)

def bump (m : List (Nat × Nat)) (fs : List Nat) : List (Nat × Nat) := fs.foldl (fun m f => Sparse.set 0 m f (Sparse.get 0 m f + 1)) m
def drop1 (m : List (Nat × Nat)) (fs : List Nat) : List (Nat × Nat) := fs.foldl (fun m f => Sparse.set 0 m f (Sparse.get 0 m f - 1)) m

/-- An instruction's counts removed (R88). -/
def Core.uncount (c : Core) (e : WinEntry) : Core := { c with wcounts := drop1 c.wcounts e.writes, rcounts := drop1 c.rcounts e.reads }

/-- The frames of an entry that its output tiles `left` touch, and those on which it has made its last access: the inputs, which have been read, and the
other outputs (R88). -/
def WinEntry.leaving (e : WinEntry) (left : List (Nat × Span)) : WinEntry × WinEntry :=
  let fs := framesOf (left.map (·.2))
  ({ e with reads := [], writes := e.writes.filter fs.contains }, { e with writes := e.writes.filter fun f => !fs.contains f })

/-- An array instruction's outputs begin to be written: it keeps its counts on the frames of its output tiles alone (R88). -/
def Core.startDrain (c : Core) (e : WinEntry) (outs : List (Nat × Span)) : Core :=
  let (keep, gone) := e.leaving outs
  { c.uncount gone with draining := c.draining ++ [⟨keep, outs⟩] }

/-- A slot is written out: an instruction's count on a frame goes with the last of its output tiles that touches the frame (R88). -/
def Core.drainSlot (c : Core) (k : Nat) : Core :=
  c.draining.foldl (fun c d =>
    let outs := d.slots.filter fun x => x.1 != k
    let (keep, gone) := d.entry.leaving outs
    { c.uncount gone with draining := c.draining ++ (if outs.isEmpty then [] else [⟨keep, outs⟩]) }) { c with draining := [] }

/-- An instruction leaves the window when it issues. -/
def Core.leave (c : Core) (e : WinEntry) : Core := { c with window := c.window.filter fun w => w.index != e.index }

/-! Fetch (R88, R91). -/

def Core.prog (c : Core) : Nat := 16 * (c.hdr.map (·.lsProg)).getD 0

/-- The word of the core's next instruction. -/
def Core.nextWord (c : Core) : W128 := BitVec.ofNat 128 (leNat (c.read (c.prog + 16 * c.pc) 16))

/-- A core's item goes on: it runs, nothing has ended it, and its tile is not tripped (R532). -/
def State.coreRuns (s : State) (i : Nat) : Bool :=
  s.up && (s.core i).item.isSome && (s.core i).ended.isNone && (s.core i).heldSince.isNone && (s.tileTrip (i / 96)).isNone

/-- The item of a core ends with a status once what has issued is complete (R482). -/
def State.endsWith (s : State) (i : Nat) (st : Status) : State := s.setCore i { s.core i with ended := some st, window := [] }

/-- INSTRUCTION_FETCH: `spans` gives what a word touches, read from the local store; a word whose descriptors an older instruction still writes
waits, and so does one whose counts would pass 63 (R88). A word with no opcode of R69 is refused when nothing older is left (R633). (DEDUCED, log 41) -/
def State.fetch (s : State) (i : Nat) (spans : Core → W128 → Spans) : State :=
  let c := s.core i
  if !s.coreRuns i ∨ 16 ≤ c.window.length ∨ !(c.hdr.any fun h => decide (c.pc < h.plen)) then s
  else
    let w := c.nextWord
    match engineOf (opcodeOf w) with
    | none => if c.window.isEmpty ∧ (s.inFlightOf i).isEmpty then s.endsWith i .illegalOperand else s
    | some engine =>
      let sp := spans c w
      if (framesOf sp.need).any fun f => decide (0 < Sparse.get 0 c.wcounts f) then s
      else
        let writes := framesOf sp.writes
        let reads := framesOf (sp.reads ++ sp.need)
        if (writes.any fun f => decide (63 ≤ Sparse.get 0 c.wcounts f)) || reads.any fun f => decide (63 ≤ Sparse.get 0 c.rcounts f) then s
        else
          s.setCore i { c with
            pc := c.pc + 1, wcounts := bump c.wcounts writes, rcounts := bump c.rcounts reads
            window := c.window ++ [{ word := w, index := c.pc, engine, writes, reads, issued := false }] }

/-! How an instruction ends. -/

/-- The first failing row test of the checksum lane, and how many failed (R107). -/
structure LaneFail where
  array : Nat
  kstep : Nat
  row : Nat
  count : Nat

/-- What an instruction that ran leaves: the core, the ranges it wrote, the slots WRITING with their output tiles, the free values it drew, the GMM
entries it skipped. -/
structure Ran where
  core : Core
  wrote : List Span
  slots : List (Nat × Span)
  draws : Nat
  skips : Nat

/-- How an instruction ends: it ran; refused at issue; ended after issue by a tile's content, naming the array and the tile's address, with the
checksum failure found beside it (R108) and the free values drawn; an upset found by the checksum lane; a word of the local store marked uncorrectable. -/
inductive InstrEnd where
  | done (r : Ran)
  | refused (st : Status)
  | failed (c : Core) (st : Status) (array : Option Nat) (addr : Nat) (lane : Option LaneFail) (draws : Nat)
  | upset (f : LaneFail)
  | lostWord

/-- A GMM that ran has skipped `n` entries (R246, R255). -/
def InstrEnd.skipping (n : Nat) : InstrEnd → InstrEnd
  | .done r => .done { r with skips := n }
  | r => r

def arrayWord (i a : Nat) : W32 := coordWord (some (i / 96)) (some (i / 12 % 8)) (some (i % 12)) (some a) none false

def physArrayWord (p a : Nat) : W32 := coordWord (some (p / 135)) (some (p / 15 % 9)) (some (p % 15)) (some a) none true

/-- The step number of a core's item, low 32 bits. -/
def State.stepOfCore (s : State) (c : Core) : Nat :=
  match c.item with
  | some (f, _) => ((s.run f).map fun r => r.step % 2 ^ 32).getD 0
  | none => 0

/-- An event of a core's item; `array`: of one of its arrays. -/
def State.coreEvent (s : State) (i : Nat) (st : Status) (array : Option Nat) (args : List Nat) : State :=
  let c := s.core i
  let phys := match s.physCore i, array with
    | some p, some a => physArrayWord p a
    | some p, none => physCoreWord p
    | none, _ => noUnit
  s.event { hubEvent st s.counter args with
    source := coreWord i, logical := (match array with
      | some a => arrayWord i a
      | none => coreWord i), physical := phys, part := c.part, step := s.stepOfCore c }

def State.laneEvent (s : State) (i : Nat) (f : LaneFail) : State := s.coreEvent i .arrayChecksum (some f.array) [f.kstep, f.row, f.count]

/-- The end of instruction e of core i. -/
def State.finishInstr (s : State) (i : Nat) (e : WinEntry) (r : InstrEnd) : State :=
  match r with
  | .done r =>
    let c := r.core.leave e
    let c := if r.slots.isEmpty then c.uncount e else c.startDrain e r.slots
    let s := if r.skips = 0 then s else s.count Reg.xprEmptyEntries r.skips
    ((s.setCore i c).lsWrote i r.wrote).drew r.draws
  | .refused st => s.endsWith i st
  | .failed c st array addr lane draws =>
    let s := (s.setCore i c).drew draws
    let s := match lane with
      | some f => s.laneEvent i f
      | none => s
    let s := if st == .headerCheck then s.coreEvent i st array [addr] else s
    if lane.isSome then s.chargeOnly i st else s.endsWith i st
  | .upset f => (s.laneEvent i f).itemFault i
  | .lostWord => s.itemFault i

/-- What the silicon reports during an instruction (R278, R551). -/
def State.reports (s : State) (h : Health) : State :=
  h.marked.foldl State.uncorrectable (h.corrected.foldl State.corrected s)

/-- The oldest instruction of a queue issues, when it is one that `mine` names and R89 holds; `also`: the conditions of its kind. (DESIGN CHOICE, log 7) -/
def State.issue (s : State) (i : Nat) (eng : Engine) (h : Health) (mine : W128 → Bool) (also : Core → W128 → Bool)
    (run : State → Core → WinEntry → InstrEnd) : State :=
  let c := s.core i
  if !s.coreRuns i then s
  else
    match c.head eng with
    | none => s
    | some e =>
      if !mine e.word ∨ !s.mayIssue i e ∨ !also c e.word then s
      else if h.parity then (s.reports h).itemFault i
      else
        let s := s.reports h
        s.finishInstr i e (run s c e)

def isOp (op : Nat) (w : W128) : Bool := opcodeOf w == op

/-! Tiles of the local store (R79, R108, R632). -/

/-- A tile's place: byte address, and its directory entry in directory mode. -/
structure TileAt where
  addr : Nat
  dir : Option DirEntry

/-- Tiles k of an operand: strided, or through a directory of the local store (R79, R85). -/
def Core.tilesAt (c : Core) (dirMode : Bool) (src stride k : Nat) : TileAt :=
  if dirMode then
    let e := parseDir (leNat (c.read (16 * stride + 8 * k) 8))
    ⟨16 * (src + e.offset), some e⟩
  else ⟨16 * (src + k * stride), none⟩

/-- The extent of a tile that R632 counts. -/
def TileAt.span (t : TileAt) (f : Fmt) : Span := (t.addr, f.denseBytes)

/-- A word of the range is marked uncorrectable (R278). -/
def State.lsBad (s : State) (i a n : Nat) : Bool := marked s.keep.marks (lsKey i a) n

/-- A tile as a feeder or an engine input takes it; `axis`: where its MX scales must lie (R40). -/
def State.lsTile (s : State) (i : Nat) (c : Core) (want : Fmt) (axis : Option Bool) (t : TileAt) : Except Status Tile32 :=
  let bs := c.read t.addr want.denseBytes
  let h := parseHdr bs
  if s.lsBad i t.addr (max 16 (min want.denseBytes (tileLen want h.form h.nz))) then .error .memUncorrectable
  else
    match readTile s.part (some want) t.dir bs with
    | .ok x => if want.isMx && axis.any (· != x.axis) then .error .illegalFormat else .ok x
    | .error e => .error (if e == .headerCheck && want.isMx && axis.any (· != h.axis) then .illegalFormat else tileStatus e)

/-- The failure that counts among several: a lost word, then ILLEGAL_FORMAT, then the first (R68). The order in which an instruction's tiles are read,
which decides whose address an event carries, is the model's. (DESIGN CHOICE, log 57) -/
def pickFail (es : List (Status × Nat)) : Option (Status × Nat) :=
  match es.find? fun e => e.1 == .memUncorrectable with
  | some e => some e
  | none =>
    match es.find? fun e => e.1 == .illegalFormat with
    | some e => some e
    | none => es.head?

/-- Several tiles, or the failure that counts with its address. -/
def State.lsTiles (s : State) (i : Nat) (c : Core) (want : Fmt) (axis : Option Bool) (ts : List TileAt) :
    Except (Status × Nat) (List Tile32) :=
  let rs := ts.map fun t => (t.addr, s.lsTile i c want axis t)
  let bad := rs.filterMap fun r =>
    match r.2 with
    | .error st => some (st, r.1)
    | .ok _ => none
  match pickFail bad with
  | some e => .error e
  | none => .ok (rs.filterMap fun r => r.2.toOption)

/-! SYN and HOLD. -/

/-- What a SYN waits for has come (R88, R267, R348, R539). (DEDUCED, log 41) -/
def State.synDone (s : State) (i : Nat) (e : WinEntry) (w : SynWait) : Bool :=
  let old := s.older i e
  match w with
  | .queues dma matrix vector row =>
    !(old.any fun x => (dma && x.engine == .dma) || (matrix && x.engine == .matrix) || (vector && x.engine == .vector)
      || (row && x.engine == .row))
  | .cores idx => idx.all fun k =>
      k == i || match (s.core k).window.head? with
        | some x => x.engine == .barrier
        | none => (s.core k).item.isNone
  | .bucket tag => (s.openRunOf tag).isNone
  | .gather tag => !(s.bnt.gathers.any fun g => g.tag == tag)
  | .exchange tag => !(s.bnt.exchanges.any fun g => g.tag == tag)
  | .sealed p step => decide (step ≤ (s.partition p).lastSealed)

/-- SYN: released once what it waits for has come, with the start comb; a core that was held resumes (R348, R539). -/
def execSyn (c : CoreId) (w : SynWait) (s : State) : Host.Outcome State Fault Refusal :=
  let i := c.idx
  let k := s.core i
  match k.head .barrier with
  | none => .next s
  | some e =>
    if !s.up ∨ k.ended.isSome ∨ (k.window.head?.map (·.index)) ≠ some e.index ∨ !s.synDone i e w then .next s
    else
      .next ((s.countHold i).setCore i { (k.leave e).uncount e with heldSince := none })

/-- A wait that the hold is for (R348): a bucket, a gather, an exchange or a seal. -/
def waitHolds : SynWait → Bool
  | .bucket _ | .gather _ | .exchange _ | .sealed .. => true
  | .queues .. | .cores _ => false

/-- HOLD (R348): a SYN at the head of the window has waited 1 µs for what has not come, and the core's clock stops. -/
def execHold (c : CoreId) (held : HeldSyn) (s : State) : Host.Outcome State Fault Refusal :=
  let i := c.idx
  let k := s.core i
  match k.window.head? with
  | some e =>
    if !s.coreRuns i ∨ e.engine ≠ .barrier ∨ !waitHolds held.wait ∨ s.synDone i e held.wait then .next s
    else .next ((s.at held.t).setCore i { k with heldSince := some (max s.counter held.t) })
  | none => .next s

/-! Slots. -/

def Core.slot (c : Core) (k : Nat) : Slot := Sparse.get Slot.reset c.slots k
def Core.setSlot (c : Core) (k : Nat) (x : Slot) : Core := { c with slots := Sparse.set Slot.reset c.slots k x }

/-- A slot is written out: it is EMPTY, and the counts that its tile held go. -/
def Core.slotWritten (c : Core) (k : Nat) : Core := (c.setSlot k Slot.reset).drainSlot k

/-- SLOT_WRITE_COMPLETE (R77): the last byte of a slot's output tile is in the local store. (DESIGN CHOICE, log 7) -/
def execSlotWriteComplete (c : CoreId) (array : ArrayIx) (slot : Fin 8) (s : State) : Host.Outcome State Fault Refusal :=
  let i := c.idx
  let k := 8 * array.val + slot.val
  if !s.up ∨ ((s.core i).slot k).state ≠ .writing then .next s else .next (s.setCore i ((s.core i).slotWritten k))

end Sys2Proof.Machine
end

