-- ==== Sys2Proof/Machine/Accum.lean ====
section
/-! DEFINITION. Sys2Proof/Machine/Accum.lean: what an array does with tiles (spec/03 R71 to R77, R87, R106, R107; spec/02 R41 to R43) and what the
drain does with column partials (spec/04 R110 to R129). -/

namespace Sys2Proof.Machine

open Sys2Proof

/-! Pairing (R71). -/

/-- The row of R71's table that a format belongs to. -/
def pairRow : Fmt → Option Nat
  | .bfloat16 | .binary16 => some 0
  | .fp8E4M3 | .fp8E5M2 => some 1
  | .mxfp8E4M3 | .mxfp8E5M2 | .mxfp6E3M2 | .mxfp6E2M3 | .mxint8 => some 2
  | .mxfp4E2M1 => some 3
  | .binary32 => some 4
  | _ => none

/-- The packing factor P. -/
def packing (f : Fmt) : Nat :=
  match pairRow f with
  | some 1 | some 2 => 2
  | some 3 => 4
  | _ => 1

def passes (f : Fmt) : Nat := if f = .binary32 then 4 else 1

/-- A format code that the part has (R35, R36). -/
def fmtOn (p : Part) (code : Nat) : Option Fmt := (Fmt.ofCode code).filter fun f => f.present p

def paired (a w : Fmt) : Bool := (pairRow a).isSome && pairRow a == pairRow w

/-! Values in the cells. -/

/-- Stationary values w_kn at 32k + n (R72). -/
def statCodes (ts : List Tile32) : Array (Fmt × Byte × Nat) :=
  (ts.flatMap fun t => (List.range 1024).map fun i => (t.fmt, t.scaleAt (i / 32) (i % 32), t.codes.getD i 0)).toArray

/-- Streamed values of row m at 32Pm + k, P tiles side by side (R85). -/
def streamCodes (ts : List Tile32) : Array (Fmt × Byte × Nat) :=
  ((List.range 32).flatMap fun m => ts.flatMap fun t =>
    (List.range 32).map fun k => (t.fmt, t.scaleAt m k, t.codes.getD (32 * m + k) 0)).toArray

def cellVal (e : Fmt × Byte × Nat) : FVal := scaledElem e.1 e.2.1 e.2.2

/-- The operands of each pass, streamed first: one pass, or lo·lo, lo·hi, hi·lo, hi·hi (R43). -/
def passOperands (f : Fmt) (x w : Array (Fmt × Byte × Nat)) : List (Array FVal × Array FVal) :=
  let each (g : Fmt × Byte × Nat → FVal) (a : Array (Fmt × Byte × Nat)) : Array FVal := (a.toList.map g).toArray
  if f = .binary32 then
    let lo := each fun e => (split32 e.2.2).2
    let hi := each fun e => (split32 e.2.2).1
    [(lo x, lo w), (lo x, hi w), (hi x, lo w), (hi x, hi w)]
  else [(each cellVal x, each cellVal w)]

/-- A product enters the cell's binary32 accumulator (R41), and the column adds it (R44, R73). (DEDUCED, log 42) -/
def cellAdd (acc x w : FVal) : FVal := FloatFmt.b32.add acc (FloatFmt.b32.round (FVal.mul x w))

/-- The column partial of row m and column n over `kk` values of k (R73). -/
def colPartial (kk : Nat) (x w : Array FVal) (m n : Nat) : FVal :=
  (List.range kk).foldl (fun a k => cellAdd a (x.getD (kk * m + k) FVal.posZero) (w.getD (32 * k + n) FVal.posZero)) FVal.posZero

/-! The checksum lane (R81, R106). -/

def b32Sum (l : List FVal) : FVal := l.foldl FloatFmt.b32.add FVal.posZero

/-- c_k and g_k of every k (R81). (DEDUCED, log 42) -/
def checkColumn (kk : Nat) (w : Array FVal) : Array (FVal × FVal) :=
  ((List.range kk).map fun k =>
    let row := (List.range 32).map fun n => w.getD (32 * k + n) FVal.posZero
    (b32Sum row, b32Sum (row.map FVal.abs))).toArray

/-- |p − s| ≤ 2^−12·g + 2^−140, or one of the three is not finite (R106). R106 names binary32 for s and g; that p, the sum of the 32 column partials, is
formed in binary32 too is the model's choice. (DEDUCED, log 42) -/
def laneOk (kk : Nat) (x : Array FVal) (cs : Array (FVal × FVal)) (m : Nat) (ps : List FVal) : Bool :=
  let term (f : FVal → FVal) (g : FVal × FVal → FVal) (a : FVal) (k : Nat) : FVal :=
    cellAdd a (f (x.getD (kk * m + k) FVal.posZero)) (g (cs.getD k (FVal.posZero, FVal.posZero)))
  let sum (f : FVal → FVal) (g : FVal × FVal → FVal) : FVal := (List.range kk).foldl (term f g) FVal.posZero
  let s := sum id (·.1)
  let g := sum FVal.abs (·.2)
  let p := b32Sum ps
  p.isNonfinite || s.isNonfinite || g.isNonfinite
    || FVal.le (FVal.sub p s).abs (FVal.add (g.scale (-12)) (.fin false 1 (-140)))

/-- One pass: the column partials of the rows streamed, as the drain receives them, and the rows whose test failed. -/
def runPass (kk rows : Nat) (x w : Array FVal) (ups : List Upset) : Array Nat × List Nat :=
  let cs := checkColumn kk w
  let rowsOut := (List.range rows).map fun m =>
    (List.range 32).map fun n =>
      match ups.find? fun u => u.row == m && u.col == n with
      | some u => u.bits.toNat
      | none => FloatFmt.b32.encode (colPartial kk x w m n)
  let bad := (List.range rows).filter fun m => !laneOk kk x cs m ((rowsOut.getD m []).map FloatFmt.b32.decode)
  (rowsOut.flatten.toArray, bad)

/-! Slots (R110 to R113, R124). -/

/-- A chain's start (R86, R112). -/
def Slot.start : Slot := ⟨.accum, Array.replicate 1024 0, Array.replicate 1024 0, 0, 0, 0⟩

/-- Every accumulator added into its wide buffer, then +0 (R112). -/
def Slot.spill (x : Slot) : Slot :=
  { x with
    wide := (Array.range 1024).map fun i =>
      FloatFmt.b64.encode (FVal.add (FloatFmt.b64.decode (x.wide.getD i 0)) (FloatFmt.b32.decode (x.acc.getD i 0)))
    acc := Array.replicate 1024 0, sinceSpill := 0 }

/-- A drain addition of one pass over 32P values of k, and the spill when the count reaches a multiple of S_e (R73, R110 to R112). A pass that
streams no row only counts. -/
def Slot.drain (x : Slot) (spillAt p : Nat) (part : Array Nat) : Slot :=
  let se := max spillAt (32 * p)
  let x := { x with
    acc := (Array.range 1024).map fun i =>
      if i < part.size then
        FloatFmt.b32.encode (FVal.add (FloatFmt.b32.decode (x.acc.getD i 0)) (FloatFmt.b32.decode (part.getD i 0)))
      else x.acc.getD i 0
    products := x.products + 32 * p, sinceSpill := x.sinceSpill + 32 * p }
  if x.products % se = 0 then x.spill else x

/-- The raw sums of a slot (R113): all of it in the wide buffer. -/
def Slot.sums (x : Slot) : Array Nat := (if 0 < x.sinceSpill then x.spill else x).wide

/-- A slot whose count has reached 2^24 closes its partial before the next products (R124). A chain that goes on in a format of another packing factor
can step over 2^24; it closes at the first drain that finds the count there or beyond, a case on which the manual is silent. (DESIGN CHOICE, log 58) -/
def partialFull (count : Nat) : Bool := decide (2 ^ 24 ≤ count)

/-- Partials that an instruction of `n` drains of `q` products each closes in a slot that has counted `count` (R124, R128): no instruction is long enough
to close two. -/
def partialsOf (count q n : Nat) : Nat := if 0 < n ∧ partialFull (count + q * (n - 1)) then 1 else 0

/-! Output tiles (R87, R113, R122). -/

/-- The element codes of an output tile; rows and columns outside the tensor are +0. -/
def rawTile (b64 : Bool) (rows cols : Nat) (sums : Array Nat) : Array Nat :=
  (Array.range 1024).map fun i =>
    if rows ≤ i / 32 ∨ cols ≤ i % 32 then 0
    else if b64 then sums.getD i 0 else FloatFmt.b32.encode (FloatFmt.b64.decode (sums.getD i 0))

def rawFmt (b64 : Bool) : Fmt := if b64 then .binary64 else .binary32

/-- Elements of a raw tile that are NaN or ±Inf. -/
def rawNf (b64 : Bool) (codes : Array Nat) : Nat :=
  let f := if b64 then FloatFmt.b64 else FloatFmt.b32
  (codes.toList.filter fun c => (f.decode c).isNonfinite).length

/-! The accumulation control word (R114). -/

def spillInterval (ctl dflt : Nat) : Nat :=
  match bitsOf ctl 63 61 with
  | 0 => dflt
  | 1 => 64
  | 2 => 128
  | 3 => 256
  | 4 => 512
  | _ => 1024

def Core.ctl (c : Core) : Nat := (c.hdr.map fun h => h.acctl.toNat).getD 0

/-- The core with the ranges written so far, and the instruction's non-finite count. -/
structure Lane where
  core : Core
  wrote : List Span
  nf : Nat

def Lane.of (c : Core) : Lane := ⟨c, [], 0⟩

def Lane.put (l : Lane) (a : Nat) (bs : List Byte) : Lane :=
  { l with core := l.core.write a bs, wrote := l.wrote ++ [(a, bs.length)] }

/-- A raw tile written and its non-finite elements counted. -/
def Lane.putTile (l : Lane) (b64 : Bool) (a : Nat) (codes : Array Nat) : Lane :=
  { l.put a (encodeDense (tileOfCodes (rawFmt b64) codes)) with nf := l.nf + rawNf b64 codes }

/-- The non-finite log's entries, in program order (R123). -/
def Core.nfEntries (c : Core) : List Nat := (List.range c.nfLog).map fun k => leNat (c.read (16 * bitsOf c.ctl 15 0 + 8 * k) 8)

/-- The non-finite count of an instruction and its log entry (R122, R123). Engines run in parallel, so the entry takes its place among those that are there
by its index; of more than NF_MAX the first ones in program order stay. -/
def Lane.note (l : Lane) (index : Nat) : Lane :=
  let c := l.core
  let most := bitsOf c.ctl 31 24
  if l.nf = 0 then l
  else
    let l := { l with core := { c with nfCount := c.nfCount + l.nf } }
    let mine := putBits 63 48 index + putBits 31 0 (min l.nf (2 ^ 32 - 1))
    let all := insertBy (fun a b => decide (a / 2 ^ 48 < b / 2 ^ 48)) mine c.nfEntries
    if most = 0 then l
    else
      let l := l.put (16 * bitsOf c.ctl 15 0) ((all.take most).flatMap (leBytes 8))
      { l with core := { l.core with nfLog := min most all.length, nfDropped := c.nfDropped || decide (most < all.length) } }

/-- A partial closes into the next entry of the split area (R124 to R126). -/
def Lane.closePartial (l : Lane) (index array slot rows cols : Nat) (x : Slot) : Lane × Slot :=
  let b64 := !bitOf l.core.ctl 60
  let a := (splitArea l.core.ctl).1 + l.core.splitUsed * (16 + rawLen b64)
  let codes := rawTile b64 rows cols x.sums
  let record := putBits 127 112 index + putBits 111 96 x.splits + putBits 95 94 array + putBits 93 91 slot
    + putBits 63 32 (rawNf b64 codes)
  let l := (l.put a (leBytes 16 record)).putTile b64 (a + 16) codes
  ({ l with core := { l.core with splitUsed := l.core.splitUsed + 1 } },
    { Slot.start with splits := x.splits + 1 })

/-! Chains: what an array instruction does to one slot. -/

/-- A k-step: its stationary and streamed tiles; not live: it streams nothing and counts (R246); whether all its tiles could be read. -/
structure KStep where
  stat : List Tile32
  str : List Tile32
  live : Bool
  readable : Bool

/-- The k-steps that an instruction adds to one slot: `k0`, the number of the first; `pad`, rows and columns inside the tensor; `dst`, where the
chain's output goes when it ends here (binary64 or not, address); `row0`, rows that the array streamed in the k-step before these. -/
structure Chain where
  array : Nat
  slot : Nat
  row0 : Nat
  fresh : Bool
  rows : Nat
  pad : Nat × Nat
  fmt : Fmt
  k0 : Nat
  steps : List KStep
  dst : Option (Bool × Nat)

/-- Drain additions of a chain: one for each pass of each k-step (R110). -/
def Chain.drains (c : Chain) : Nat := c.steps.length * passes c.fmt

/-- The upsets of one of a chain's k-steps. -/
def Chain.upsetsAt (c : Chain) (at_ : Nat) (ups : List Upset) : List Upset :=
  ups.filter fun u => u.array == c.array && u.kstep == at_ && decide (c.row0 ≤ u.row)

/-- The passes of one k-step (R73, R74, R106): for each the partials and the rows that failed. -/
def Chain.passesOf (c : Chain) (k : KStep) (at_ : Nat) (ups : List Upset) : List (Array Nat × List Nat) :=
  if !k.live then List.replicate (passes c.fmt) (#[], [])
  else
    (passOperands c.fmt (streamCodes k.str) (statCodes k.stat)).zipIdx.map fun (xw, n) =>
      runPass (32 * packing c.fmt) c.rows xw.1 xw.2 (((c.upsetsAt at_ ups).filter fun u => u.pass == n).map fun u => { u with row := u.row - c.row0 })

/-- A chain run: the lane, the slot, and its failing tests (array, k-step, row). -/
def Chain.run (c : Chain) (index spillAt : Nat) (ups : List Upset) (l : Lane) (x : Slot) : Lane × Slot × List (Nat × Nat × Nat) :=
  c.steps.zipIdx.foldl (fun acc (k, n) =>
    (c.passesOf k (c.k0 + n) ups).foldl (fun (acc : Lane × Slot × List (Nat × Nat × Nat)) (part, bad) =>
      let (l, x, fs) := acc
      let (l, x) := if partialFull x.products then l.closePartial index c.array c.slot c.pad.1 c.pad.2 x else (l, x)
      (l, x.drain spillAt (packing c.fmt) part, fs ++ bad.map fun m => (c.array, c.k0 + n, c.row0 + m))) acc)
    (l, x, [])

/-- A chain with the slot it works on in the core, and its output tile. An EMPTY slot that R247 accepts under ACC = 1 starts from +0. (DEDUCED, log 42) -/
def Chain.apply (c : Chain) (index spillAt : Nat) (ups : List Upset) (acc : Lane × List (Nat × Nat × Nat)) :
    Lane × List (Nat × Nat × Nat) :=
  let k := 8 * c.array + c.slot
  let x := if c.fresh || (acc.1.core.slot k).state == .empty then Slot.start else acc.1.core.slot k
  let (l, x, fs) := c.run index spillAt ups acc.1 x
  match c.dst with
  | some (b64, a) =>
    let l := l.putTile b64 a (rawTile b64 c.pad.1 c.pad.2 x.sums)
    ({ l with core := l.core.setSlot k { Slot.reset with state := .writing } }, acc.2 ++ fs)
  | none => ({ l with core := l.core.setSlot k x }, acc.2 ++ fs)

/-- The first failing test in ascending array, k-step and row, with the number of failures (R107). -/
def firstFail (fs : List (Nat × Nat × Nat)) : Option LaneFail :=
  (sortBy (fun a b => lexLt [a.1, a.2.1, a.2.2] [b.1, b.2.1, b.2.2]) fs).head?.map fun f => ⟨f.1, f.2.1, f.2.2, fs.length⟩

/-- The slots that chains use, EMPTY (R107, R108). -/
def emptySlots (c : Core) (cs : List Chain) : Core := cs.foldl (fun c x => c.setSlot (8 * x.array + x.slot) Slot.reset) c

/-- The output tile of a chain: its slot, and where the tile lies. -/
def Chain.out (c : Chain) : Option (Nat × Span) := c.dst.map fun d => (8 * c.array + c.slot, (d.2, rawLen d.1))

/-- Chains run in ascending array and slot (R125): the end of their instruction. -/
def runChains (c : Core) (index spillAt : Nat) (ups : List Upset) (cs : List Chain) : InstrEnd :=
  let cs := sortBy (fun a b => lexLt [a.array, a.slot] [b.array, b.slot]) cs
  let (l, fs) := cs.foldl (fun acc x => x.apply index spillAt ups acc) (Lane.of c, [])
  match firstFail fs with
  | some f => .upset f
  | none =>
    let l := l.note index
    .done ⟨l.core, l.wrote, cs.filterMap Chain.out, 0, 0⟩

/-! Instructions some of whose tiles could not be read (R108). -/

/-- A tile that could not be read: status, address, the array that streamed it. -/
abbrev TileErr := Status × Nat × Option Nat

/-- The failure that counts among several: a lost word, then ILLEGAL_FORMAT, then the first in the order of reading (R68). (DESIGN CHOICE, log 57) -/
def pickErr (es : List TileErr) : Option TileErr :=
  ((es.find? fun e => e.1 == .memUncorrectable).or (es.find? fun e => e.1 == .illegalFormat)).or es.head?

/-- The row tests of the k-steps whose tiles were all read that fail. -/
def Chain.failing (c : Chain) (ups : List Upset) : List (Nat × Nat × Nat) :=
  c.steps.zipIdx.flatMap fun (k, n) =>
    if k.readable then (c.passesOf k (c.k0 + n) ups).flatMap fun p => p.2.map fun m => (c.array, c.k0 + n, c.row0 + m) else []

/-- The rows with an upset in a k-step one of whose tiles could not be read: what the lane finds there the manual does not say. -/
def Chain.openRows (c : Chain) (ups : List Upset) : List (Nat × Nat × Nat) :=
  c.steps.zipIdx.flatMap fun (k, n) =>
    if k.readable || !k.live then []
    else (((c.upsetsAt (c.k0 + n) ups).filter fun u => decide (u.row < c.row0 + c.rows)).map fun u => (c.array, c.k0 + n, u.row)).eraseDups

/-- What the checksum lane finds beside tiles that could not be read, and the free values drawn: a test of a k-step that was read counts as it falls
out, one of another k-step fails or not as a free value says (R108). (DESIGN CHOICE, log 57) -/
def laneOf (free : Nat → W64) (ups : List Upset) (cs : List Chain) : Option LaneFail × Nat :=
  if ups.isEmpty then (none, 0)
  else
    let rows := cs.flatMap fun c => c.openRows ups
    let caught := (rows.zipIdx.filter fun r => (free r.2).getLsbD 0).map (·.1)
    (firstFail ((cs.flatMap fun c => c.failing ups) ++ caught), rows.length)

/-- An array instruction after issue: it runs on tiles that were all read, and ends with the failure that counts otherwise, no slot it used left other than
EMPTY (R107, R108, R278). -/
def runRead (free : Nat → W64) (c : Core) (index spillAt : Nat) (ups : List Upset) (cs : List Chain) (es : List TileErr) : InstrEnd :=
  match pickErr es with
  | none => runChains c index spillAt ups cs
  | some (st, addr, array) =>
    if st = .memUncorrectable then .lostWord
    else
      let (lane, n) := laneOf free ups cs
      .failed (emptySlots c cs) st array addr lane n

end Sys2Proof.Machine
end

