-- ==== Sys2Proof/Machine/Array.lean ====
section
/-! DEFINITION. Sys2Proof/Machine/Array.lean: TLD, MMA and GMM (spec/03 R78 to R90, R108, R633; spec/08 R244 to R248; spec/07 R216, R217). -/

namespace Sys2Proof.Machine

open Sys2Proof

/-- The core runs an item of the filler partition. -/
def Core.isFiller (c : Core) : Bool :=
  match c.item with
  | some (f, _) => f
  | none => false

/-- Ranges of the local store lie where the partition may address it (R216, R217), inside the local store (R632). -/
def State.spansOk (s : State) (c : Core) (rs : List Span) : Bool :=
  rs.all fun r => spanFits r && s.lsWindowOk c.part c.isFiller r.1 r.2

/-- The spill interval of a core's item (R114). -/
def State.spillOf (s : State) (c : Core) : Nat := spillInterval c.ctl (s.reg Reg.cfgSpillDefault)

/-- Split entries that an instruction may still write (R128). -/
def splitFull (c : Core) (n : Nat) : Bool := decide (bitsOf c.ctl 55 48 < c.splitUsed + n)

/-- Arrays enabled by AMASK, ascending (R84). -/
def arraysOf (mask : Nat) : List Nat := bitsSet mask 4

/-- An instruction that uses no slot and could not read a tile: a lost word of the local store, or the tile's own status (R108, R278). -/
def tileFail (c : Core) (e : Status × Nat) : InstrEnd :=
  if e.1 = .memUncorrectable then .lostWord else .failed c e.1 none e.2 none 0

/-- Tiles as far as they could be read, and the failures, in order. -/
def State.tryTiles (s : State) (i : Nat) (c : Core) (want : Fmt) (axis : Option Bool) (array : Option Nat) (ts : List TileAt) :
    List Tile32 × List TileErr :=
  let rs := ts.map fun t => (t.addr, s.lsTile i c want axis t)
  (rs.map fun r => (r.2.toOption).getD (zeroTile want),
    rs.filterMap fun r =>
      match r.2 with
      | .error st => some (st, r.1, array)
      | .ok _ => none)

/-- The core with no stationary set in the shadow and none active. -/
def Core.noSets (c : Core) : Core := { c with shadow := .empty, shadowSet := none, active := none }

/-! TLD. -/

structure TldWord where
  fmt : Nat
  transpose : Bool
  dirMode : Bool
  src : Nat
  stride : Nat

def tldOf (w : W128) : TldWord :=
  let w := w.toNat
  ⟨bitsOf w 119 115, bitOf w 114, bitOf w 113, bitsOf w 79 64, bitsOf w 63 48⟩

/-- The directory entries that an operand of k tiles reads (R79). -/
def dirSpan (dirMode : Bool) (stride k : Nat) : List Span := if dirMode then [(16 * stride, 8 * k)] else []

def TldWord.tiles (t : TldWord) (c : Core) (f : Fmt) : List TileAt :=
  (List.range (packing f)).map (c.tilesAt t.dirMode t.src t.stride)

def tldSpans (c : Core) (w : W128) : Spans :=
  let t := tldOf w
  match Fmt.ofCode t.fmt with
  | some f => ⟨dirSpan t.dirMode t.stride (packing f), (t.tiles c f).map (·.span f), []⟩
  | none => Spans.none

/-- TLD at issue and to its end (R79 to R82, R633). (DESIGN CHOICE, log 7) -/
def State.runTld (s : State) (i : Nat) (c : Core) (e : WinEntry) : InstrEnd :=
  let t := tldOf e.word
  match (fmtOn s.part t.fmt).filter fun f => (pairRow f).isSome with
  | none => .refused .illegalFormat
  | some f =>
    let ts := t.tiles c f
    if !s.spansOk c (dirSpan t.dirMode t.stride (packing f) ++ ts.map (·.span f)) then .refused .illegalOperand
    else
      match s.lsTiles i c f (some (!t.transpose)) ts with
      | .error e => tileFail c.noSets e
      | .ok xs =>
        let xs := if t.transpose then xs.map Tile32.transpose else xs
        .done ⟨{ c with shadow := .full, shadowSet := some ⟨f, xs⟩ }, [], [], 0, 0⟩

/-- TLD (R79). -/
def execTld (c : CoreId) (h : Health) (s : State) : Host.Outcome State Fault Refusal :=
  .next (s.issue c.idx .matrix h (isOp opTld) (fun c _ => c.shadow == .empty) fun s k e => s.runTld c.idx k e)

/-! MMA. -/

structure MmaWord where
  mask : Nat
  fmtA : Nat
  fmtW : Nat
  out : Nat
  acc : Bool
  swap : Bool
  slot : Nat
  nt : Nat
  rows : Nat
  dirMode : Bool
  cols : Nat
  src : Nat
  stride : Nat
  dst : Nat

def orAll (n : Nat) : Nat := if n = 0 then 32 else n

def mmaOf (w : W128) : MmaWord :=
  let w := w.toNat
  { mask := bitsOf w 119 116, fmtA := bitsOf w 115 111, fmtW := bitsOf w 110 106, out := bitsOf w 105 104, acc := bitOf w 103
    swap := bitOf w 102, slot := bitsOf w 101 99, nt := bitsOf w 98 95 + 1, rows := orAll (bitsOf w 94 90), dirMode := bitOf w 89
    cols := orAll (bitsOf w 88 84), src := bitsOf w 79 64, stride := bitsOf w 63 48, dst := bitsOf w 47 32 }

/-- Array and slot of streamed tile j (R84). -/
def MmaWord.place (m : MmaWord) (j : Nat) : Nat × Nat :=
  let as := arraysOf m.mask
  (as.getD (j % as.length) 0, m.slot + j / as.length)

def MmaWord.uses (m : MmaWord) : List (Nat × Nat) := (List.range m.nt).map m.place

/-- The stored tiles of the streamed groups, P each (R85). -/
def MmaWord.tiles (m : MmaWord) (c : Core) (p : Nat) : List TileAt := (List.range (p * m.nt)).map (c.tilesAt m.dirMode m.src m.stride)

/-- Output tile j (R87). -/
def MmaWord.outAt (m : MmaWord) (j : Nat) : Nat := 16 * m.dst + j * rawLen (m.out == 2)

def MmaWord.outs (m : MmaWord) : List Span :=
  if m.out = 0 then [] else (List.range m.nt).map fun j => (m.outAt j, rawLen (m.out == 2))

def mmaSpans (c : Core) (w : W128) : Spans :=
  let m := mmaOf w
  match Fmt.ofCode m.fmtA, Fmt.ofCode m.fmtW with
  | some fa, some fw => ⟨dirSpan m.dirMode m.stride (packing fw * m.nt), (m.tiles c (packing fw)).map (·.span fa), m.outs⟩
  | _, _ => Spans.none

/-- The stationary set that an MMA uses. -/
def MmaWord.set (m : MmaWord) (c : Core) : Option StatSet :=
  if m.swap then (if c.shadow = .full then c.shadowSet else none) else c.active

/-- The refusals of MMA at issue, in the order of R633; its formats and its stationary set otherwise. -/
def State.mmaBar (s : State) (c : Core) (m : MmaWord) : Except Status (Fmt × StatSet) :=
  match fmtOn s.part m.fmtA, fmtOn s.part m.fmtW with
  | some fa, some fw =>
    let n := (arraysOf m.mask).length
    if !paired fa fw then .error .illegalFormat
    else if m.out = 3 ∨ m.mask = 0 ∨ (if c.isFiller then 2 else 8) < m.slot + ceilDiv m.nt n
        ∨ !s.spansOk c (dirSpan m.dirMode m.stride (packing fw * m.nt) ++ (m.tiles c (packing fw)).map (·.span fa) ++ m.outs) then
      .error .illegalOperand
    else
      match m.set c with
      | none => .error .illegalOperand
      | some st =>
        if st.fmt ≠ fw then .error .illegalFormat
        else if m.acc && m.uses.any fun u => (c.slot (8 * u.1 + u.2)).state != .accum then .error .illegalOperand
        else
          let n := (m.uses.map fun u =>
            partialsOf (if m.acc then (c.slot (8 * u.1 + u.2)).products else 0) (32 * packing fw) (passes fw)).sum
          if splitFull c n then .error .splitAreaFull else .ok (fa, st)
  | _, _ => .error .illegalFormat

/-- The chain of streamed tile j, from its group of P stored tiles, all of them readable or not. -/
def MmaWord.chain (m : MmaWord) (st : StatSet) (str : List Tile32) (readable : Bool) (j : Nat) : Chain :=
  let rows := if j + 1 = m.nt then m.rows else 32
  { array := (m.place j).1, slot := (m.place j).2, row0 := 32 * (j / (arraysOf m.mask).length), fresh := !m.acc, rows, pad := (rows, m.cols), fmt := st.fmt, k0 := 0
    steps := [⟨st.tiles, str, true, readable⟩], dst := if m.out = 0 then none else some (m.out == 2, m.outAt j) }

/-- MMA at issue and to its end (R83 to R90, R107, R108). -/
def State.runMma (s : State) (i : Nat) (h : Health) (c : Core) (e : WinEntry) : InstrEnd :=
  let m := mmaOf e.word
  match s.mmaBar c m with
  | .error st => .refused st
  | .ok (fa, st) =>
    let c := if m.swap then { c with active := some st, shadow := .empty, shadowSet := none } else c
    let p := packing st.fmt
    let ts := m.tiles c p
    let groups := (List.range m.nt).map fun j => s.tryTiles i c fa (some false) (some (m.place j).1) ((ts.drop (p * j)).take p)
    let cs := groups.zipIdx.map fun (g, j) => m.chain st g.1 g.2.isEmpty j
    let es := groups.flatMap (·.2)
    runRead s.free (if m.swap && !es.isEmpty then c.noSets else c) e.index (s.spillOf c) h.upsets cs es

/-- A slot that an MMA starts with ACC = 0 is EMPTY or ACCUM (R89). -/
def mmaMay (c : Core) (w : W128) : Bool :=
  let m := mmaOf w
  m.acc || m.uses.all fun u => (c.slot (8 * u.1 + u.2)).state != .writing

/-- MMA (R83). -/
def execMma (c : CoreId) (h : Health) (s : State) : Host.Outcome State Fault Refusal :=
  .next (s.issue c.idx .matrix h (isOp opMma) mmaMay fun s k e => s.runMma c.idx h k e)

/-! GMM. -/

structure GmmWord where
  mask : Nat
  fmtA : Nat
  fmtW : Nat
  out : Nat
  acc : Bool
  ne : Nat
  ks : Nat
  kaxis : Bool
  transpose : Bool
  e0 : Nat
  win : Nat
  table : Nat
  aBase : Nat
  wBase : Nat
  dst : Nat

def gmmOf (w : W128) : GmmWord :=
  let w := w.toNat
  { mask := bitsOf w 119 116, fmtA := bitsOf w 115 111, fmtW := bitsOf w 110 106, out := bitsOf w 105 104, acc := bitOf w 103
    ne := bitsOf w 102 100 + 1, ks := bitsOf w 99 98 + 1, kaxis := bitOf w 97, transpose := bitOf w 96, e0 := bitsOf w 95 92
    win := bitsOf w 91 81 + 2048 * bitsOf w 15 13, table := bitsOf w 79 64, aBase := bitsOf w 63 48, wBase := bitsOf w 47 32
    dst := bitsOf w 31 16 }

/-- Byte addresses of R245: tile i of k-step k of entry j, of array number t where it applies. -/
def GmmWord.statAt (g : GmmWord) (f : Fmt) (j k i : Nat) : Nat := 16 * g.wBase + ((j * g.ks + k) * packing f + i) * f.denseBytes
def GmmWord.strAt (g : GmmWord) (f : Fmt) (j k t i : Nat) : Nat :=
  16 * g.aBase + (((j * g.ks + k) * (arraysOf g.mask).length + t) * packing f + i) * f.denseBytes
def GmmWord.outAt (g : GmmWord) (j t : Nat) : Nat := 16 * g.dst + (j * (arraysOf g.mask).length + t) * rawLen (g.out == 2)

/-- COUNT of entry j (R242, R245). -/
def GmmWord.count (g : GmmWord) (c : Core) (j : Nat) : Nat := bitsOf (leNat (c.read (16 * g.table + 32 * (g.e0 + j)) 32)) 255 232

def GmmWord.tableSpan (g : GmmWord) : Span := (16 * g.table + 32 * g.e0, 32 * g.ne)

/-- Every tile address that the instruction can compute. -/
def GmmWord.ins (g : GmmWord) (fa fw : Fmt) : List Span :=
  let n := (arraysOf g.mask).length
  (List.range g.ne).flatMap fun j => (List.range g.ks).flatMap fun k => (List.range (packing fw)).flatMap fun i =>
    (g.statAt fw j k i, fw.denseBytes) :: (List.range n).map fun t => (g.strAt fa j k t i, fa.denseBytes)

def GmmWord.outs (g : GmmWord) : List Span :=
  if g.out = 0 then []
  else (List.range g.ne).flatMap fun j => (List.range (arraysOf g.mask).length).map fun t => (g.outAt j t, rawLen (g.out == 2))

def gmmSpans (_ : Core) (w : W128) : Spans :=
  let g := gmmOf w
  match Fmt.ofCode g.fmtA, Fmt.ofCode g.fmtW with
  | some fa, some fw => ⟨[], g.tableSpan :: g.ins fa fw, g.outs⟩
  | _, _ => Spans.none

/-- Rows of the output tile that array number t of entry j may hold (R246): r_t of a row window, 32 where COUNT bounds the reduction. -/
def GmmWord.rows (g : GmmWord) (count t : Nat) : Nat :=
  if count = 0 then 0 else if g.kaxis then 32 else min 32 (count - 32 * ((arraysOf g.mask).length * g.win + t))

/-- The first k value of tile i of k-step k (R246). -/
def GmmWord.kFirst (g : GmmWord) (p k i : Nat) : Nat := 32 * p * (g.ks * g.win + k) + 32 * i

/-- K-step k of a non-empty entry is live. -/
def GmmWord.live (g : GmmWord) (p count k : Nat) : Bool := !g.kaxis || decide (g.kFirst p k 0 < count)

/-- Array number t streams rows for an entry (R246, R247). -/
def GmmWord.streams (g : GmmWord) (p count t : Nat) : Bool :=
  decide (0 < g.rows count t) && (List.range g.ks).any fun k => g.live p count k

/-- Entries and array numbers whose slots follow ACC and OUT (R246): entry, array number, rows, COUNT. -/
def GmmWord.work (g : GmmWord) (c : Core) : List (Nat × Nat × Nat × Nat) :=
  (List.range g.ne).flatMap fun j =>
    let n := g.count c j
    (List.range (arraysOf g.mask).length).filterMap fun t => if g.rows n t = 0 then none else some (j, t, g.rows n t, n)

/-- The entries that it skips (R246). -/
def GmmWord.skipped (g : GmmWord) (c : Core) : Nat := ((List.range g.ne).filter fun j => g.count c j == 0).length

def GmmWord.arrayAt (g : GmmWord) (t : Nat) : Nat := (arraysOf g.mask).getD t 0

/-- ACC = 1 finds a slot that R86 refuses: one not in ACCUM, but for an EMPTY one of an array that streams no rows for the entry (R247). -/
def GmmWord.slotBar (g : GmmWord) (c : Core) (p : Nat) : Bool :=
  g.acc && (List.range g.ne).any fun j => (List.range (arraysOf g.mask).length).any fun t =>
    match (c.slot (8 * g.arrayAt t + j)).state with
    | .accum => false
    | .empty => g.streams p (g.count c j) t
    | .writing => true

/-- The refusals of GMM at issue (R247, R633). -/
def State.gmmBar (s : State) (c : Core) (g : GmmWord) : Except Status (Fmt × Fmt) :=
  match fmtOn s.part g.fmtA, fmtOn s.part g.fmtW with
  | some fa, some fw =>
    let tiles := g.ins fa fw ++ g.outs
    if !paired fa fw then .error .illegalFormat
    else if g.out = 3 ∨ g.mask = 0 ∨ (if fw = .binary32 then 8 else 16) < g.ne * g.ks ∨ 16 < g.e0 + g.ne ∨ (c.isFiller ∧ 2 < g.ne)
        ∨ tiles.any (fun r => decide (trfBase < r.1 + r.2)) ∨ !s.spansOk c (g.tableSpan :: tiles) then .error .illegalOperand
    else
      let slots := (g.work c).map fun e => c.slot (8 * g.arrayAt e.2.1 + e.1)
      if g.slotBar c (packing fw) then .error .illegalOperand
      else
        let n := (slots.map fun x => partialsOf (if g.acc then x.products else 0) (32 * packing fw) (g.ks * passes fw)).sum
        if splitFull c n then .error .splitAreaFull else .ok (fa, fw)
  | _, _ => .error .illegalFormat

/-- The stationary tiles of k-step k of entry j (R245, R246). -/
def State.gmmStat (s : State) (i : Nat) (c : Core) (g : GmmWord) (fw : Fmt) (j k : Nat) : List Tile32 × List TileErr :=
  let r := s.tryTiles i c fw (some (!g.transpose)) none ((List.range (packing fw)).map fun x => ⟨g.statAt fw j k x, none⟩)
  (if g.transpose then r.1.map Tile32.transpose else r.1, r.2)

/-- The chain of entry j in array number t (R245, R246), with the failures of its streamed tiles. -/
def State.gmmChain (s : State) (i : Nat) (c : Core) (g : GmmWord) (fa fw : Fmt) (e : Nat × Nat × Nat × Nat) : Chain × List TileErr :=
  let (j, t, rows, count) := e
  let p := packing fw
  let steps := (List.range g.ks).map fun k =>
    if !g.live p count k then (KStep.mk [] [] false true, [])
    else
      let stat := s.gmmStat i c g fw j k
      let str := (List.range p).map fun x =>
        if g.kaxis && decide (count ≤ g.kFirst p k x) then ([zeroTile fa], [])
        else s.tryTiles i c fa (some false) (some (g.arrayAt t)) [⟨g.strAt fa j k t x, none⟩]
      let es := str.flatMap (·.2)
      (KStep.mk stat.1 (str.flatMap (·.1)) true (stat.2.isEmpty && es.isEmpty), es)
  ({ array := g.arrayAt t, slot := j, row0 := 0, fresh := !g.acc, rows, pad := (rows, 32), fmt := fw, k0 := j * g.ks, steps := steps.map (·.1)
     dst := if g.out = 0 then none else some (g.out == 2, g.outAt j t) }, steps.flatMap (·.2))

/-- The failures of the stationary tiles: every live k-step of every non-empty entry loads its set, whatever its arrays stream (R246). -/
def State.gmmStatErrs (s : State) (i : Nat) (c : Core) (g : GmmWord) (fw : Fmt) : List TileErr :=
  (List.range g.ne).flatMap fun j => (List.range g.ks).flatMap fun k =>
    if g.count c j = 0 || !g.live (packing fw) (g.count c j) k then [] else (s.gmmStat i c g fw j k).2

/-- GMM at issue and to its end (R245 to R248). -/
def State.runGmm (s : State) (i : Nat) (h : Health) (c : Core) (e : WinEntry) : InstrEnd :=
  let g := gmmOf e.word
  match s.gmmBar c g with
  | .error st => .refused st
  | .ok (fa, fw) =>
    if s.lsBad i g.tableSpan.1 g.tableSpan.2 then .lostWord
    else
      let cs := (g.work c).map fun x => s.gmmChain i c g fa fw x
      (runRead s.free c.noSets e.index (s.spillOf c) h.upsets (cs.map (·.1)) (s.gmmStatErrs i c g fw ++ cs.flatMap (·.2))).skipping (g.skipped c)

/-- A slot that a GMM starts with ACC = 0 is EMPTY or ACCUM (R89). -/
def gmmMay (c : Core) (w : W128) : Bool :=
  let g := gmmOf w
  g.acc || (g.work c).all fun e => (c.slot (8 * g.arrayAt e.2.1 + e.1)).state != .writing

/-- GMM (R245). -/
def execGmm (c : CoreId) (h : Health) (s : State) : Host.Outcome State Fault Refusal :=
  .next (s.issue c.idx .matrix h (isOp opGmm) gmmMay fun s k e => s.runGmm c.idx h k e)

end Sys2Proof.Machine
end

