-- ==== Sys2Proof/Machine/Conv.lean ====
section
/-! DEFINITION. Sys2Proof/Machine/Conv.lean: TCV, the Teasel convolution (spec/03 R94 to R101). -/

namespace Sys2Proof.Machine

open Sys2Proof

/-- TCV with its descriptor (R96, R97). -/
structure Conv where
  mask : Nat
  fmtIn : Nat
  fmtW : Nat
  out : Nat
  acc : Bool
  slot : Nat
  desc : Nat
  oz : Nat
  oy : Nat
  ox : Nat
  dst : Nat
  inBase : Nat
  inDir : Nat
  wBase : Nat
  wDir : Nat
  /-- Input extents, kernel extents, strides, dilations and leading padding along x, y, z. -/
  ext : List Nat
  ker : List Nat
  str : List Nat
  dil : List Nat
  pad : List Nat
  ct : Nat
  xvalid : Nat
  inMode : Bool
  wMode : Bool
  covalid : Nat

def convOf (c : Core) (w : W128) : Conv :=
  let w := w.toNat
  let a := bitsOf w 95 80
  let d := leNat (c.read (16 * a) 64)
  { mask := bitsOf w 119 116, fmtIn := bitsOf w 115 111, fmtW := bitsOf w 110 106, out := bitsOf w 105 104, acc := bitOf w 103
    slot := bitsOf w 102 100, desc := a, oz := bitsOf w 79 64, oy := bitsOf w 63 48, ox := bitsOf w 47 32, dst := bitsOf w 31 16
    inBase := bitsOf d 511 496, inDir := bitsOf d 495 480, wBase := bitsOf d 479 464, wDir := bitsOf d 463 448
    ext := [bitsOf d 447 432, bitsOf d 431 416, bitsOf d 415 400]
    ker := [bitsOf d 399 397 + 1, bitsOf d 396 394 + 1, bitsOf d 393 391 + 1]
    str := [bitsOf d 390 390 + 1, bitsOf d 389 389 + 1, bitsOf d 388 388 + 1]
    dil := [bitsOf d 387 387 + 1, bitsOf d 386 386 + 1, bitsOf d 385 385 + 1]
    pad := [bitsOf d 384 382, bitsOf d 381 379, bitsOf d 378 376]
    ct := bitsOf d 375 372 + 1, xvalid := orAll (bitsOf d 371 367), inMode := bitOf d 366, wMode := bitOf d 365
    covalid := orAll (bitsOf d 364 360) }

/-- The input index along an axis, when it lies in the tensor (R99). -/
def Conv.index (v : Conv) (axis o k : Nat) : Option Nat :=
  let i := o * v.str.getD axis 1 + k * v.dil.getD axis 1
  let p := v.pad.getD axis 0
  if p ≤ i ∧ i - p < v.ext.getD axis 0 then some (i - p) else none

/-- The taps in the order of R100: ct, kz, ky, kx. -/
def Conv.taps (v : Conv) : List (Nat × Nat × Nat × Nat) :=
  (List.range v.ct).flatMap fun ct => (List.range (v.ker.getD 2 1)).flatMap fun kz => (List.range (v.ker.getD 1 1)).flatMap fun ky =>
    (List.range (v.ker.getD 0 1)).map fun kx => (ct, kz, ky, kx)

/-- The index of an input tile (R98); weight tiles lie in the order of the taps. -/
def Conv.inTile (v : Conv) (z y xt ct : Nat) : Nat := ((z * v.ext.getD 1 0 + y) * ceilDiv (v.ext.getD 0 0) 32 + xt) * v.ct + ct
/-- Where position x of array number q reads tap (ct, kz, ky, kx): input tile and row. -/
def Conv.source (v : Conv) (q : Nat) (tap : Nat × Nat × Nat × Nat) (x : Nat) : Option (Nat × Nat) := do
  let (ct, kz, ky, kx) := tap
  let iz ← v.index 2 v.oz kz
  let iy ← v.index 1 (v.oy + q) ky
  let ix ← v.index 0 (v.ox + x) kx
  return (v.inTile iz iy (ix / 32) ct, ix % 32)

/-- Input tiles that array number q reads (R99: an index outside the tensor costs no read). -/
def Conv.inTiles (v : Conv) (q : Nat) : List Nat :=
  (v.taps.flatMap fun t => ((List.range v.xvalid).filterMap fun x => (v.source q t x).map (·.1)).eraseDups).eraseDups

/-- A tile's place: strided at dense tile bytes, or through a directory (R97). -/
def convAt (c : Core) (mode : Bool) (base dir : Nat) (f : Fmt) (k : Nat) : TileAt :=
  if mode then
    let e := parseDir (leNat (c.read (16 * dir + 8 * k) 8))
    ⟨16 * (base + e.offset), some e⟩
  else ⟨16 * base + k * f.denseBytes, none⟩

def Conv.arrays (v : Conv) : List Nat := arraysOf v.mask

def Conv.outs (v : Conv) : List Span :=
  if v.out = 0 then [] else (List.range v.arrays.length).map fun q => (16 * v.dst + q * rawLen (v.out == 2), rawLen (v.out == 2))

/-- The tiles that R101 lets a TCV name: at most 64 taps, extents of at least 1. -/
def Conv.limitsOk (v : Conv) : Bool :=
  decide (v.taps.length ≤ 64) && (List.range 3).all fun a =>
    decide (1 ≤ v.ext.getD a 0 ∧ (v.ker.getD a 1 - 1) * v.dil.getD a 1 + 1 ≤ v.ext.getD a 0 + v.pad.getD a 0)

/-- Directory entries and tiles read: input and weights. -/
def Conv.dirs (v : Conv) : List Span :=
  let ins := (List.range v.arrays.length).flatMap v.inTiles
  (if v.inMode then ins.map fun k => (16 * v.inDir + 8 * k, 8) else [])
    ++ (if v.wMode then [(16 * v.wDir, 8 * v.taps.length)] else [])

def Conv.reads (v : Conv) (c : Core) (fi fw : Fmt) : List Span :=
  ((List.range v.arrays.length).flatMap v.inTiles).map (fun k => (convAt c v.inMode v.inBase v.inDir fi k).span fi)
    ++ (List.range v.taps.length).map fun k => (convAt c v.wMode v.wBase v.wDir fw k).span fw

def tcvDesc (w : W128) : Span := (16 * bitsOf w.toNat 95 80, 64)

def tcvSpans (c : Core) (w : W128) : Spans :=
  let v := convOf c w
  match Fmt.ofCode v.fmtIn, Fmt.ofCode v.fmtW with
  | some fi, some fw => if v.limitsOk then ⟨tcvDesc w :: v.dirs, v.reads c fi fw, v.outs⟩ else ⟨[tcvDesc w], [], []⟩
  | _, _ => ⟨[tcvDesc w], [], []⟩

def convFmt (f : Fmt) : Bool := f == .bfloat16 || f == .binary16

/-- The refusals of TCV at issue (R94, R95, R101, R216, R633). -/
def State.tcvBar (s : State) (i : Nat) (c : Core) (w : W128) : Except Status (Conv × Fmt × Fmt) :=
  let v := convOf c w
  match fmtOn s.part v.fmtIn, fmtOn s.part v.fmtW with
  | some fi, some fw =>
    if !teaselLog s.part (i % 12) ∨ !convFmt fi ∨ !convFmt fw then .error .illegalFormat
    else if v.mask = 0 ∨ v.out = 3 ∨ (c.isFiller ∧ 2 < v.slot + 1) ∨ !s.spansOk c [tcvDesc w] ∨ !v.limitsOk
        ∨ !s.spansOk c (v.dirs ++ v.reads c fi fw ++ v.outs) then .error .illegalOperand
    else
      let slots := v.arrays.map fun a => c.slot (8 * a + v.slot)
      if v.acc && slots.any fun x => x.state != .accum then .error .illegalOperand
      else
        let n := (slots.map fun x => partialsOf (if v.acc then x.products else 0) 32 v.taps.length).sum
        if splitFull c n then .error .splitAreaFull else .ok (v, fi, fw)
  | _, _ => .error .illegalFormat

/-- The streamed tile of a tap: row x is the input channels at position x, +0 outside the tensor (R99). -/
def Conv.streamed (v : Conv) (fi : Fmt) (tiles : List (Nat × Tile32)) (q : Nat) (tap : Nat × Nat × Nat × Nat) : Tile32 :=
  let row (x : Nat) : List Nat :=
    match v.source q tap x with
    | none => List.replicate 32 0
    | some (k, r) =>
      match tiles.find? fun e => e.1 == k with
      | some (_, t) => (List.range 32).map fun j => t.codes.getD (32 * r + j) 0
      | none => List.replicate 32 0
  { zeroTile fi with codes := ((List.range v.xvalid).flatMap row).toArray }

/-- The chain of array number q, with the failures of its input tiles; `ws`: the weight tiles of the taps, as far as they were read. -/
def State.tcvChain (s : State) (i : Nat) (c : Core) (v : Conv) (fi : Fmt) (ws : List (Tile32 × List TileErr)) (q : Nat) : Chain × List TileErr :=
  let a := v.arrays.getD q 0
  let ins := (v.inTiles q).map fun k => (k, s.tryTiles i c fi none (some a) [convAt c v.inMode v.inBase v.inDir fi k])
  let tiles := ins.map fun e => (e.1, e.2.1.headD (zeroTile fi))
  let bad := (ins.filter fun e => !e.2.2.isEmpty).map (·.1)
  let readable (tap : Nat × Nat × Nat × Nat) : Bool :=
    (List.range v.xvalid).all fun x => !((v.source q tap x).any fun r => bad.contains r.1)
  ({ array := a, slot := v.slot, row0 := 0, fresh := !v.acc, rows := v.xvalid, pad := (v.xvalid, v.covalid), fmt := .bfloat16, k0 := 0
     steps := v.taps.zipIdx.map fun (tap, n) =>
       let w := ws.getD n (zeroTile fi, [])
       ⟨[w.1], [v.streamed fi tiles q tap], true, w.2.isEmpty && readable tap⟩
     dst := if v.out = 0 then none else some (v.out == 2, 16 * v.dst + q * rawLen (v.out == 2)) }, ins.flatMap (·.2.2))

/-- TCV at issue and to its end (R98 to R101). -/
def State.runTcv (s : State) (i : Nat) (h : Health) (c : Core) (e : WinEntry) : InstrEnd :=
  match s.tcvBar i c e.word with
  | .error st => .refused st
  | .ok (v, fi, fw) =>
    let d := tcvDesc e.word
    if s.lsBad i d.1 d.2 then .lostWord
    else
      let ws := (List.range v.taps.length).map fun n =>
        let r := s.tryTiles i c fw none none [convAt c v.wMode v.wBase v.wDir fw n]
        (r.1.headD (zeroTile fw), r.2)
      let cs := (List.range v.arrays.length).map (s.tcvChain i c v fi ws)
      runRead s.free c.noSets e.index (s.spillOf c) h.upsets (cs.map (·.1)) (ws.flatMap (·.2) ++ cs.flatMap (·.2))

/-- A slot that a TCV starts with ACC = 0 is EMPTY or ACCUM (R89, R101). -/
def tcvMay (c : Core) (w : W128) : Bool :=
  let v := convOf c w
  v.acc || v.arrays.all fun a => (c.slot (8 * a + v.slot)).state != .writing

/-- TCV (R99). -/
def execTcv (c : CoreId) (h : Health) (s : State) : Host.Outcome State Fault Refusal :=
  .next (s.issue c.idx .matrix h (isOp opTcv) tcvMay fun s k e => s.runTcv c.idx h k e)

end Sys2Proof.Machine
end

