-- ==== Sys2Proof/Machine/Func.lean ====
section
/-! DEFINITION. Sys2Proof/Machine/Func.lean: EXP2, LOG2, RCP, RSQ and TANH (spec/06 R172, R173) and the generator of stochastic rounding (R177). The
manual fixes the special cases and the largest error of a function and leaves its bits to the firmware's tables: a result is a free
choice among the binary32 values within the error limit of the exact result. -/

namespace Sys2Proof

/-- The five functions (R168). -/
inductive Fn where
  | exp2 | log2 | rcp | rsq | tanh
  deriving DecidableEq, Repr

def Fn.code : Fn → Nat
  | .exp2 => 0x09
  | .log2 => 0x0A
  | .rcp => 0x0B
  | .rsq => 0x0C
  | .tanh => 0x0D

/-! Exact results to many bits: m·2^e, truncated. -/

/-- Fraction bits kept. (DESIGN CHOICE, log 17) -/
def fnBits : Nat := 160

/-- 2^f for f = k / 2^fnBits below 1: the product of the roots 2^(1/2), 2^(1/4), ... that f's bits name. -/
def exp2Frac (k : Nat) : Nat :=
  ((List.range fnBits).foldl (fun (acc : Nat × Nat) j =>
    let root := isqrt (acc.2 <<< fnBits)
    ((if k.testBit (fnBits - 1 - j) then (acc.1 * root) >>> fnBits else acc.1), root)) (1 <<< fnBits, 2 <<< fnBits)).1

/-- 2^v for v = k / 2^fnBits, k an integer. -/
def exp2Fixed (k : Int) : Nat × Int :=
  let one : Int := ((1 <<< fnBits : Nat) : Int)
  (exp2Frac (k % one).toNat, k / one - fnBits)

/-- log2 of 1 ≤ m / 2^fnBits < 2, in units of 2^−fnBits. -/
def log2Frac (m : Nat) : Nat :=
  ((List.range fnBits).foldl (fun (acc : Nat × Nat) j =>
    let sq := (acc.1 * acc.1) >>> fnBits
    if 2 <<< fnBits ≤ sq then (sq >>> 1, acc.2 + 1 <<< (fnBits - 1 - j)) else (sq, acc.2)) (m, 0)).2

/-- A finite value in units of 2^−fnBits, truncated. -/
def toFixed (m : Nat) (e : Int) : Nat :=
  let sh := e + fnBits
  if 0 ≤ sh then m <<< sh.toNat else m >>> (-sh).toNat

/-- log2 e in units of 2^−160. -/
def log2E : Nat := 2108501164428393954197770173035669514763056903505

/-- The exact result of a function at ±m·2^e, m not 0, as ±m'·2^e'. -/
def Fn.exact (f : Fn) (n : Bool) (m : Nat) (e : Int) : FVal :=
  match f with
  | .exp2 =>
    let k : Int := (toFixed m e : Int)
    let r := exp2Fixed (if n then -k else k)
    .fin false r.1 r.2
  | .log2 =>
    let b := bitLen m
    let x := if b ≤ fnBits then m <<< (fnBits + 1 - b) else m >>> (b - fnBits - 1)
    let l : Int := (e + (b : Int) - 1) * (1 <<< fnBits : Nat) + log2Frac x
    .fin (decide (l < 0)) l.natAbs (-(fnBits : Int))
  | .rcp => .fin n ((1 <<< (fnBits + bitLen m)) / m) (-e - (fnBits + bitLen m : Nat))
  | .rsq =>
    let (m, e) := if e % 2 = 0 then (m, e) else (2 * m, e - 1)
    let r := isqrt ((1 <<< (2 * (fnBits + bitLen m))) / m)
    .fin false r (-(e / 2) - (fnBits + bitLen m : Nat))
  | .tanh =>
    let k := (toFixed m e * log2E) >>> (fnBits - 1)
    let u := exp2Fixed (-(k : Int))
    let w := if 0 ≤ u.2 + fnBits then u.1 <<< (u.2 + fnBits).toNat else u.1 >>> (-(u.2 + fnBits)).toNat
    let one := 1 <<< fnBits
    .fin n (((one - w) <<< fnBits) / (one + w)) (-(fnBits : Int))

/-- Largest error in units of the binary32 spacing at the exact result (R172). -/
def Fn.ulps : Fn → Nat
  | .tanh => 2
  | _ => 1

/-- The special cases of R172, NaN among them; none: the result lies within the error limit. -/
def Fn.special (f : Fn) (v : FVal) : Option FVal :=
  match f, v with
  | _, .nan => some .nan
  | .exp2, .inf n => some (if n then FVal.posZero else .inf false)
  | .exp2, .fin n m e =>
    if FVal.le (.fin false 128 0) (.fin n m e) then some (.inf false)
    else if FVal.le (.fin n m e) (.fin true 150 0) then some FVal.posZero else none
  | .log2, .inf n => some (if n then .nan else .inf false)
  | .log2, .fin n m e =>
    if m = 0 then some (.inf true) else if n then some .nan
    else if m = 1 <<< (bitLen m - 1) then some (FVal.ofInt (e + (bitLen m : Int) - 1) 0) else none
  | .rcp, .inf n => some (.fin n 0 0)
  | .rcp, .fin n m _ => if m = 0 then some (.inf n) else none
  | .rsq, .inf n => some (if n then .nan else FVal.posZero)
  | .rsq, .fin n m _ => if m = 0 then some (.inf n) else if n then some .nan else none
  | .tanh, .inf n => some (.fin n 1 0)
  | .tanh, .fin n m _ =>
    if m = 0 ∨ FVal.lt v.abs (.fin false 1 (-12)) then some v
    else if FVal.le (.fin false 91 0) (FVal.mul v.abs (.fin false 10 0)) then some (.fin n 1 0) else none

/-- The codes that R172 allows for an exact result. (DESIGN CHOICE, log 17) -/
def allowedCodes (ulps : Nat) (x : FVal) : List Nat :=
  let f := FloatFmt.b32
  match x with
  | .fin n m e =>
    let c0 := f.roundCode .rne m e
    if f.maxCode < c0 then [f.encode x]
    else
      let lsb : Int := max ((bitLen m : Int) - 1 + e - 23) (-149)
      let near := ((List.range 5).map fun k => c0 + k).filterMap fun c => if c < 2 then none else some (c - 2)
      let ok (c : Nat) : Bool := decide (c ≤ f.maxCode) && FVal.le (FVal.sub (f.decode c) (.fin false m e)).abs (.fin false ulps lsb)
      let cs := near.filter ok
      (if cs.isEmpty then [c0] else cs).map (f.withSign n)
  | v => [f.encode v]

/-- A function of R168 on a binary32 value under a firmware version's tables (R173). (DESIGN CHOICE, log 17) -/
def Fn.apply (ver : Nat) (f : Fn) (v : FVal) : FVal :=
  match f.special v with
  | some r => r
  | none =>
    match v with
    | .fin n m e =>
      let cs := allowedCodes f.ulps (f.exact n m e)
      let k := Config.functionBits ver f.code (FloatFmt.b32.encode v)
      FloatFmt.b32.decode (cs.getD (k % max 1 cs.length) 0)
    | v => v

/-! The generator (R177): Philox4×32-10. -/

def philoxRound (k0 k1 : Nat) (c : Nat × Nat × Nat × Nat) : Nat × Nat × Nat × Nat :=
  let p0 := 0xD2511F53 * c.1
  let p1 := 0xCD9E8D57 * c.2.2.1
  (Nat.xor (Nat.xor (p1 / 2 ^ 32) c.2.1) k0, p1 % 2 ^ 32, Nat.xor (Nat.xor (p0 / 2 ^ 32) c.2.2.2) k1, p0 % 2 ^ 32)

/-- Output word 0 for a key of two words and a counter of four. -/
def philox (k0 k1 : Nat) (c : Nat × Nat × Nat × Nat) : Nat :=
  ((List.range 10).foldl (fun c i => philoxRound ((k0 + i * 0x9E3779B9) % 2 ^ 32) ((k1 + i * 0xBB67AE85) % 2 ^ 32) c) c).1

/-- The generator word r of an element (R177): seed, element index, stage and instruction index. -/
def stochWord (seed elem stage instr : Nat) : Nat :=
  philox (seed % 2 ^ 32) (seed / 2 ^ 32 % 2 ^ 32)
    (elem % 2 ^ 32, elem / 2 ^ 32 % 2 ^ 16 + 2 ^ 16 * (stage % 8), instr % 2 ^ 32, 0)

end Sys2Proof
end

