-- ==== Sys2Proof/Machine/Steal.lean ====
section
/-! DEFINITION. Sys2Proof/Machine/Steal.lean: steal groups (spec/05 R143 to R154; spec/19 R553). An OPEN issues, and then the commands STL_OPEN,
STEAL and TREE_ADDITION each do one part of the group's work: the owner's next slab range, a thief's slabs, one addition (R150: no
order of them changes a bit). -/

namespace Sys2Proof.Machine

open Sys2Proof

/-- A group descriptor (R145). -/
structure Group where
  aDir : Nat
  aBase : Nat
  wDir : Nat
  wBase : Nat
  part : Nat
  dst : Nat
  stage : Nat
  fmtA : Nat
  fmtW : Nat
  transpose : Bool
  b64 : Bool
  ot : Nat
  slabKs : Nat
  lastKs : Nat
  slabs : Nat
  rows : Nat
  cols : Nat

def parseGroup (d : Nat) : Group :=
  { aDir := bitsOf d 511 492, aBase := bitsOf d 491 472, wDir := bitsOf d 471 452, wBase := bitsOf d 451 432, part := bitsOf d 431 412
    dst := bitsOf d 411 396, stage := bitsOf d 395 380, fmtA := bitsOf d 379 375, fmtW := bitsOf d 374 370, transpose := bitOf d 369
    b64 := bitOf d 368, ot := bitsOf d 367 363 + 1, slabKs := bitsOf d 362 357 + 1, lastKs := bitsOf d 356 351 + 1
    slabs := bitsOf d 350 347 + 1, rows := orAll (bitsOf d 346 342), cols := orAll (bitsOf d 341 337) }

/-- Tiles along k (R146). -/
def Group.kt (g : Group) (p : Nat) : Nat := p * ((g.slabs - 1) * g.slabKs + g.lastKs)

/-- k-steps of slab q. -/
def Group.ksOf (g : Group) (q : Nat) : Nat := if q + 1 = g.slabs then g.lastKs else g.slabKs

/-- The merge-area entry (t, q) (R146): a CS byte offset. -/
def Group.entryAt (g : Group) (t q : Nat) : Nat := 16 * (g.part + 513 * (t * g.slabs + q))

/-- The owner's staging area. -/
def Group.staging (g : Group) (fa fw : Fmt) : Span :=
  (16 * g.stage, 2 * packing fw * (g.ot + 2) * max fa.denseBytes fw.denseBytes)

def Group.outAt (g : Group) (t : Nat) : Nat := 16 * g.dst + t * rawLen g.b64

def Group.outs (g : Group) : List Span := (List.range g.ot).map fun t => (g.outAt t, rawLen g.b64)

/-- Directories and merge area lie in the part of the cluster store that the partition may use (R153, R217). -/
def State.groupFits (s : State) (part : Nat) (g : Group) (p : Nat) : Bool :=
  let top := s.csLimit part
  decide (16 * g.aDir + 8 * g.ot * g.kt p ≤ top ∧ 16 * g.wDir + 8 * g.kt p ≤ top
    ∧ g.entryAt g.ot 0 ≤ top ∧ 16 * g.aBase < top ∧ 16 * g.wBase < top)

/-! STL words (R143). -/

def stlOp (w : W128) : Nat := bitsOf w.toNat 119 117
def stlRing (w : W128) : Bool := bitOf w.toNat 116
def stlAddr (w : W128) : Nat := bitsOf w.toNat 111 96

/-- The thief staging area of an OFFER. -/
def offerSpan (a : Nat) : Span := (a, 48 * 1024)

def groupDesc (w : W128) : Span := (16 * stlAddr w, 64)

def Core.group (c : Core) (w : W128) : Nat := leNat (c.read (16 * stlAddr w) 64)

def stlSpans (c : Core) (w : W128) : Spans :=
  if stlOp w ≠ 0 then Spans.none
  else
    let g := parseGroup (c.group w)
    match Fmt.ofCode g.fmtA, Fmt.ofCode g.fmtW with
    | some fa, some fw => ⟨[groupDesc w], [], g.outs ++ [g.staging fa fw]⟩
    | _, _ => ⟨[groupDesc w], [], g.outs⟩

/-! OPEN. -/

def inTrf (r : Span) : Bool := decide (trfBase < r.1 + r.2)

/-- The refusals of OPEN (R153, R633). -/
def State.openBar (s : State) (c : Core) (w : W128) : Except Status Unit :=
  let g := parseGroup (c.group w)
  if 3 ≤ stlOp w then .error .illegalOperand
  else
    match fmtOn s.part g.fmtA, fmtOn s.part g.fmtW with
    | some fa, some fw =>
      let st := g.staging fa fw
      if !paired fa fw then .error .illegalFormat
      else if c.isFiller ∨ !s.spansOk c (groupDesc w :: st :: g.outs) ∨ (st :: g.outs).any inTrf ∨ !s.groupFits c.part g (packing fw)
          ∨ (c.role = .offering ∧ rangesMeet st (offerSpan c.offer)) ∨ c.slots.any fun e => e.2.state == .accum then
        .error .illegalOperand
      else .ok ()
    | _, _ => .error .illegalFormat

/-- Free bytes over a staging area: the manual gives its size and no layout (assumption log). (DEDUCED, log 46) -/
def State.freeLs (s : State) (i : Nat) (r : Span) : State :=
  let n := ceilDiv r.2 8
  ((s.setCore i ((s.core i).write r.1 (s.freeBytes 0 r.2))).drew n).lsWrote i [r]

def State.groupOf (s : State) (i : Nat) : Option StealGroup := (s.cluster (i / 12)).groups.find? fun g => g.owner == i

def State.setGroup (s : State) (g : StealGroup) : State :=
  let cl := g.owner / 12
  let k := s.cluster cl
  s.setCluster cl { k with groups := k.groups.map fun x => if x.owner == g.owner then g else x }

def State.dropGroup (s : State) (owner : Nat) : State :=
  let cl := owner / 12
  let k := s.cluster cl
  s.setCluster cl { k with groups := k.groups.filter fun x => x.owner != owner }

/-- OPEN issues (R144): the group holds the matrix queue from here on. (DEDUCED, log 46) -/
def State.openGroup (s : State) (i : Nat) (e : WinEntry) : State :=
  let c := s.core i
  let d := c.group e.word
  let g := parseGroup d
  let grp : StealGroup :=
    { owner := i, desc := BitVec.ofNat 512 d, entry := e, done := [], taken := [], next := 0, roots := [], nf := 0, ring := stlRing e.word }
  let cl := i / 12
  let k := s.cluster cl
  let s := (s.setCore i (c.leave e)).setCluster cl { k with groups := k.groups ++ [grp] }
  s.freeLs i (g.staging ((Fmt.ofCode g.fmtA).getD .bfloat16) ((Fmt.ofCode g.fmtW).getD .bfloat16))

/-! Slabs (R146, R149). -/

/-- A tile of the cluster store through a directory. -/
def State.csTile (s : State) (part cl : Nat) (want : Fmt) (axis : Bool) (dir base k : Nat) : Except (Status × Nat) Tile32 :=
  let at_ := clusterStoreAddr cl
  let da := at_ (16 * dir + 8 * k)
  let e := parseDir (leNat (s.readMem da 8))
  let off := 16 * (base + e.offset)
  let a := at_ off
  let bs := s.readMem a want.denseBytes
  let h := parseHdr bs
  let n := max 16 (min want.denseBytes (tileLen want h.form h.nz))
  if marked s.keep.marks da 8 then .error (.memUncorrectable, da)
  else if s.csLimit part < off + n then .error (.addressFault, a)
  else if marked s.keep.marks a n then .error (.memUncorrectable, a)
  else
    match readTile s.part (some want) (some e) bs with
    | .ok x => if want.isMx && x.axis != axis then .error (.illegalFormat, a) else .ok x
    | .error er => .error (if er == .headerCheck && want.isMx && h.axis != axis then .illegalFormat else tileStatus er, a)

/-- Slab q of output tile t as a chain of its own in one array. -/
def State.slabChain (s : State) (part cl : Nat) (g : Group) (fa fw : Fmt) (t q array slot row0 : Nat) : Except (Status × Nat) Chain := do
  let p := packing fw
  let k0 := q * g.slabKs
  let steps ← (List.range (g.ksOf q)).mapM fun n => do
    let stat ← (List.range p).mapM fun x => s.csTile part cl fw (!g.transpose) g.wDir g.wBase (p * (k0 + n) + x)
    let str ← (List.range p).mapM fun x => s.csTile part cl fa false g.aDir g.aBase (t * g.kt p + p * (k0 + n) + x)
    pure (KStep.mk (if g.transpose then stat.map Tile32.transpose else stat) str true true)
  let rows := if t + 1 = g.ot then g.rows else 32
  return { array, slot, row0, fresh := true, rows, pad := (32, 32), fmt := fw, k0, steps, dst := none }

/-- How the slabs that a core computes end. -/
inductive SlabEnd where
  | done (parts : List (Nat × List Byte))
  | failed (e : Status × Nat)
  | upset (f : LaneFail)

/-- Slabs of range q for the named tiles: their merge-area entries (R149). When one of them meets a bad tile and another fails the checksum lane, the bad
tile alone counts: no ARRAY_CHECKSUM is recorded and no core is charged. R154 does not say which outcome holds. (DESIGN CHOICE, log 57) -/
def State.runSlabs (s : State) (cl : Nat) (c : Core) (g : Group) (q : Nat) (ts : List (Nat × Nat × Nat)) (ups : List Upset) : SlabEnd :=
  match Fmt.ofCode g.fmtA, Fmt.ofCode g.fmtW with
  | some fa, some fw =>
    let before (t array : Nat) : Nat := (ts.filter fun x => x.2.1 == array && decide (x.1 < t)).length
    let rs := ts.map fun (t, array, slot) => (t, s.slabChain c.part cl g fa fw t q array slot (32 * before t array))
    let bad := rs.filterMap fun r =>
      match r.2 with
      | .error e => some e
      | .ok _ => none
    match pickFail bad with
    | some e => .failed e
    | none =>
      let outs := rs.filterMap fun r => r.2.toOption.map fun ch => (r.1, ch.run 0 (s.spillOf c) ups (Lane.of c) Slot.start)
      match firstFail (outs.flatMap fun o => o.2.2.2) with
      | some f => .upset f
      | none => .done (outs.map fun o => (o.1, encodeDense (tileOfCodes .binary64 o.2.2.1.sums)))
  | _, _ => .failed (.illegalFormat, 0)

/-- Partials enter the merge area. -/
def State.putPartials (s : State) (cl : Nat) (g : StealGroup) (q : Nat) (parts : List (Nat × List Byte)) : State :=
  let d := parseGroup g.desc.toNat
  let s := s.writeAll (parts.map fun e => (clusterStoreAddr cl (d.entryAt e.1 q), e.2))
  s.setGroup { g with done := g.done ++ parts.map fun e => (e.1, q, q + 1) }

/-! Roots (R149, R122). -/

/-- The element codes of a merge-area entry. -/
def State.partialCodes (s : State) (cl : Nat) (d : Group) (t lo : Nat) : Except Status (Array Nat) :=
  let a := clusterStoreAddr cl (d.entryAt t lo)
  if marked s.keep.marks a 8208 then .error .memUncorrectable
  else .ok (unpack 64 128 ((s.readMem a 8208).drop 16)).toArray

/-- Roots that are complete are written at DST; the group ends with the last (R144). -/
def State.settleGroup (s : State) (i : Nat) : State :=
  match s.groupOf i with
  | none => s
  | some g =>
    let d := parseGroup g.desc.toNat
    let due := (List.range d.ot).filter fun t => g.done.contains (t, 0, d.slabs) && !g.roots.contains t
    let r : Except Status (Lane × StealGroup) := due.foldlM (fun (acc : Lane × StealGroup) t =>
      (s.partialCodes (i / 12) d t 0).map fun sums =>
        let l := acc.1.putTile d.b64 (d.outAt t) (rawTile d.b64 (if t + 1 = d.ot then d.rows else 32) d.cols sums)
        (l, { acc.2 with roots := acc.2.roots ++ [t] })) ({ Lane.of (s.core i) with nf := g.nf }, g)
    match r with
    | .error _ => s.clusterFaulted (i / 12)
    | .ok (l, g) =>
      if g.roots.length < d.ot then
        ((s.setCore i l.core).lsWrote i l.wrote).setGroup { g with nf := l.nf }
      else
        let l := l.note g.entry.index
        let c := { l.core.noSets.uncount g.entry with slots := l.core.slots.filter fun e => e.2.state == .writing }
        ((s.setCore i c).lsWrote i l.wrote).dropGroup i

/-- The owner's next slab range, for the tiles that no thief has taken (R148). -/
def State.ownerRange (s : State) (i : Nat) (h : Health) (g : StealGroup) : State :=
  let d := parseGroup g.desc.toNat
  if d.slabs ≤ g.next ∨ !s.coreRuns i then s
  else if h.parity then (s.reports h).itemFault i
  else
    let s := s.reports h
    let q := g.next
    let ts := (List.range d.ot).filter fun t => !g.taken.contains (t, q)
    match s.runSlabs (i / 12) (s.core i) d q (ts.map fun t => (t, t % 4, t / 4)) h.upsets with
    | .done parts => (s.putPartials (i / 12) { g with next := q + 1 } q parts).settleGroup i
    | .failed (.memUncorrectable, _) => s.clusterFaulted (i / 12)
    | .failed (st, a) => (if st == .headerCheck then s.coreEvent i st none [a] else s).dropGroup i |>.endsWith i st
    | .upset f => (s.laneEvent i f).itemFault i

/-- STL_OPEN (R144): OPEN issues when the shadow is EMPTY and no slot is WRITING; while its group is open, the owner's next slab range. A
reserved operation is refused here. (DEDUCED, log 46) -/
def execStlOpen (c : CoreId) (h : Health) (s : State) : Host.Outcome State Fault Refusal :=
  let i := c.idx
  match s.groupOf i with
  | some g => .next (s.ownerRange i h g)
  | none =>
    let k := s.core i
    match k.head .matrix with
    | none => .next s
    | some e =>
      if !s.coreRuns i ∨ opcodeOf e.word ≠ opStl ∨ stlOp e.word = 1 ∨ stlOp e.word = 2 ∨ !s.mayIssue i e
          ∨ (stlOp e.word = 0 ∧ (k.shadow ≠ .empty ∨ k.slots.any fun x => x.2.state == .writing)) then .next s
      else if h.parity then .next ((s.reports h).itemFault i)
      else
        let s := s.reports h
        match s.openBar k e.word with
        | .error st => .next (s.endsWith i st)
        | .ok _ =>
          if s.lsBad i (16 * stlAddr e.word) 64 then .next (s.itemFault i) else .next (s.openGroup i e)

/-! OFFER and WITHDRAW. -/

def State.stlSimple (s : State) (i op : Nat) (f : Core → WinEntry → InstrEnd) : State :=
  s.issue i .matrix ⟨[], [], [], false⟩ (fun w => isOp opStl w && stlOp w == op) (fun _ _ => true) fun _ c e => f c e

/-- STL_OFFER (R144, R153). -/
def execStlOffer (c : CoreId) (s : State) : Host.Outcome State Fault Refusal :=
  .next (s.stlSimple c.idx 1 fun k e =>
    let r := offerSpan (16 * stlAddr e.word)
    if k.isFiller ∨ inTrf r ∨ !s.spansOk k [r] then .refused .illegalOperand
    else .done ⟨{ k with role := .offering, offer := r.1, active := none }, [], [], 0, 0⟩)

/-- STL_WITHDRAW (R144). -/
def execStlWithdraw (c : CoreId) (s : State) : Host.Outcome State Fault Refusal :=
  .next (s.stlSimple c.idx 2 fun k _ =>
    if k.isFiller then .refused .illegalOperand else .done ⟨{ k with role := .none }, [], [], 0, 0⟩)

/-! STEAL (R148). -/

/-- A core may steal, when no group of its own is open: it offers, its matrix queue is empty, its shadow and slot 7 of every array are EMPTY. -/
def Core.maySteal (c : Core) : Bool :=
  c.role == .offering && !(c.window.any fun e => e.engine == .matrix) && c.shadow == .empty
    && (List.range 4).all fun a => (c.slot (8 * a + 7)).state == .empty

/-- The highest slab range not started that has tiles left, and up to four of them. A range from which a thief took tiles still counts as not started until
the owner reaches it, so its other tiles are offered too. (DEDUCED, log 46) -/
def StealGroup.loot (g : StealGroup) : Option (Nat × List Nat) :=
  let d := parseGroup g.desc.toNat
  let left (q : Nat) : List Nat := (List.range d.ot).filter fun t => !g.taken.contains (t, q)
  ((List.range d.slabs).reverse.find? fun q => decide (g.next ≤ q) && !(left q).isEmpty).map fun q => (q, (left q).take 4)

/-- The first neighbour on the ring with a group of the same partition open to thieves that has a slab left, with those slabs. -/
def State.victim (s : State) (i : Nat) : Option (StealGroup × Nat × List Nat) :=
  let k := i % 12
  [(k + 1) % 12, (k + 11) % 12].findSome? fun j => do
    let g ← (s.groupOf (12 * (i / 12) + j)).filter fun g => g.ring && (s.core g.owner).part == (s.core i).part
    let l ← g.loot
    return (g, l)

/-- A fault of a thief: the owner's item runs again, and the thief's (R553). -/
def State.thiefFault (s : State) (i owner : Nat) : State :=
  let oc := s.core owner
  ((s.releaseCore owner).faultedItem owner oc).itemFault i

/-- STEAL (R148, R154). An active set that the thief has swapped in since its OFFER stays its own: the manual does not say that a stolen slab
leaves it undefined. (DEDUCED, log 46) -/
def execSteal (c : CoreId) (h : Health) (s : State) : Host.Outcome State Fault Refusal :=
  let i := c.idx
  let k := s.core i
  match s.victim i with
  | none => .next s
  | some (g, q, ts) =>
    if !s.coreRuns i ∨ !k.maySteal ∨ (s.groupOf i).isSome then .next s
    else if h.parity then .next ((s.reports h).thiefFault i g.owner)
    else
      let s := s.reports h
      let d := parseGroup g.desc.toNat
      match s.runSlabs (i / 12) (s.core g.owner) d q (ts.zipIdx.map fun (t, a) => (t, a, 7)) h.upsets with
      | .done parts =>
        let g := { g with taken := g.taken ++ ts.map fun t => (t, q) }
        let s := s.putPartials (i / 12) g q parts
        let o := s.core g.owner
        let s := s.setCore g.owner { o with given := o.given + ts.length }
        let s := s.setCore i { s.core i with taken := (s.core i).taken + ts.length }
        .next ((s.freeLs i (offerSpan k.offer)).settleGroup g.owner)
      | .failed (.memUncorrectable, _) => .next (s.clusterFaulted (i / 12))
      | .failed (st, a) =>
        let s := if st == .headerCheck then s.coreEvent i st none [a] else s
        .next ((s.dropGroup g.owner).endsWith g.owner st)
      | .upset f => .next ((s.laneEvent i f).thiefFault i g.owner)

/-! TREE_ADDITION (R149). -/

/-- The additions of merge(lo, hi), children first: lo, middle, hi. -/
def mergePlan : Nat → Nat → Nat → List (Nat × Nat × Nat)
  | 0, _, _ => []
  | fuel + 1, lo, hi =>
    if hi - lo ≤ 1 then []
    else
      let mid := lo + 2 ^ (bitLen (hi - lo - 1) - 1)
      mergePlan fuel lo mid ++ mergePlan fuel mid hi ++ [(lo, mid, hi)]

/-- The first addition whose two inputs are present. -/
def StealGroup.nextSum (g : StealGroup) : Option (Nat × Nat × Nat × Nat) :=
  let d := parseGroup g.desc.toNat
  (List.range d.ot).findSome? fun t =>
    ((mergePlan d.slabs 0 d.slabs).find? fun (lo, mid, hi) => g.done.contains (t, lo, mid) && g.done.contains (t, mid, hi)).map fun x => (t, x)

/-- TREE_ADDITION: one addition of the owner's merge stage, written over the left input's entry. -/
def execTreeAddition (c : CoreId) (s : State) : Host.Outcome State Fault Refusal :=
  let i := c.idx
  match s.groupOf i with
  | none => .next s
  | some g =>
    match g.nextSum with
    | none => .next s
    | some (t, lo, mid, hi) =>
      if !s.coreRuns i then .next s
      else
        let d := parseGroup g.desc.toNat
        match s.partialCodes (i / 12) d t lo, s.partialCodes (i / 12) d t mid with
        | .ok a, .ok b =>
          let f := FloatFmt.b64
          let sum := (Array.range 1024).map fun n => f.encode (FVal.add (f.decode (a.getD n 0)) (f.decode (b.getD n 0)))
          let s := s.writeMem (clusterStoreAddr (i / 12) (d.entryAt t lo)) (encodeDense (tileOfCodes .binary64 sum))
          let left := g.done.filter fun e => e != (t, lo, mid) && e != (t, mid, hi)
          .next ((s.setGroup { g with done := left ++ [(t, lo, hi)] }).settleGroup i)
        | _, _ => .next (s.clusterFaulted (i / 12))

end Sys2Proof.Machine
end

