-- ==== Sys2Proof/Machine/Vector.lean ====
section
/-! DEFINITION. Sys2Proof/Machine/Vector.lean: tensor descriptors and the vector chain (spec/06 R156 to R177, R634, R635; spec/05 R132 to R134). -/

namespace Sys2Proof.Machine

open Sys2Proof

/-! Tensors (R156, R157). -/

structure Tensor where
  pay : Nat
  dir : Nat
  sum : Nat
  fmt : Nat
  sorrel : Bool
  axis : Bool
  raw : Bool
  bcast : Nat
  /-- D0 to D4. -/
  dims : List Nat
  deriving DecidableEq, Repr

def Core.tensor (c : Core) (a : Nat) : Tensor :=
  let w := leNat (c.read (16 * a) 32)
  { pay := bitsOf w 255 240, dir := bitsOf w 239 224, sum := bitsOf w 223 208, fmt := bitsOf w 207 203, sorrel := bitOf w 202
    axis := bitOf w 201, raw := bitOf w 200, bcast := bitsOf w 199 195
    dims := [bitsOf w 191 176, bitsOf w 175 160, bitsOf w 159 144, bitsOf w 143 128, bitsOf w 127 112] }

def Tensor.dim (t : Tensor) (d : Nat) : Nat := t.dims.getD d 1
def Tensor.tc (t : Tensor) : Nat := ceilDiv (t.dim 0) 32
def Tensor.tr (t : Tensor) : Nat := ceilDiv (t.dim 1) 32
def Tensor.outer (t : Tensor) : Nat := t.dim 2 * t.dim 3 * t.dim 4
def Tensor.tiles (t : Tensor) : Nat := t.outer * t.tr * t.tc

/-- An element's outer index (i2, i3, i4 in one), row and column. -/
structure Ix where
  o : Nat
  i1 : Nat
  i0 : Nat

/-- The element of tile k at (r, c) of the tile. -/
def Tensor.ixOf (t : Tensor) (k r c : Nat) : Ix := ⟨k / t.tc / t.tr, 32 * (k / t.tc % t.tr) + r, 32 * (k % t.tc) + c⟩

def Tensor.has (t : Tensor) (x : Ix) : Bool := decide (x.i1 < t.dim 1 ∧ x.i0 < t.dim 0)

/-- Tile and place of an element (R157). -/
def Tensor.place (t : Tensor) (x : Ix) : Nat × Nat × Nat := ((x.o * t.tr + x.i1 / 32) * t.tc + x.i0 / 32, x.i1 % 32, x.i0 % 32)

/-- The linear index e of R177. -/
def Tensor.linear (t : Tensor) (x : Ix) : Nat := (x.o * t.dim 1 + x.i1) * t.dim 0 + x.i0

/-- The index of a source for an index of the iteration space (R158): a dimension of size 1 repeats its index 0. -/
def Tensor.srcIx (s d : Tensor) (x : Ix) : Ix :=
  let i2 := x.o % d.dim 2
  let i3 := x.o / d.dim 2 % d.dim 3
  let i4 := x.o / d.dim 2 / d.dim 3
  let at_ (k i : Nat) : Nat := if s.dim k = 1 then 0 else i
  ⟨(at_ 4 i4 * s.dim 3 + at_ 3 i3) * s.dim 2 + at_ 2 i2, at_ 1 x.i1, at_ 0 x.i0⟩

/-- A source's shape fits the iteration space (R158). -/
def Tensor.fits (s d : Tensor) : Bool :=
  (List.range 5).all fun k => s.dim k != 0 && (s.dim k == d.dim k || (s.dim k == 1 && s.bcast.testBit k))

/-- Where tile k of a source lies. -/
def Tensor.tileAt (t : Tensor) (c : Core) (f : Fmt) (k : Nat) : TileAt :=
  if t.sorrel then
    let e := parseDir (leNat (c.read (16 * t.dir + 8 * k) 8))
    ⟨16 * (t.pay + e.offset), some e⟩
  else ⟨16 * t.pay + k * f.denseBytes, none⟩

def Tensor.dirSpan (t : Tensor) : Span := (16 * t.dir, 8 * t.tiles)

/-- A source's directory. -/
def Tensor.needs (t : Tensor) : List Span := if t.sorrel then [t.dirSpan] else []

/-- What reading a source touches; a directory that does not fit stands alone. -/
def Tensor.reads (t : Tensor) (c : Core) (f : Fmt) : List Span :=
  if t.sorrel then
    (if spanFits t.dirSpan then t.dirSpan :: (List.range t.tiles).map fun k => (t.tileAt c f k).span f else [t.dirSpan])
  else [(16 * t.pay, t.tiles * f.denseBytes)]

/-- What writing a destination touches (R88, R134): slotted for Sorrel. -/
def Tensor.writes (t : Tensor) (f : Fmt) : List Span :=
  (16 * t.pay, t.tiles * f.denseBytes) :: (if t.sorrel then [t.dirSpan] else []) ++ (if t.sum = 0 then [] else [(16 * t.sum, 16)])

/-! VCH (R164 to R166). -/

structure Stage where
  op : Nat
  sa : Nat
  sb : Nat
  sc : Nat
  save : Bool
  param : Nat
  stoch : Bool
  nonsat : Bool
  imm : Nat

def parseStage (w : Nat) : Stage :=
  ⟨bitsOf w 31 26, bitsOf w 25 23, bitsOf w 22 20, bitsOf w 19 17, bitOf w 16, bitsOf w 15 11, bitOf w 10, bitOf w 9, bitsOf w 8 6⟩

structure Vch where
  n : Nat
  wf64 : Bool
  chain : Nat
  srcs : List Nat
  dst : Nat

def vchOf (w : W128) : Vch :=
  let w := w.toNat
  ⟨bitsOf w 119 117 + 1, bitOf w 116, bitsOf w 111 96, [bitsOf w 95 80, bitsOf w 79 64, bitsOf w 63 48, bitsOf w 47 32], bitsOf w 31 16⟩

def Vch.stages (v : Vch) (c : Core) : List Stage := (List.range v.n).map fun k => parseStage (leNat (c.read (16 * v.chain + 4 * k) 4))

def Vch.imms (v : Vch) (c : Core) : List FVal :=
  (List.range 8).map fun k => FloatFmt.b32.decode (leNat (c.read (16 * v.chain + 32 + 4 * k) 4))

/-- The descriptors and the chain block. -/
def Vch.blocks (v : Vch) : List Span :=
  (16 * v.chain, 64) :: ((v.dst :: v.srcs).filter (· != 0)).map fun a => (16 * a, 32)

def Vch.tensors (v : Vch) (c : Core) : List (Option Tensor) := v.srcs.map fun a => if a = 0 then none else some (c.tensor a)

def vchSpans (c : Core) (w : W128) : Spans :=
  let v := vchOf w
  let d := c.tensor v.dst
  let ts := (v.tensors c).filterMap id
  let src (t : Tensor) : List Span :=
    match Fmt.ofCode t.fmt with
    | some f => if t.tiles ≤ 2 ^ 17 then t.reads c f else []
    | none => []
  ⟨v.blocks ++ ts.flatMap Tensor.needs, ts.flatMap src, match Fmt.ofCode d.fmt with
    | some f => d.writes f
    | none => []⟩

/-! Stage functions (R167, R168). -/

def opPass : Nat := 0x00
def opAdd : Nat := 0x01
def opMul : Nat := 0x02
def opFma : Nat := 0x03
def opMin : Nat := 0x04
def opMax : Nat := 0x05
def opCmp : Nat := 0x06
def opSel : Nat := 0x07
def opCvt : Nat := 0x08
def opMxs : Nat := 0x0E
def opClamp : Nat := 0x0F
def opMask : Nat := 0x10

def fnOf : Nat → Option Fn
  | 0x09 => some .exp2
  | 0x0A => some .log2
  | 0x0B => some .rcp
  | 0x0C => some .rsq
  | 0x0D => some .tanh
  | _ => none

/-- Operands that a stage function uses: A, B, C. -/
def Stage.uses (g : Stage) : List Nat :=
  if g.op = opFma ∨ g.op = opClamp then [g.sa, g.sb, g.sc]
  else if [opAdd, opMul, opMin, opMax, opCmp, opSel, opMask].contains g.op then [g.sa, g.sb]
  else [g.sa]

def wfOf (b : Bool) : FloatFmt := if b then .b64 else .b32
def wfFmt (b : Bool) : Fmt := if b then .binary64 else .binary32

/-- What stands behind a value in a chain: sources with their scales, previous result, saved value, predicate. -/
structure ChainSt where
  srcs : List FVal
  scales : List (Byte × Bool)
  prev : FVal
  saved : FVal
  pred : Bool

/-- An operand (R167). -/
def Stage.operand (g : Stage) (imms : List FVal) (x : ChainSt) (sel immAt : Nat) : FVal :=
  if sel < 4 then x.srcs.getD sel FVal.posZero
  else if sel = 4 then imms.getD ((g.imm + immAt) % 8) FVal.posZero
  else if sel = 5 then x.prev
  else if sel = 6 then x.saved
  else FVal.posZero

/-- P := A pred B (R168). -/
def compareBy (p : Nat) (a b : FVal) : Bool :=
  let un := a.isNan || b.isNan
  match p with
  | 0 => !un && FVal.eq a b
  | 1 => un || !FVal.eq a b
  | 2 => !un && FVal.lt a b
  | 3 => !un && FVal.le a b
  | 4 => !un && FVal.lt b a
  | 5 => !un && FVal.le b a
  | _ => un

/-- A CVT that writes back into the working format (R170). -/
def cvtBack (wf : FloatFmt) (target : Fmt) (mode : RMode) (nonsat : Bool) (a : FVal) : FVal :=
  wf.round (target.decodeElem (narrowElem target mode nonsat a))

/-- One stage; `mode`: its rounding when it is a CVT (R168, R176). (DEDUCED, log 43) -/
def Stage.run (ver : Nat) (g : Stage) (wf : FloatFmt) (imms : List FVal) (mode : RMode) (x : ChainSt) : ChainSt :=
  let a := g.operand imms x g.sa 0
  let b := g.operand imms x g.sb 0
  let c := g.operand imms x g.sc 1
  let r :=
    if g.op = opAdd then wf.add a b
    else if g.op = opMul then wf.mul a b
    else if g.op = opFma then wf.fma a b c
    else if g.op = opMin then FVal.minimum a b
    else if g.op = opMax then FVal.maximum a b
    else if g.op = opSel then (if x.pred then a else b)
    else if g.op = opCvt then cvtBack wf ((Fmt.ofCode g.param).getD .binary32) mode g.nonsat a
    else if g.op = opMxs then
      let sc := (x.scales.getD g.sb (0, false)).1
      if sc = 0xFF#8 then FVal.nan else wf.round (a.scale ((sc.toNat : Int) - 127))
    else if g.op = opClamp then FVal.minimum (FVal.maximum a b) c
    else if g.op = opMask then (if b.isNan || !b.isZero then a else FVal.posZero)
    else
      match fnOf g.op with
      | some f => f.apply ver a
      | none => a
  let pred := if g.op = opCmp then compareBy (g.param % 8) a b else x.pred
  { x with prev := r, saved := if g.save then r else x.saved, pred }

/-! Refusals (R634). -/

/-- Stage k of a chain obeys R167, R168 and R171. -/
def stageBar (srcs : List (Option Tensor)) (wf64 : Bool) (g : Stage) : Bool :=
  decide (0x10 < g.op) || (g.op == opCmp && g.param % 8 == 7)
    || (g.uses.any fun s => decide (s < 4) && ((srcs.getD s none).isNone))
    || (g.op == opMxs && !((srcs.getD g.sb none).any fun t => t.raw && (Fmt.ofCode t.fmt).any Fmt.isMx))
    || (wf64 && (fnOf g.op).isSome)

/-- A CVT stands where R170 allows it. (DEDUCED, log 43) -/
def cvtBar (p : Part) (wf : Fmt) (dst : Fmt) (last : Bool) (g : Stage) : Bool :=
  if g.op = opCvt then
    match fmtOn p g.param with
    | none => true
    | some f => (f.isMx && !(last && f == dst)) || (last && dst != wf && f != dst)
  else last && dst != wf

/-- The first refusal of a chain, stage by stage (R634 step 5). -/
def chainBar (p : Part) (srcs : List (Option Tensor)) (wf64 : Bool) (dst : Fmt) (gs : List Stage) : Option Status :=
  gs.zipIdx.findSome? fun (g, k) =>
    if stageBar srcs wf64 g then some .illegalOperand
    else if cvtBar p (wfFmt wf64) dst (k + 1 == gs.length) g then some .illegalFormat
    else none

/-- Bytes of a source read for the destination tile k (R175): what the tile holds, or its header and one row under a broadcast of rows. -/
def srcBytes (c : Core) (d s : Tensor) (f : Fmt) (k : Nat) : Nat :=
  if s.dim 1 = 1 ∧ d.dim 1 ≠ 1 then 16 + 4 * f.bits
  else
    match (s.tileAt c f (s.place (s.srcIx d (d.ixOf k 0 0))).1).dir with
    | some e => 16 * e.size
    | none => f.denseBytes

/-- Array cycles of a VCH at a share of 160 bytes per cycle, times 160 (R163, R175); a Sorrel destination counts dense tile bytes
(assumption log). -/
def Vch.cycles160 (v : Vch) (c : Core) (d : Tensor) (df : Fmt) (srcs : List (Tensor × Fmt)) (gs : List Stage) : Nat :=
  let least := if v.wf64 || gs.any fun g => (fnOf g.op).isSome then 32 else 16
  let start := 24 + 4 * v.n + (if gs.getLast?.any fun g => g.op == opCvt && df.isMx then 32 else 0)
  160 * start + ((List.range d.tiles).map fun k => max (160 * least) (df.denseBytes + (srcs.map fun s => srcBytes c d s.1 s.2 k).sum)).sum

/-- The refusals of VCH (R634); otherwise its destination format and its sources with their formats. -/
def State.vchBar (s : State) (c : Core) (v : Vch) : Except Status (Fmt × List (Option (Tensor × Fmt))) :=
  let d := c.tensor v.dst
  let srcs := v.tensors c
  let present := srcs.filterMap id
  let gs := v.stages c
  let fmts := (d :: present).filterMap fun t => Fmt.ofCode t.fmt
  let fits := v.blocks ++ present.flatMap Tensor.needs ++ (present.flatMap fun t => ((Fmt.ofCode t.fmt).map fun f => t.reads c f).getD [])
    ++ ((Fmt.ofCode d.fmt).map fun f => d.writes f).getD []
  if v.chain = 0 ∨ v.srcs.headD 0 = 0 ∨ v.dst = 0 then .error .illegalOperand
  else if (List.range 5).any (fun k => d.dim k == 0) ∨ !present.all (·.fits d) then .error .illegalOperand
  else if !fits.all spanFits then .error .illegalOperand
  else if fmts.length ≠ present.length + 1 ∨ !fmts.all (fun f => f.present s.part) then .error .illegalFormat
  else
    let df := (Fmt.ofCode d.fmt).getD .binary32
    match chainBar s.part srcs v.wf64 df gs with
    | some st => .error st
    | none =>
      let withFmt := srcs.map fun t => t.map fun t => (t, (Fmt.ofCode t.fmt).getD .binary32)
      if !s.spansOk c fits ∨ (c.isFiller ∧ 2500 * 160 < v.cycles160 c d df (withFmt.filterMap id) gs) then .error .illegalOperand
      else .ok (df, withFmt)

/-! Sources (R169). -/

/-- A source with its tiles as the decompressor delivers them. -/
structure Source where
  t : Tensor
  f : Fmt
  tiles : Array Tile32

/-- A value enters the working format (R169). -/
def enter (wf64 : Bool) (f : Fmt) (v : FVal) : FVal :=
  if f = .binary64 ∧ !wf64 then FloatFmt.b32.decode (FloatFmt.b32.narrow .rne false v) else (wfOf wf64).round v

/-- The element of a source for an index of the iteration space, and its block's scale. -/
def Source.elem (s : Source) (wf64 : Bool) (d : Tensor) (x : Ix) : FVal × Byte :=
  let (k, r, c) := s.t.place (s.t.srcIx d x)
  match s.tiles[k]? with
  | some t =>
    let code := t.codes.getD (32 * r + c) 0
    (enter wf64 s.f (if s.t.raw then s.f.decodeElem code else t.val r c), t.scaleAt r c)
  | none => (FVal.posZero, 0)

/-- The tiles of the sources, or the failure that counts. -/
def State.loadSources (s : State) (i : Nat) (c : Core) (srcs : List (Option (Tensor × Fmt))) :
    Except (Status × Nat) (List (Option Source)) :=
  let rs : List (Option (Tensor × Fmt × Except (Status × Nat) (List Tile32))) :=
    srcs.map fun o => o.map fun (t, f) => (t, f, s.lsTiles i c f none ((List.range t.tiles).map (t.tileAt c f)))
  let bad := rs.filterMap fun r =>
    match r with
    | some (_, _, .error e) => some e
    | _ => none
  match pickFail bad with
  | some e => .error e
  | none => .ok (rs.map fun r =>
      match r with
      | some (t, f, .ok xs) => some ⟨t, f, xs.toArray⟩
      | _ => none)

/-! Overlaps (R635). -/

/-- In place: same base and dimensions, no directory on either side, the same dense tile bytes. -/
def inPlace (s d : Tensor) (fs fd : Fmt) : Bool :=
  s.pay == d.pay && s.dims == d.dims && !s.sorrel && !d.sorrel && fs.denseBytes == fd.denseBytes

/-- The bytes of an element at (r, c) of the tile at an address: with its scale, and in a Sorrel tensor, the whole tile. -/
def elemSpan (sorrel : Bool) (f : Fmt) (a r c : Nat) : Span :=
  if sorrel || f.isMx then (a, f.denseBytes) else (a + 16 + f.bits * (32 * r + c) / 8, ceilDiv f.bits 8)

def anyMeet (a : List Span) (b : List Span) : Bool := a.any fun x => b.any (rangesMeet x)

/-- The elements that an overlap leaves undefined: for each source that overlaps the destination otherwise than in place, those that lie in the
overlap and those computed from an overlapped byte. (DEDUCED, log 19) -/
def undefinedBy (c : Core) (d : Tensor) (fd : Fmt) (srcs : List (Tensor × Fmt)) : List (Tensor × Fmt) :=
  srcs.filter fun s => !inPlace s.1 d s.2 fd && anyMeet (s.1.reads c s.2) (d.writes fd)

def isUndefined (c : Core) (d : Tensor) (fd : Fmt) (bad : List (Tensor × Fmt)) (x : Ix) : Bool :=
  bad.any fun (s, f) =>
    let (k, r, q) := d.place x
    let mine := elemSpan d.sorrel fd (16 * d.pay + k * fd.denseBytes) r q
    let (k', r', q') := s.place (s.srcIx d x)
    let its := elemSpan s.sorrel f (s.tileAt c f k').addr r' q'
    (s.reads c f).any (rangesMeet mine) || (d.writes fd).any (rangesMeet its)

/-! Writing (R60, R132 to R134, R157). -/

/-- What the compressor has written: the lane, and the summary's counts (tiles, blocks, non-finite tiles, units). -/
structure Writer where
  lane : Lane
  tiles : Nat
  blocks : Nat
  nfTiles : Nat
  units : Nat

/-- Elements of a tile that are inside the tensor and NaN or ±Inf (R122). -/
def tileNf (d : Tensor) (k : Nat) (t : Tile32) : Nat :=
  ((List.range 1024).filter fun i => d.has (d.ixOf k (i / 32) (i % 32)) && (t.val (i / 32) (i % 32)).isNonfinite).length

/-- Tile k of a destination written. -/
def Writer.put (w : Writer) (d : Tensor) (k : Nat) (t : Tile32) : Writer :=
  let size := t.fmt.denseBytes
  let bs := if d.sorrel then compress t else encodeDense t
  let h := parseHdr bs
  let l := w.lane.put (16 * d.pay + k * size) bs
  let l := if d.sorrel then
      l.put (16 * d.dir + 8 * k) (leBytes 8 (DirEntry.word ⟨k * size / 16, bs.length / 16, h.form⟩))
    else l
  { lane := { l with nf := l.nf + tileNf d k t }, tiles := w.tiles + 1, blocks := w.blocks + h.nz
    nfTiles := w.nfTiles + b2n h.nonfinite, units := w.units + bs.length / 16 }

/-- The compressor summary (R134). -/
def Writer.finish (w : Writer) (d : Tensor) (index : Nat) : Lane :=
  let l := w.lane
  let l := if d.sum = 0 then l else
    l.put (16 * d.sum) (leBytes 16 (putBits 127 96 (min w.tiles (2 ^ 32 - 1)) + putBits 95 64 (min w.blocks (2 ^ 32 - 1))
      + putBits 63 40 (min w.nfTiles (2 ^ 24 - 1)) + putBits 39 16 (min w.units (2 ^ 24 - 1))))
  l.note index

/-- A value on its way into a destination element: with its rounding. -/
structure Outgoing where
  v : FVal
  mode : RMode
  nonsat : Bool
  /-- The free value that takes its place (R635). -/
  free : Option Nat
  /-- It lies inside the tensor. -/
  inside : Bool

/-- Where the elements of an MX block lie: row k under axis 0, column k under axis 1. -/
def blockAt (axis : Bool) (k j : Nat) : Nat := if axis then 32 * j + k else 32 * k + j

/-- A destination tile from the values of its 1024 elements (R50 to R52); an undefined value makes its whole MX block inside the tensor
free. (DEDUCED, log 19) -/
def makeTile (f : Fmt) (axis : Bool) (es : Array Outgoing) : Tile32 :=
  let none_ : Outgoing := ⟨FVal.posZero, .rne, false, none, false⟩
  let code (e : Outgoing) (sc : Byte) : Nat :=
    match e.free with
    | some x => x % 2 ^ f.bits
    | none => if f.isMx then mxElem f sc e.mode e.v else narrowElem f e.mode e.nonsat e.v
  let scales : List Byte := (List.range 32).map fun k =>
    let es := (List.range 32).map fun j => es.getD (blockAt axis k j) none_
    if !f.isMx then 0
    else
      match es.findSome? (·.free) with
      | some x => BitVec.ofNat 8 (x / 256)
      | none => mxScale f (es.map (·.v))
  let sa := scales.toArray
  let t : Tile32 := { tileOfCodes f #[] with axis := axis && f.isMx, scales := sa }
  let freed (i : Nat) : Option Nat :=
    if f.isMx then (List.range 32).findSome? fun j => (es.getD (blockAt axis (if axis then i % 32 else i / 32) j) none_).free else none
  let codeAt (i : Nat) : Nat :=
    let e := es.getD i none_
    if !e.inside then (if (freed i).isSome then 0 else code e (t.scaleAt (i / 32) (i % 32)))
    else code { e with free := e.free.orElse fun _ => (freed i).map (· + i) } (t.scaleAt (i / 32) (i % 32))
  { t with codes := (Array.range 1024).map codeAt }

/-! Running (R164 to R177). -/

/-- The rounding of stage k at element e. -/
def Stage.mode (g : Stage) (seed e k instr : Nat) : RMode := if g.stoch then .stoch (stochWord seed e k instr) else .rne

/-- One element through the chain. -/
def chainElem (ver : Nat) (wf64 : Bool) (df : Fmt) (gs : List Stage) (imms : List FVal) (srcs : List (Option Source)) (d : Tensor)
    (seed instr : Nat) (x : Ix) : FVal × RMode × Bool :=
  let wf := wfOf wf64
  let ins := srcs.map fun o => (o.map fun s => s.elem wf64 d x).getD (FVal.posZero, 0)
  let e := d.linear x
  let st0 : ChainSt :=
    { srcs := ins.map (·.1), scales := ins.map fun y => (y.2, true), prev := (ins.headD (FVal.posZero, 0)).1, saved := FVal.posZero, pred := false }
  let body := if df = wfFmt wf64 then gs else gs.dropLast
  let st := body.zipIdx.foldl (fun st (g, k) => g.run ver wf imms (g.mode seed e k instr) st) st0
  if df = wfFmt wf64 then (st.prev, .rne, false)
  else
    match gs.getLast? with
    | some g => (g.operand imms st g.sa 0, g.mode seed e (gs.length - 1) instr, g.nonsat)
    | none => (st.prev, .rne, false)

/-- Element values of tile k of the destination. -/
def outTile (d : Tensor) (k : Nat) (f : Ix → FVal × RMode × Bool) (free : Ix → Option Nat) : Array Outgoing :=
  (Array.range 1024).map fun i =>
    let x := d.ixOf k (i / 32) (i % 32)
    if d.has x then
      let (v, m, ns) := f x
      ⟨v, m, ns, free x, true⟩
    else ⟨FVal.posZero, .rne, false, none, false⟩

/-- VCH at issue and to its end. -/
def State.runVch (s : State) (i : Nat) (c : Core) (e : WinEntry) : InstrEnd :=
  let v := vchOf e.word
  match s.vchBar c v with
  | .error st => .refused st
  | .ok (df, srcs) =>
    if v.blocks.any fun r => s.lsBad i r.1 r.2 then .lostWord
    else
      match s.loadSources i c srcs with
      | .error x => tileFail c x
      | .ok srcs' =>
        let d := c.tensor v.dst
        let seed := (c.hdr.map fun h => h.seed.toNat).getD 0
        let imms := v.imms c
        let gs := v.stages c
        let bad := undefinedBy c d df (srcs.filterMap id)
        let free (x : Ix) : Option Nat := if isUndefined c d df bad x then some (s.free (d.linear x)).toNat else none
        let w := (List.range d.tiles).foldl (fun (w : Writer) k =>
          w.put d k (makeTile df d.axis (outTile d k (chainElem s.upd.running v.wf64 df gs imms srcs' d seed e.index) free))) ⟨Lane.of c, 0, 0, 0, 0⟩
        let l := w.finish d e.index
        .done ⟨l.core, l.wrote, [], if bad.isEmpty then 0 else d.outer * d.dim 1 * d.dim 0, 0⟩

/-- VCH (R164). -/
def execVch (c : CoreId) (h : Health) (s : State) : Host.Outcome State Fault Refusal :=
  .next (s.issue c.idx .vector h (isOp opVch) (fun _ _ => true) fun s k e => s.runVch c.idx k e)

end Sys2Proof.Machine
end

