-- ==== Sys2Proof/Machine/Trd.lean ====
section
/-! DEFINITION. Sys2Proof/Machine/Trd.lean: tile reduce (spec/06 R178 to R181, R634). -/

namespace Sys2Proof.Machine

open Sys2Proof

structure Trd where
  op : Nat
  /-- 1: over columns, one result per row. -/
  axis : Bool
  across : Bool
  wf64 : Bool
  nt : Nat
  rows : Nat
  cols : Nat
  src : Nat
  stride : Nat
  dst : Nat

def trdOf (w : W128) : Trd :=
  let w := w.toNat
  { op := bitsOf w 119 118, axis := bitOf w 117, across := bitOf w 116, wf64 := bitOf w 115, nt := bitsOf w 114 111 + 1
    rows := orAll (bitsOf w 110 106), cols := orAll (bitsOf w 105 101), src := bitsOf w 95 80, stride := bitsOf w 79 64
    dst := bitsOf w 63 48 }

/-- Address of source tile j. -/
def Trd.addr (t : Trd) (j : Nat) : Nat := 16 * (t.src + j * t.stride)

def Trd.headers (t : Trd) : List Span := (List.range t.nt).map fun j => (t.addr j, 16)

/-- The format that the header of source tile j names. -/
def Trd.fmtAt (t : Trd) (c : Core) (j : Nat) : Option Fmt := Fmt.ofCode (parseHdr (c.read (t.addr j) 16)).fmt

/-- Source tiles; a tile in no known format is known by its header alone. -/
def Trd.reads (t : Trd) (c : Core) : List Span :=
  (List.range t.nt).map fun j => (t.addr j, ((t.fmtAt c j).map Fmt.denseBytes).getD 16)

/-- ARGMAX writes INT32, the other operations the working format (R181). -/
def Trd.outFmt (t : Trd) : Fmt := if t.op = 3 then .int32 else wfFmt t.wf64

def Trd.outAt (t : Trd) (j : Nat) : Nat := 16 * t.dst + j * t.outFmt.denseBytes

def Trd.results (t : Trd) : Nat := if t.across then 1 else t.nt

def Trd.writes (t : Trd) : List Span := (List.range t.results).map fun j => (t.outAt j, t.outFmt.denseBytes)

def trdSpans (c : Core) (w : W128) : Spans :=
  let t := trdOf w
  ⟨t.headers.filter spanFits, t.reads c, t.writes⟩

/-- MAX and MIN (R168), and ARGMAX by the order of R180: a NaN first, then the largest with +0 above −0, the lowest index of equals. -/
def better (a b : Nat × FVal) : Nat × FVal :=
  if a.2.isNan then a
  else if b.2.isNan then b
  else if FVal.lt a.2 b.2 || (FVal.eq a.2 b.2 && a.2.sign && !b.2.sign) then b else a

/-- The result of numbered lanes; `lanes`: those inside (R180). -/
def reduceLanes (op : Nat) (lanes : List (Nat × FVal)) : FVal :=
  match lanes with
  | [] => if op = 3 then FVal.ofInt (-1) 0 else FVal.posZero
  | x :: xs =>
    if op = 1 then xs.foldl (fun a y => FVal.maximum a y.2) x.2
    else if op = 2 then xs.foldl (fun a y => FVal.minimum a y.2) x.2
    else FVal.ofInt ((xs.foldl better x).1 : Int) 0

/-- Lanes of result q of a tile, in the working format: those outside VROWS or VCOLS are none. -/
def Trd.lanes (t : Trd) (x : Tile32) (q : Nat) : List (Option FVal) :=
  (List.range 32).map fun lane =>
    let r := if t.axis then q else lane
    let c := if t.axis then lane else q
    if r < t.rows ∧ c < t.cols then some (enter t.wf64 x.fmt (x.val r c)) else none

def Trd.sumOf (t : Trd) (x : Tile32) (q : Nat) : FVal :=
  tree (wfOf t.wf64).add FVal.posZero ((t.lanes x q).map fun v => v.getD FVal.posZero)

/-- The lanes inside, numbered 32j + lane over the tiles. -/
def Trd.numbered (t : Trd) (xs : List Tile32) (q : Nat) : List (Nat × FVal) :=
  xs.zipIdx.flatMap fun (x, j) => (t.lanes x q).zipIdx.filterMap fun (v, l) => v.map fun v => (32 * j + l, v)

/-- Result q of a set of source tiles (R180, R181). -/
def Trd.result (t : Trd) (xs : List Tile32) (q : Nat) : FVal :=
  if t.op = 0 then tree (wfOf t.wf64).add FVal.posZero (xs.map fun x => t.sumOf x q) else reduceLanes t.op (t.numbered xs q)

/-- A result tile: row 0 under AXIS = 0, column 0 under AXIS = 1 (R181). -/
def Trd.tile (t : Trd) (xs : List Tile32) : Tile32 :=
  let rs := (List.range 32).map fun q => narrowElem t.outFmt .rne true (t.result xs q)
  let at_ (i : Nat) : Nat := if t.axis then (if i % 32 = 0 then rs.getD (i / 32) 0 else 0) else (if i < 32 then rs.getD i 0 else 0)
  tileOfCodes t.outFmt ((Array.range 1024).map at_)

/-- The refusals of TRD before its headers are read (R179, R634). -/
def Trd.outside (t : Trd) (c : Core) : Bool :=
  (t.headers ++ t.reads c).any (fun r => !spanFits r || decide (r.1 < trfBase)) || t.writes.any fun r => !spanFits r

/-- TRD (R178 to R181). A source format that the vector engine does not accept is refused with ILLEGAL_FORMAT, as R36, R68 and R634 say; R179 lists it
under ILLEGAL_OPERAND (DEDUCED, log 18). (DEDUCED, log 43) -/
def State.runTrd (s : State) (i : Nat) (c : Core) (e : WinEntry) : InstrEnd :=
  let t := trdOf e.word
  if t.outside c then .refused .illegalOperand
  else if t.headers.any fun r => s.lsBad i r.1 r.2 then .lostWord
  else if (List.range t.nt).any fun j => (t.fmtAt c j).all fun f => !f.present s.part then .refused .illegalFormat
  else if c.isFiller ∨ !s.spansOk c t.writes then .refused .illegalOperand
  else
    let rs := (List.range t.nt).map fun j => (t.addr j, s.lsTile i c ((t.fmtAt c j).getD .binary32) none ⟨t.addr j, none⟩)
    let bad := rs.filterMap fun r =>
      match r.2 with
      | .error st => some (st, r.1)
      | .ok _ => none
    match pickFail bad with
    | some x => tileFail c x
    | none =>
      let xs := rs.filterMap fun r => r.2.toOption
      let outs := if t.across then [xs] else xs.map fun x => [x]
      let l := outs.zipIdx.foldl (fun (l : Lane) (g, j) =>
        let o := t.tile g
        let l := l.put (t.outAt j) (encodeDense o)
        { l with nf := l.nf + (o.codes.toList.filter fun w => (t.outFmt.decodeElem w).isNonfinite).length }) (Lane.of c)
      let l := l.note e.index
      .done ⟨l.core, l.wrote, [], 0, 0⟩

/-- TRD (R178). -/
def execTrd (c : CoreId) (h : Health) (s : State) : Host.Outcome State Fault Refusal :=
  .next (s.issue c.idx .vector h (isOp opTrd) (fun _ _ => true) fun s k e => s.runTrd c.idx k e)

end Sys2Proof.Machine
end

