-- ==== Sys2Proof/Machine/Row.lean ====
section
/-! DEFINITION. Sys2Proof/Machine/Row.lean: the row engine and the side memory (spec/06 R182 to R193, R634, R635). -/

namespace Sys2Proof.Machine

open Sys2Proof

/-! Side memory (R190 to R192). -/

def RowSet.granules (r : RowSet) : Nat := ceilDiv r.rows 64

/-- Bytes of a granule: 64 records. -/
def granuleBytes : Nat := 512

def SideMem.has (m : SideMem) : Nat := (m.sets.map RowSet.granules).sum

/-- A set freed (R191, R192). -/
def SideMem.free (m : SideMem) (tag : Nat) : SideMem :=
  ⟨m.sets.filter fun r => r.tag != tag, m.spilled.filter fun r => r.tag != tag⟩

/-- The granules of a ring (base and bytes) that no spilled set takes, ascending. -/
def freeSlots (ring : Nat × Nat) (sp : List RowSet) : List Nat :=
  ((List.range (ring.2 / granuleBytes)).map fun k => ring.1 + granuleBytes * k).filter fun a =>
    !(sp.any fun r => r.place.any fun b => decide (a < b + granuleBytes ∧ b < a + granuleBytes))

/-- Resident sets leave from the earliest inserted on, until `need` granules and an entry are free: one with STAT is dropped, another is copied to the
ring; none: the ring cannot take it (R191). The manual gives no size or place of a set in the ring: it takes whole granules of 512 bytes, the lowest
free ones. (DESIGN CHOICE, log 60) -/
def roomFor (ring : Nat × Nat) (need : Nat) : List RowSet → List RowSet → Option SideMem
  | [], sp => if sp.length < 64 then some ⟨[], sp⟩ else none
  | x :: xs, sp =>
    if ((x :: xs).map RowSet.granules).sum + need ≤ 512 ∧ (x :: xs).length + sp.length < 64 then some ⟨x :: xs, sp⟩
    else if x.stat then roomFor ring need xs sp
    else if x.granules ≤ (freeSlots ring sp).length then
      roomFor ring need xs (sp ++ [{ x with place := (freeSlots ring sp).take x.granules }])
    else none

/-- The side memory with room for a set of `need` granules under a tag. -/
def SideMem.room (m : SideMem) (ring : Nat × Nat) (tag need : Nat) : Option SideMem :=
  let m := m.free tag
  roomFor ring need m.sets m.spilled

/-- The pieces of a spilled set's records: where each granule's lie, and how many bytes. -/
def RowSet.pieces (r : RowSet) : List Span :=
  r.place.zipIdx.map fun (a, k) => (a, min granuleBytes (8 * r.rows - granuleBytes * k))

/-- A set's records: its own while it is resident, the ring's bytes once it has been spilled (R192). -/
def RowSet.load (r : RowSet) (c : Core) : List Byte :=
  if r.place.isEmpty then r.records else r.pieces.flatMap fun p => c.read p.1 p.2

/-- The set of a tag: resident, else spilled (R192). -/
def SideMem.find (m : SideMem) (tag : Nat) : Option RowSet :=
  (m.sets ++ m.spilled).find? fun r => r.tag == tag

/-! RWF and RWB (R182, R183). -/

structure RowOp where
  back : Bool
  fn : Nat
  release : Bool
  keep : Bool
  tag : Nat
  x : Nat
  /-- Y of RWF, dY of RWB. -/
  y : Nat
  /-- dX of RWB. -/
  dx : Nat
  block : Nat

def rowOf (w : W128) : RowOp :=
  let op := opcodeOf w
  let w := w.toNat
  let back := op == opRwb
  { back, fn := bitsOf w 119 118, release := back && bitOf w 117, keep := !back && bitOf w 116, tag := bitsOf w 111 96
    x := bitsOf w 95 80, y := bitsOf w 79 64, dx := if back then bitsOf w 63 48 else 0
    block := if back then bitsOf w 47 32 else bitsOf w 63 48 }

/-- The parameter block (R183); none named: every address 0, ε = 0, τ = 1. -/
structure RowParams where
  gamma : Nat
  beta : Nat
  stat : Nat
  dgamma : Nat
  dbeta : Nat
  epsTau : FVal

def RowOp.params (o : RowOp) (c : Core) : RowParams :=
  if o.block = 0 then ⟨0, 0, 0, 0, 0, if o.fn = 2 then FVal.one else FVal.posZero⟩
  else
    let w := leNat (c.read (16 * o.block) 32)
    let norm := o.fn != 2
    ⟨if norm then bitsOf w 255 240 else 0, if norm && !o.back then bitsOf w 239 224 else 0, bitsOf w 223 208
      , if norm && o.back then bitsOf w 207 192 else 0, if norm && o.back then bitsOf w 191 176 else 0
      , FloatFmt.b32.decode (bitsOf w 159 128)⟩

/-- The tensors of an instruction. -/
structure RowTensors where
  x : Tensor
  dy : Option Tensor
  gamma : Option Tensor
  beta : Option Tensor
  dst : Tensor

def RowOp.tensors (o : RowOp) (c : Core) : RowTensors :=
  let p := o.params c
  let opt (a : Nat) : Option Tensor := if a = 0 then none else some (c.tensor a)
  { x := c.tensor o.x, dy := if o.back then some (c.tensor o.y) else none, gamma := opt p.gamma, beta := opt p.beta
    dst := c.tensor (if o.back then o.dx else o.y) }

def RowTensors.sources (t : RowTensors) : List Tensor := t.x :: (t.dy.toList ++ t.gamma.toList ++ t.beta.toList)

/-- Descriptors and parameter block. -/
def RowOp.blocks (o : RowOp) (c : Core) : List Span :=
  let p := o.params c
  ([o.x, o.y, o.dx, o.block, p.gamma, p.beta].filter (· != 0)).map fun a => (16 * a, 32)

def Tensor.rows (t : Tensor) : Nat := t.dim 1 * t.outer

/-- The statistics array, 8 bytes per row (R185). -/
def RowParams.statSpan (p : RowParams) (rows : Nat) : List Span := if p.stat = 0 then [] else [(16 * p.stat, 8 * rows)]

/-- The arrays of dγ and dβ, N binary64 values each (R183). -/
def RowParams.gradSpans (p : RowParams) (n : Nat) : List Span :=
  ([p.dgamma, p.dbeta].filter (· != 0)).map fun a => (16 * a, 8 * n)

/-- What sources and destination touch in formats that are known. -/
def srcSpans (c : Core) (ts : List Tensor) : List Span :=
  ts.flatMap fun t => ((Fmt.ofCode t.fmt).map fun f => t.reads c f).getD []

def dstSpans (t : Tensor) : List Span := ((Fmt.ofCode t.fmt).map fun f => t.writes f).getD []

/-- Rows that a row set may have (R184). -/
def rowLimit : Nat := 32768

def RowOp.reads (o : RowOp) (c : Core) : List Span :=
  let t := o.tensors c
  let p := o.params c
  if rowLimit < t.x.rows then []
  else srcSpans c t.sources ++ if o.back then p.statSpan t.x.rows else []

def RowOp.writes (o : RowOp) (c : Core) : List Span :=
  let t := o.tensors c
  let p := o.params c
  dstSpans t.dst ++ if o.back then p.gradSpans (t.x.dim 0) else p.statSpan t.x.rows

def rowSpans (c : Core) (w : W128) : Spans :=
  let o := rowOf w
  ⟨o.blocks c ++ (o.tensors c).sources.flatMap Tensor.needs, o.reads c, o.writes c⟩

/-! Refusals at issue (R184, R634). -/

/-- X and dY; Y, dX, γ and β (R184). -/
def rowIn (f : Fmt) : Bool := [Fmt.binary32, .binary16, .bfloat16, .fp8E4M3, .fp8E5M2].contains f
def rowOut (f : Fmt) : Bool := [Fmt.binary32, .binary16, .bfloat16].contains f

def RowTensors.shapesOk (t : RowTensors) : Bool :=
  t.x.dims.all (· != 0) && decide (t.x.rows ≤ rowLimit) && (t.dst.dims == t.x.dims) && t.dy.all (fun d => d.dims == t.x.dims)
    && (t.gamma.toList ++ t.beta.toList).all fun g => g.dims == [t.x.dim 0, 1, 1, 1, 1]

def RowTensors.formatsOk (t : RowTensors) : Bool :=
  (t.x :: t.dy.toList).all (fun d => (Fmt.ofCode d.fmt).any rowIn)
    && (t.dst :: (t.gamma.toList ++ t.beta.toList)).all fun d => (Fmt.ofCode d.fmt).any rowOut

/-- The bytes of a row in a tensor. -/
def Tensor.rowBytes (t : Tensor) : Nat := t.dim 0 * ((Fmt.ofCode t.fmt).map Fmt.bits).getD 0 / 8

/-- Array cycles at a share of 160 bytes per cycle, times 160 (R163, R189). The manual does not say which bytes each pass moves: a pass but the last
reads X alone, the last all sources and writes the destination; both passes of RWB read X, dY and γ in full; Sorrel rows count dense, and STAT and
gradient arrays count nothing. (DESIGN CHOICE, log 61) -/
def RowOp.cycles160 (o : RowOp) (t : RowTensors) : Nat :=
  let x := t.x.rowBytes
  let all := (t.sources.map Tensor.rowBytes).sum
  let passes :=
    if o.back then [all, all + t.dst.rowBytes]
    else if o.fn = 1 then [x, all + t.dst.rowBytes]
    else [x, x, all + t.dst.rowBytes]
  160 * 40 + t.x.rows * (160 * 12 + (passes.map fun b => max (160 * ceilDiv (t.x.dim 0) 32) b).sum)

/-- The records that an RWB uses: those of its set, or of its STAT array; none: neither (R192, R193). -/
def RowOp.lookup (o : RowOp) (c : Core) (p : RowParams) (t : RowTensors) : Except Status (List Byte) :=
  let stat : Except Status (List Byte) := if p.stat = 0 then .error .statsMissing else .ok (c.read (16 * p.stat) (8 * t.x.rows))
  if c.isFiller then stat
  else
    match c.side.find o.tag with
    | some r => if r.fn = o.fn ∧ r.n = t.x.dim 0 then .ok (r.load c) else .error .illegalOperand
    | none => stat

/-- The side-spill ring of the core's item: base and bytes (R191, R482). -/
def Core.ring (c : Core) : Nat × Nat := (16 * (c.hdr.map (·.sideBase)).getD 0, 16 * (c.hdr.map (·.sideUnits)).getD 0)

/-- The refusals of RWF and RWB; otherwise the side memory made ready for a set to be kept, and the records an RWB uses. (DEDUCED, log 44) -/
def State.rowBar (s : State) (c : Core) (o : RowOp) : Except Status (SideMem × List Byte) :=
  let p := o.params c
  let t := o.tensors c
  let spans := o.blocks c ++ t.sources.flatMap Tensor.needs ++ o.reads c ++ o.writes c
  if o.fn = 3 ∨ o.x = 0 ∨ o.y = 0 ∨ (o.back ∧ o.dx = 0) then .error .illegalOperand
  else if !t.shapesOk ∨ !spans.all spanFits then .error .illegalOperand
  else if !t.formatsOk then .error .illegalFormat
  else if !s.spansOk c spans ∨ (c.isFiller ∧ (o.keep ∨ 2500 * 160 < o.cycles160 t)) then .error .illegalOperand
  else if o.back then (o.lookup c p t).map fun r => (c.side, r)
  else if o.keep then
    match c.side.room c.ring o.tag (ceilDiv t.x.rows 64) with
    | some m => .ok (m, [])
    | none => .error .sideFull
  else .ok (c.side, [])

/-! Arithmetic (R186, R187). -/

def f32 (v : FVal) : FVal := FloatFmt.b32.round v

/-- A sum in binary64, in ascending order. -/
def b64Sum (l : List FVal) : FVal := l.foldl FloatFmt.b64.add FVal.posZero

/-- A binary64 value divided by n. -/
def byN (v : FVal) (n : Nat) : FVal := FloatFmt.b64.div v (FVal.ofInt n 0)

/-- log2 e in binary32 (R186). -/
def log2e32 : FVal := FloatFmt.b32.decode 0x3FB8AA3B

def isNegInf : FVal → Bool
  | .inf n => n
  | _ => false

/-- e_j of the soft-maximum. -/
def softE (ver : Nat) (tau m x : FVal) : FVal :=
  let z := FloatFmt.b32.mul tau x
  Fn.exp2.apply ver (FloatFmt.b32.mul (FloatFmt.b32.sub z m) log2e32)

/-- The record of a row. -/
def rowStat (ver fn : Nat) (eps : FVal) (xs : List FVal) : FVal × FVal :=
  let n := xs.length
  let root (v : FVal) : FVal := f32 (FloatFmt.b64.div FVal.one (FloatFmt.b64.sqrt (FloatFmt.b64.add v eps)))
  let square (v : FVal) : FVal := FVal.mul v v
  if fn = 0 then
    let mu64 := byN (b64Sum xs) n
    let v64 := byN (b64Sum (xs.map fun x => square (FloatFmt.b32.sub x mu64))) n
    (f32 mu64, root v64)
  else if fn = 1 then (FVal.posZero, root (byN (b64Sum (xs.map square)) n))
  else
    match xs.map (FloatFmt.b32.mul eps) with
    | [] => (FVal.posZero, FVal.posZero)
    | z :: zs =>
      let m := zs.foldl FVal.maximum z
      if isNegInf m then (m, FVal.posZero) else (m, f32 (b64Sum (xs.map (softE ver eps m))))

/-- xh_j of a normalisation, y_j of the soft-maximum. -/
def rowHat (ver fn : Nat) (tau : FVal) (st : FVal × FVal) (x : FVal) : FVal :=
  if fn = 0 then FloatFmt.b32.mul (FloatFmt.b32.sub x st.1) st.2
  else if fn = 1 then FloatFmt.b32.mul x st.2
  else if isNegInf st.1 then FVal.posZero
  else FloatFmt.b32.mul (softE ver tau st.1 x) (Fn.rcp.apply ver st.2)

/-- The row's Y. (DEDUCED, log 44) -/
def rowForward (ver fn : Nat) (tau : FVal) (st : FVal × FVal) (xs gs bs : List FVal) : List FVal :=
  let hs := xs.map (rowHat ver fn tau st)
  if fn = 2 then hs else (hs.zip (gs.zip bs)).map fun (h, g, b) => FloatFmt.b32.fma h g b

/-- The row's dX. (DEDUCED, log 44) -/
def rowBackward (ver fn : Nat) (tau : FVal) (st : FVal × FVal) (xs dys gs : List FVal) : List FVal :=
  let n := xs.length
  let hs := xs.map (rowHat ver fn tau st)
  if fn = 2 then
    let c := f32 (b64Sum ((hs.zip dys).map fun (y, d) => FVal.mul y d))
    if isNegInf st.1 then hs
    else (hs.zip dys).map fun (y, d) => FloatFmt.b32.mul tau (FloatFmt.b32.mul y (FloatFmt.b32.sub d c))
  else
    let g := (dys.zip gs).map fun (d, g) => FloatFmt.b32.mul d g
    let a := if fn = 1 then FVal.posZero else f32 (byN (b64Sum g) n)
    let b := f32 (byN (b64Sum ((g.zip hs).map fun (g, h) => FVal.mul g h)) n)
    (g.zip hs).map fun (g, h) => FloatFmt.b32.mul st.2 (FloatFmt.b32.fma h.negate b (FloatFmt.b32.sub g a))

/-! Overlaps (R635). -/

/-- Which values an overlap leaves undefined: a row's results, the record that STAT keeps of it, an element of Y or dX, dγ and dβ of a column. -/
structure RowUndef where
  row : Nat → Bool
  record : Nat → Bool
  elem : Ix → Bool
  gamma : Nat → Bool
  beta : Nat → Bool

def RowUndef.none : RowUndef := ⟨fun _ => false, fun _ => false, fun _ => false, fun _ => false, fun _ => false⟩

/-- The arrays beside the tensors, each with its address, 0 for none: STAT as a source of RWB, and as destinations STAT of RWF, dγ and dβ of RWB. -/
structure RowArrays where
  statIn : Nat
  statOut : Nat
  dgamma : Nat
  dbeta : Nat

/-- 8-byte values of an array. -/
def arraySpan (a n : Nat) : List Span := if a = 0 then [] else [(16 * a, 8 * n)]

/-- What R635 leaves undefined of a row instruction: destination bytes that a source overlaps, otherwise than in place, and all that is computed from an
overlapped source byte. `main`: X and dY; `params`: γ and β. A row's results come from its whole row, its record and γ; dγ and dβ of a column from the
column, dγ from every record too. (DEDUCED, log 19) -/
def rowUndef (c : Core) (d : Tensor) (fd : Fmt) (main params : List (Tensor × Fmt)) (a : RowArrays) : RowUndef :=
  let n := d.dim 0
  let arraysOut := arraySpan a.statOut d.rows ++ arraySpan a.dgamma n ++ arraySpan a.dbeta n
  let clear (s : Tensor × Fmt) : Bool := inPlace s.1 d s.2 fd
  let onto (s : Tensor × Fmt) : List Span := if main.contains s && clear s then arraysOut else d.writes fd ++ arraysOut
  let statIn := arraySpan a.statIn d.rows
  if !((main ++ params).any fun s => anyMeet (s.1.reads c s.2) (onto s)) && !anyMeet statIn (d.writes fd ++ arraysOut) then RowUndef.none
  else
    let hit (s : Tensor × Fmt) (x : Ix) : Bool :=
      let (k, r, q) := s.1.place x
      (onto s).any (rangesMeet (elemSpan s.1.sorrel s.2 (s.1.tileAt c s.2 k).addr r q))
    let at_ (row j : Nat) : Ix := ⟨row / d.dim 1, row % d.dim 1, j⟩
    let recIn (r : Nat) : Bool := a.statIn != 0 && (d.writes fd ++ arraysOut).any (rangesMeet (16 * a.statIn + 8 * r, 8))
    let mainAt (r j : Nat) : Bool := main.any fun s => hit s (at_ r j)
    let row (r : Nat) : Bool := recIn r || (List.range n).any (mainAt r)
    let param (j : Nat) : Bool := params.any fun s => hit s ⟨0, 0, j⟩
    let mine (x : Ix) : Span :=
      let (k, r, q) := d.place x
      elemSpan d.sorrel fd (16 * d.pay + k * fd.denseBytes) r q
    let srcs (ss : List (Tensor × Fmt)) : List Span := ss.flatMap (fun s => s.1.reads c s.2) ++ statIn
    let meetsDst (x : Ix) : Bool := (srcs ((main.filter fun s => !clear s) ++ params)).any (rangesMeet (mine x))
    let meetsArray (base j : Nat) : Bool := (srcs (main ++ params)).any (rangesMeet (16 * base + 8 * j, 8))
    let col (j : Nat) : Bool := (List.range d.rows).any fun r => mainAt r j
    { row
      record := fun r => row r || meetsArray a.statOut r
      elem := fun x => row (x.o * d.dim 1 + x.i1) || (List.range n).any param || meetsDst x
      gamma := fun j => col j || (List.range d.rows).any recIn || meetsArray a.dgamma j
      beta := fun j => col j || meetsArray a.dbeta j }

/-! Running. -/

/-- The values of a row of a source. -/
def Source.row (x : Source) (d : Tensor) (r : Nat) : List FVal :=
  (List.range (d.dim 0)).map fun j => (x.elem false d ⟨r / d.dim 1, r % d.dim 1, j⟩).1

def Source.params (x : Option Source) (n : Nat) (absent : FVal) : List FVal :=
  match x with
  | some x => (List.range n).map fun j => (x.elem false x.t ⟨0, 0, j⟩).1
  | none => List.replicate n absent

/-- The record of row r in a list of records; one that the list does not hold is a free value. -/
def recordAt (s : State) (free : Nat) (bs : List Byte) (r : Nat) : FVal × FVal :=
  let b := slice bs (8 * r) 8
  let w := if b.length = 8 then leNat b else (s.free (free + r)).toNat
  (FloatFmt.b32.decode (w % 2 ^ 32), FloatFmt.b32.decode (w / 2 ^ 32))

def recordBytes (st : FVal × FVal) : List Byte := leBytes 4 (FloatFmt.b32.encode st.1) ++ leBytes 4 (FloatFmt.b32.encode st.2)

/-- Evicted sets copied to the ring (R191): their records leave the side memory for its granules. -/
def Lane.spillSets (l : Lane) (sp : List RowSet) : Lane × List RowSet :=
  sp.foldl (fun acc r =>
    let l := r.pieces.zipIdx.foldl (fun (l : Lane) p => l.put p.1.1 (slice r.records (granuleBytes * p.2) p.1.2)) acc.1
    (if r.records.isEmpty then acc.1 else l, acc.2 ++ [{ r with records := [] }])) (l, [])

/-- RWF and RWB at issue and to their end. -/
def State.runRow (s : State) (i : Nat) (c : Core) (e : WinEntry) : InstrEnd :=
  let o := rowOf e.word
  match s.rowBar c o with
  | .error st => .refused st
  | .ok (side, held) =>
    let p := o.params c
    let t := o.tensors c
    let rows := t.x.rows
    let n := t.x.dim 0
    let fmt (t : Tensor) : Fmt := (Fmt.ofCode t.fmt).getD .binary32
    let kept := if c.isFiller then none else c.side.find o.tag
    let statReads := if !o.back then [] else (kept.map RowSet.pieces).getD (p.statSpan rows)
    let set (records : List Byte) (l : Lane) : Lane :=
      if o.keep then
        let (l, spilled) := l.spillSets side.spilled
        { l with core := { l.core with side := ⟨side.sets ++ [⟨o.tag, o.fn, n, rows, p.stat != 0, records, []⟩], spilled⟩ } }
      else l
    if (o.blocks c ++ statReads).any fun r => s.lsBad i r.1 r.2 then .lostWord
    else
      let fd := fmt t.dst
      match s.loadSources i c ([some t.x, t.dy, t.gamma, t.beta].map fun x => x.map fun x => (x, fmt x)) with
      | .error (st, a) =>
        if st = .memUncorrectable then .lostWord else .failed (set [] (Lane.of c)).core st none a none 0
      | .ok srcs =>
        let src (k : Nat) : Option Source := srcs.getD k none
        let u := rowUndef c t.dst fd ((t.x :: t.dy.toList).map fun x => (x, fmt x)) ((t.gamma.toList ++ t.beta.toList).map fun x => (x, fmt x))
          ⟨if o.back && kept.isNone then p.stat else 0, if o.back then 0 else p.stat, p.dgamma, p.dbeta⟩
        let ver := s.upd.running
        let gs := Source.params (src 2) n FVal.one
        let bs := Source.params (src 3) n FVal.posZero
        let rowsOf (k : Nat) : Array (List FVal) := ((List.range rows).map fun r => ((src k).map fun x => x.row t.x r).getD []).toArray
        let xs := rowsOf 0
        let dys := rowsOf 1
        let xRow (r : Nat) : List FVal := xs.getD r []
        let dyRow (r : Nat) : List FVal := dys.getD r []
        let d0 := 0
        let st (r : Nat) : FVal × FVal := if o.back then recordAt s d0 held r else rowStat ver o.fn p.epsTau (xRow r)
        let sts := (List.range rows).map st
        let records (bad : Nat → Bool) : List Byte :=
          sts.zipIdx.flatMap fun (x, r) => if bad r then leBytes 8 (s.free (d0 + r)).toNat else recordBytes x
        let out := (sts.zipIdx.map fun (x, r) =>
          (if o.back then rowBackward ver o.fn p.epsTau x (xRow r) (dyRow r) gs else rowForward ver o.fn p.epsTau x (xRow r) gs bs).toArray).toArray
        let d1 := d0 + rows
        let d2 := d1 + rows * n
        let value (x : Ix) : FVal × RMode × Bool := ((out.getD (x.o * t.x.dim 1 + x.i1) #[]).getD x.i0 FVal.posZero, .rne, false)
        let free (x : Ix) : Option Nat := if u.elem x then some (s.free (d1 + t.dst.linear x)).toNat else none
        let w := (List.range t.dst.tiles).foldl (fun (w : Writer) k => w.put t.dst k (makeTile fd t.dst.axis (outTile t.dst k value free)))
          ⟨Lane.of c, 0, 0, 0, 0⟩
        let l := w.finish t.dst e.index
        let column (f : FVal × FVal → List FVal → List FVal → Nat → FVal) (j : Nat) : FVal :=
          b64Sum (sts.zipIdx.map fun (x, r) => f x (xRow r) (dyRow r) j)
        let grad (a base : Nat) (bad : Nat → Bool) (f : FVal × FVal → List FVal → List FVal → Nat → FVal) (l : Lane) : Lane :=
          if a = 0 then l
          else l.put (16 * a) ((List.range n).flatMap fun j =>
            leBytes 8 (if bad j then (s.free (base + j)).toNat else FloatFmt.b64.encode (column f j)))
        let l :=
          if o.back then
            grad p.dbeta (d2 + n) u.beta (fun _ _ dys j => dys.getD j FVal.posZero)
              (grad p.dgamma d2 u.gamma (fun x xs dys j => FVal.mul (dys.getD j FVal.posZero) (rowHat ver o.fn p.epsTau x (xs.getD j FVal.posZero))) l)
          else if p.stat = 0 then l else l.put (16 * p.stat) (records u.record)
        let l := set (records u.row) l
        let l := if o.release && !c.isFiller then { l with core := { l.core with side := l.core.side.free o.tag } } else l
        .done ⟨l.core, l.wrote, [], d2 + 2 * n, 0⟩

/-- RWF (R186). -/
def execRwf (c : CoreId) (h : Health) (s : State) : Host.Outcome State Fault Refusal :=
  .next (s.issue c.idx .row h (isOp opRwf) (fun _ _ => true) fun s k e => s.runRow c.idx k e)

/-- RWB (R186, R192). -/
def execRwb (c : CoreId) (h : Health) (s : State) : Host.Outcome State Fault Refusal :=
  .next (s.issue c.idx .row h (isOp opRwb) (fun _ _ => true) fun s k e => s.runRow c.idx k e)

end Sys2Proof.Machine
end

