-- ==== Sys2Proof/Machine/Dma.lean ====
section
/-! DEFINITION. Sys2Proof/Machine/Dma.lean: DMV (spec/09 R264, R267 to R275, R278; spec/08 R243) and INSTRUCTION_FETCH over all instructions
(spec/03 R88, R91). -/

namespace Sys2Proof.Machine

open Sys2Proof

/-- A DMA descriptor (R269). Addresses are in bytes, local-store ones too. -/
structure Move where
  word : Nat
  kind : Nat
  srcLs : Bool
  dstLs : Bool
  src : Nat
  dst : Nat
  srcDir : Nat
  dstDir : Nat
  cbEntry : Nat
  fmt : Nat
  sorrel : Bool
  compact : Bool
  transpose : Bool
  cb : Bool
  tc : Nat
  rows : Nat
  srcStride : Nat
  dstStride : Nat
  row0 : Nat
  len : Nat

def parseMove (w : Nat) : Move :=
  let srcLs := bitOf w 268
  let dstLs := bitOf w 267
  let side (ls : Bool) (a : Nat) : Nat := if ls then 16 * (a % 2 ^ 16) else a
  { word := w, kind := bitsOf w 271 269, srcLs, dstLs
    src := side srcLs (bitsOf w 511 464), dst := side dstLs (bitsOf w 463 416)
    srcDir := side srcLs (bitsOf w 415 368), dstDir := side dstLs (bitsOf w 367 320)
    cbEntry := bitsOf w 319 272, fmt := bitsOf w 266 262, sorrel := bitOf w 261, compact := bitOf w 260, transpose := bitOf w 259
    cb := bitOf w 258, tc := bitsOf w 255 244 + 1, rows := bitsOf w 243 228 + 1, srcStride := bitsOf w 227 204
    dstStride := bitsOf w 203 180, row0 := bitsOf w 179 156, len := bitsOf w 127 96 }

def dmvAddr (w : W128) : Nat := 16 * bitsOf w.toNat 119 104

def Core.move (c : Core) (w : W128) : Move := parseMove (leNat (c.read (dmvAddr w) 64))

def Move.d (m : Move) : Nat := ((Fmt.ofCode m.fmt).map Fmt.denseBytes).getD 0

/-- Source and destination index of tile (r, c) (R271, R272). -/
def Move.srcIx (m : Move) (r c : Nat) : Nat := r * m.srcStride + c
def Move.dstIx (m : Move) (r c : Nat) : Nat := if m.transpose then c * m.dstStride + r else r * m.dstStride + c

def Move.cells (m : Move) (rows : Nat) : List (Nat × Nat) := (List.range rows).flatMap fun r => (List.range m.tc).map fun c => (r, c)

/-! One side of a move. -/

/-- A range of one side: in the local store or not, address, bytes, whether it is written. -/
structure Reach where
  ls : Bool
  addr : Nat
  n : Nat
  write : Bool

def State.sideBytes (s : State) (i : Nat) (ls : Bool) (a n : Nat) : List Byte := if ls then (s.core i).read a n else s.readMem a n

def State.sideMarked (s : State) (i : Nat) (ls : Bool) (a n : Nat) : Bool := if ls then s.lsBad i a n else marked s.keep.marks a n

def State.putSide (s : State) (i : Nat) (ls : Bool) (a : Nat) (bs : List Byte) : State :=
  if ls then (s.setCore i ((s.core i).write a bs)).lsWrote i [(a, bs.length)] else s.writeMem a bs

/-- Ranges whose place the descriptor alone gives: bytes, tile rows, directory rows, the count-bound entry. -/
def Move.fixed (m : Move) : List Reach :=
  if m.kind = 0 then [⟨m.srcLs, m.src, 16 * m.len, false⟩, ⟨m.dstLs, m.dst, 16 * m.len, true⟩]
  else
    let rs := List.range m.rows
    let cs := List.range m.tc
    (if m.cb then [⟨false, m.cbEntry, 32, false⟩] else [])
      ++ if m.sorrel then
          (rs.map fun r => ⟨m.srcLs, m.srcDir + 8 * r * m.srcStride, 8 * m.tc, false⟩)
            ++ rs.map fun r => ⟨m.dstLs, m.dstDir + 8 * r * m.dstStride, 8 * m.tc, true⟩
        else
          (rs.map fun r => ⟨m.srcLs, m.src + r * m.srcStride * m.d, m.tc * m.d, false⟩)
            ++ if m.transpose then cs.map fun c => ⟨m.dstLs, m.dst + c * m.dstStride * m.d, m.rows * m.d, true⟩
              else rs.map fun r => ⟨m.dstLs, m.dst + r * m.dstStride * m.d, m.tc * m.d, true⟩

/-- The directory entry of source tile (r, c). -/
def State.moveEntry (s : State) (i : Nat) (m : Move) (r c : Nat) : Nat :=
  leNat (s.sideBytes i m.srcLs (m.srcDir + 8 * m.srcIx r c) 8)

/-- The tiles of a Sorrel move: source and destination address, and SIZE in bytes (R271). -/
def State.sorrelTiles (s : State) (i : Nat) (m : Move) (rows : Nat) : List (Nat × Nat × Nat) :=
  ((m.cells rows).foldl (fun (acc : List (Nat × Nat × Nat) × Nat) rc =>
    let e := parseDir (s.moveEntry i m rc.1 rc.2)
    ((m.src + 16 * e.offset, m.dst + 16 * (if m.compact then acc.2 else e.offset), 16 * e.size) :: acc.1, acc.2 + e.size)) ([], 0)).1

/-- Tile rows that a move moves (R273). -/
def State.moveRows (s : State) (m : Move) : Nat :=
  if m.cb then
    let count := bitsOf (leNat (s.readMem m.cbEntry 32)) 255 232
    ((List.range m.rows).filter fun r => decide (m.row0 + 32 * r < count)).length
  else m.rows

/-! Refusals (R264, R274, R216, R217). -/

def Move.malformed (m : Move) : Bool :=
  let w := m.word
  let highLs (ls : Bool) (hi lo : Nat) : Bool := ls && bitsOf w hi lo != 0
  let odd (ls : Bool) (a : Nat) : Bool := !ls && a % 16 != 0
  decide (1 < m.kind) || (m.kind == 0 && (m.cb || m.compact || m.transpose || m.len == 0))
    || (m.compact && (!m.sorrel || m.dstStride != m.tc)) || (m.transpose && m.sorrel)
    || highLs m.srcLs 511 480 || highLs m.dstLs 463 432 || highLs m.srcLs 415 384 || highLs m.dstLs 367 336
    || odd m.srcLs m.src || odd m.dstLs m.dst
    || (m.kind == 1 && m.sorrel && (odd m.srcLs m.srcDir || odd m.dstLs m.dstDir)) || (m.kind == 1 && m.cb && odd false m.cbEntry)
    || bitsOf w 257 256 != 0 || bitsOf w 155 128 != 0 || bitsOf w 95 0 != 0

/-- A cluster-store range on the other partition's side of the split of R217. (DEDUCED, log 45) -/
def State.acrossSplit (s : State) (part : Nat) (filler : Bool) (a n : Nat) : Bool :=
  match regionOf a with
  | .clusterStore _ off => rangePopulated a n && decide (if filler then off < 10752 * 1024 else s.csLimit part < off + n)
  | _ => false

/-- Why ranges are refused: a local-store extent first, then the filler's bounds, then the partition's windows. -/
def State.reachBar (s : State) (c : Core) (rs : List Reach) : Option Status :=
  let rs := rs.filter fun r => decide (0 < r.n)
  if rs.any fun r => r.ls && !spanFits (r.addr, r.n) then some .dmaDescriptor
  else if rs.any fun r => if r.ls then !s.lsWindowOk c.part c.isFiller r.addr r.n else s.acrossSplit c.part c.isFiller r.addr r.n then some .illegalOperand
  else if rs.any fun r => !r.ls && !s.addrOk c.part r.addr r.n r.write then some .addressFault
  else none

/-- Words that a move reads to know its tiles are marked uncorrectable. -/
def State.moveBlind (s : State) (i : Nat) (m : Move) : Bool :=
  (m.cb && marked s.keep.marks m.cbEntry 32)
    || (m.sorrel && (List.range (s.moveRows m)).any fun r => s.sideMarked i m.srcLs (m.srcDir + 8 * r * m.srcStride) (8 * m.tc))

/-- The refusals of a DMV at issue. (DEDUCED, log 45) -/
def State.dmvBar (s : State) (i : Nat) (c : Core) (w : W128) : Option Status :=
  let m := c.move w
  if !spanFits (dmvAddr w, 64) ∨ m.malformed then some .dmaDescriptor
  else if m.kind = 1 ∧ (fmtOn s.part m.fmt).isNone then some .illegalFormat
  else if !s.spansOk c [(dmvAddr w, 64)] then some .illegalOperand
  else
    match s.reachBar c m.fixed with
    | some st => some st
    | none =>
      if m.kind = 0 ∨ !m.sorrel ∨ s.moveBlind i m then none
      else s.reachBar c ((s.sorrelTiles i m (s.moveRows m)).flatMap fun t => [⟨m.srcLs, t.1, t.2.2, false⟩, ⟨m.dstLs, t.2.1, t.2.2, true⟩])

/-! Issue (R275). -/

/-- What a DMV touches of the local store: Sorrel tiles over the dense tile bytes from their starts (R88). (DEDUCED, log 45) -/
def dmvSpans (s : State) (i : Nat) (c : Core) (w : W128) : Spans :=
  let m := c.move w
  if !spanFits (dmvAddr w, 64) ∨ m.malformed ∨ (s.reachBar c m.fixed).isSome then ⟨[(dmvAddr w, 64)].filter spanFits, [], []⟩
  else
    let tiles := if m.kind = 1 && m.sorrel then s.sorrelTiles i m m.rows else []
    let fixed (write : Bool) : List Span := (m.fixed.filter fun r => r.ls && r.write == write).map fun r => (r.addr, r.n)
    ⟨(dmvAddr w, 64) :: (if m.sorrel then fixed false else [])
      , fixed false ++ (if m.srcLs then tiles.map fun t => (t.1, m.d) else [])
      , fixed true ++ (if m.dstLs then tiles.map fun t => (t.2.1, m.d) else [])⟩

/-- Moves that one DMA engine may have in progress (R259). -/
def dmaDepth : Nat := 8

/-- A move in progress leaves: its counts go (R267). -/
def State.endMove (s : State) (i : Nat) (e : WinEntry) : State :=
  let k := s.cluster (i / 12)
  let s := s.setCluster (i / 12) { k with dma := k.dma.filter fun d => !(d.core == i && d.entry.index == e.index) }
  s.setCore i ((s.core i).uncount e)

/-- DMV (R271): it issues to engine k mod 2 of the cluster when that has fewer than eight moves in progress (R259, R275). -/
def execDmv (c : CoreId) (h : Health) (s : State) : Host.Outcome State Fault Refusal :=
  let i := c.idx
  let k := s.core i
  match k.head .dma with
  | none => .next s
  | some e =>
    let cl := s.cluster (i / 12)
    let busy := (cl.dma.filter fun d => d.core % 2 == i % 2).length
    if !s.coreRuns i ∨ !s.mayIssue i e ∨ dmaDepth ≤ busy then .next s
    else if h.parity then .next ((s.reports h).itemFault i)
    else
      let s := s.reports h
      match s.dmvBar i k e.word with
      | some st => .next (s.endsWith i st)
      | none =>
        if s.lsBad i (dmvAddr e.word) 64 then .next (s.itemFault i)
        else
          let desc := BitVec.ofNat 512 (leNat (k.read (dmvAddr e.word) 64))
          let s := s.setCluster (i / 12) { cl with dma := cl.dma ++ [⟨i, desc, { e with issued := true }⟩] }
          .next (s.setCore i (k.leave e))

/-! Moving (R270 to R274, R278). -/

/-- Why a move stops: a status with an address; a marked word of the local store; one of a cluster store. -/
inductive MoveStop where
  | status (st : Status) (addr : Nat)
  | lostLs
  | lostCluster (cluster : Nat)

/-- Bytes that a move reads. -/
def State.takeSide (s : State) (i : Nat) (ls : Bool) (a n : Nat) : Except MoveStop (List Byte) :=
  if !s.sideMarked i ls a n then .ok (s.sideBytes i ls a n)
  else if ls then .error .lostLs
  else
    match regionOf a with
    | .clusterStore c _ => .error (.lostCluster c)
    | _ => .error (.status .memUncorrectable a)

/-- A move under way: the state, the units a packed destination holds, why it stopped. -/
structure Moving where
  s : State
  units : Nat
  stop : Option MoveStop

/-- A BYTES move, 16 bytes after 16 bytes in ascending order (R270). -/
def State.moveBytes (s : State) (i : Nat) (m : Move) : Moving :=
  let r := (List.range m.len).foldl (fun (x : Moving) u =>
    match x.stop with
    | some _ => x
    | none =>
      match x.s.takeSide i m.srcLs (m.src + 16 * u) 16 with
      | .error e => { x with stop := some e }
      | .ok bs => { x with s := x.s.putSide i m.dstLs (m.dst + 16 * u) bs, units := u + 1 }) ⟨s, 0, none⟩
  if m.dstLs then r
  else { r with s := { r.s with keep := { r.s.keep with marks := clearMarks r.s.keep.marks m.dst (16 * r.units) } } }

/-- A dense tile transposed, header fields kept but SCALE_AXIS of an MX format and HDR_CRC (R272). -/
def transposeTile (f : Fmt) (bs : List Byte) : List Byte :=
  let t := decodeTile f (parseHdr bs) bs
  let word := leNat (bs.take 14)
  let word := if f.isMx then word ^^^ 2 ^ 101 else word
  let body := (bs.drop 16).take f.scaleBytes ++ pack f.bits t.transpose.codes.toList
  leBytes 14 word ++ leBytes 2 (crc16 (leBytes 14 word ++ body)).toNat ++ body

/-- The checks of R274 on a tile, and what is written of it. -/
def Move.tileOut (m : Move) (p : Part) (f : Fmt) (dir : Option DirEntry) (bs : List Byte) : Except Status (List Byte) :=
  if m.compact && decide (bs.length < 16) then .error .headerCheck
  else if m.compact || m.transpose then
    match checkHdr p (some f) dir bs with
    | .error e => .error (tileStatus e)
    | .ok (_, h) => if !m.transpose then .ok bs else if h.form = 2 then .ok (transposeTile f bs) else .error .headerCheck
  else .ok bs

/-- Tile (r, c) of a move (R271, R272, R66). -/
def Moving.tile (x : Moving) (i : Nat) (m : Move) (f : Fmt) (r c : Nat) : Moving :=
  let s := x.s
  let entry : Except MoveStop (Option (Nat × DirEntry)) :=
    if m.sorrel then (s.takeSide i m.srcLs (m.srcDir + 8 * m.srcIx r c) 8).map fun bs => some (leNat bs, parseDir (leNat bs)) else .ok none
  match entry with
  | .error e => { x with stop := some e }
  | .ok dir =>
    let (a, b, n) := match dir with
      | some (_, e) => (m.src + 16 * e.offset, m.dst + 16 * (if m.compact then x.units else e.offset), 16 * e.size)
      | none => (m.src + m.srcIx r c * m.d, m.dst + m.dstIx r c * m.d, m.d)
    match s.reachBar (s.core i) [⟨m.srcLs, a, n, false⟩, ⟨m.dstLs, b, n, true⟩] with
    | some st => { x with stop := some (.status st a) }
    | none =>
      match s.takeSide i m.srcLs a n with
      | .error e => { x with stop := some e }
      | .ok bs =>
        match m.tileOut s.part f (dir.map (·.2)) bs with
        | .error st => { x with stop := some (.status st a) }
        | .ok out =>
          let s := s.putSide i m.dstLs b out
          match dir with
          | none => { x with s }
          | some (w, e) =>
            let w := if m.compact then DirEntry.word { e with offset := x.units } else w
            { x with s := s.putSide i m.dstLs (m.dstDir + 8 * m.dstIx r c) (leBytes 8 w), units := x.units + e.size }

/-- A TILES move (R271, R273). -/
def State.moveTiles (s : State) (i : Nat) (m : Move) : Moving :=
  let count : Except MoveStop Unit := if m.cb then (s.takeSide i false m.cbEntry 32).map fun _ => () else .ok ()
  match count, Fmt.ofCode m.fmt with
  | .error e, _ => ⟨s, 0, some e⟩
  | .ok _, none => ⟨s, 0, some (.status .illegalFormat m.src)⟩
  | .ok _, some f =>
    (m.cells (s.moveRows m)).foldl (fun (x : Moving) rc => if x.stop.isSome then x else x.tile i m f rc.1 rc.2) ⟨s, 0, none⟩

/-- DMV_COMPLETE (R267): the move of the core's instruction `index` has written its last byte, or has stopped. -/
def execDmvComplete (c : CoreId) (index : Nat) (s : State) : Host.Outcome State Fault Refusal :=
  let i := c.idx
  match (s.cluster (i / 12)).dma.find? fun d => d.core == i && d.entry.index == index with
  | none => .next s
  | some d =>
    if !s.up then .next s
    else
      let m := parseMove d.desc.toNat
      let x := if m.kind = 0 then s.moveBytes i m else s.moveTiles i m
      let s := x.s.endMove i d.entry
      match x.stop with
      | none => .next s
      | some .lostLs => .next (s.itemFault i)
      | some (.lostCluster k) => .next (s.clusterFaulted k)
      | some (.status st a) => .next ((if st == .headerCheck then s.coreEvent i st none [a] else s).endsWith i st)

/-! Fetch. -/

/-- What an instruction touches, by its opcode (R69). -/
def spansOf (s : State) (i : Nat) (c : Core) (w : W128) : Spans :=
  let op := opcodeOf w
  if op = opTld then tldSpans c w
  else if op = opMma then mmaSpans c w
  else if op = opGmm then gmmSpans c w
  else if op = opTcv then tcvSpans c w
  else if op = opStl then stlSpans c w
  else if op = opVch then vchSpans c w
  else if op = opTrd then trdSpans c w
  else if op = opRwf ∨ op = opRwb then rowSpans c w
  else if op = opDmv then dmvSpans s i c w
  else Spans.none

/-- INSTRUCTION_FETCH (R88, R91): the next instruction of the core's program enters the window. -/
def execInstructionFetch (c : CoreId) (s : State) : Host.Outcome State Fault Refusal :=
  .next (s.fetch c.idx (spansOf s c.idx))

end Sys2Proof.Machine
end

