-- ==== Sys2Proof/Machine/LinkExec.lean ====
section
/-! DEFINITION. Sys2Proof/Machine/LinkExec.lean: the commands of the Gystoura ports (spec/17 R503 to R516): codewords with their retry, packets, stalls,
training, weak lanes. -/

namespace Sys2Proof.Machine

open Sys2Proof

/-! Sending. -/

/-- An UP port sends one codeword (R503, R505, R508). (DESIGN CHOICE, log 36) -/
def State.sendFrom (s : State) (i : Nat) : State :=
  if (s.port i).state ≠ .up then s
  else
    let p := s.port i
    let (q, cws, k) := p.sendCodeword
    -- the ACK starts to be waited for with the first unacknowledged codeword
    let q := if p.replay.isEmpty then { q with ackAt := s.counter } else q
    let s := (s.setPort i q).count (lnkReg Reg.lnkTxBytes i) k
    { s with out := s.out ++ cws.map fun c => Out.codeword i c p.lanes }

/-! Packets (R504, R508, R509). -/

/-- A credit return (R509): a MANAGEMENT packet to the neighbour, of CLASS 1 over the wrap-around link. The manual gives its payload no layout, so sixteen free bytes stand in it. (DESIGN CHOICE, log 36) -/
def State.returnCredit (s : State) (i : Nat) : State :=
  let p := s.port i
  let q : LinkPacket :=
    { vc := 3, cls := s.wraps i, dst := p.peer, src := dstWord s.coord, dtile := portTile i, tag := 0, offset := 0
      payload := s.freeBytes 0 16 }
  (s.setPort i { p with sendQ := p.sendQ ++ [q] }).drew 2

/-- Credit that a MANAGEMENT packet returns on port i: for every channel and class a free amount, up to the 64 KiB of the peer's buffer
(the packet's layout is not given). (DESIGN CHOICE, log 36) -/
def State.takeCredit (s : State) (i : Nat) : State :=
  let p := s.port i
  let credit := p.txCredit.zipIdx.map fun (e : Nat × Nat) => e.1 + (s.free e.2).toNat % (65536 - min 65536 e.1 + 1)
  (s.setPort i { p with txCredit := credit }).drew 8

/-- A packet of the pipeline has arrived for this module (R212): what is whole with it opens its slot. (DESIGN CHOICE, log 62) -/
def State.takePipeline (s : State) (p : LinkPacket) : State :=
  match Config.pipelineArrival p.tag p.offset p.payload with
  | some e =>
    if s.links.arrived.contains e then s
    else { s with links := { s.links with arrived := s.links.arrived ++ [e] } }.startNodes false
  | none => s

/-- A CRC-checked packet passes to its channel: on to the next port, or to this module's tile (R500, R508, R509). Its space in the receive
buffer is free again once it has moved on, and the credit goes back. -/
def State.takePacket (s : State) (i : Nat) (p : LinkPacket) : State :=
  let s := s.count (lnkReg Reg.lnkRxBytes i) p.bytes.length
  match s.channelPort p.vc p.dst with
  | some o =>
    let q := s.port o
    let s :=
      if q.state = .disabled ∨ q.state = .down ∨ q.state = .bypassed ∨ q.state = .noCable then s
      else s.setPort o { q with passQ := q.passQ ++ [{ p with cls := s.dateline (i / 2) o p.cls }] }
    if p.vc = 3 then s else s.returnCredit i
  | none =>
    if p.vc = 3 then s.takeCredit i
    else
      let s := s.returnCredit i
      if p.vc = 2 then s.takePipeline p else s

/-- LINK_PACKET (R504): a packet whose CRC has checked. -/
def execLinkPacket (port : Fin 8) (p : LinkPacket) (t : Nat) (s : State) : Host.Outcome State Fault Refusal :=
  if !s.up ∨ (s.port port.val).state ≠ .up then .next s else .next ((s.at t).takePacket port.val p)

/-! Codewords (R503, R505, R506). -/

/-- Halves of ACK: a high half directly after a low half makes a new ACK. -/
def Port.takeAckHalf (p : Port) (cw : Codeword) : Port × Option Nat :=
  if cw.ackPart then
    match p.ackLow with
    | some lo => ({ p with ackLow := none }, some (64 * cw.ackBits.toNat + lo.toNat))
    | none => (p, none)
  else ({ p with ackLow := some cw.ackBits }, none)

/-- The peer's acknowledgement, and its request to resend. -/
def State.takeAckWord (s : State) (i : Nat) (cw : Codeword) : State :=
  let (p, ack) := (s.port i).takeAckHalf cw
  let s := s.setPort i p
  let s := match ack with
    | some a =>
      let q := p.takeAck a
      let s := s.setPort i { q with ackAt := if q.replay.length < p.replay.length then s.counter else p.ackAt }
      if cw.retryReq then s.resend i else s
    | none => s
  if cw.retryReq then s.count (lnkReg Reg.lnkRetries i) 1 else s

/-- A request for a resend from the expected codeword; the eighth request of one SEQ retrains the port (R506). `again`: a codeword asked for has come
damaged, or holds a packet that failed, so a request that already runs is made anew. -/
def State.requestRetry (s : State) (i : Nat) (again : Bool) : State :=
  let p := s.port i
  let seq := p.rxNext % 4096
  let n := if again ∨ !p.retrying then (if p.reqSeq = seq then p.reqCount + 1 else 1) else p.reqCount
  let s := s.setPort i { p with retrying := true, reqSeq := seq, reqCount := n, retryFrom := some (p.retryFrom.getD s.counter) }
  if 8 ≤ n then s.startRetrain i else s

/-- The resend of the expected codeword has arrived: the retry's time ends (R506). -/
def State.endRetry (s : State) (i : Nat) : State :=
  let s := s.countRetry i
  s.setPort i { s.port i with retrying := false }

/-- A codeword in SEQ order: its bytes join the stream, and the packets they complete are taken. A packet that fails its CRC is discarded
and asked for again from the codeword that holds its start; what had been taken of that codeword stays taken. Once a packet from the SEQ last
requested on is whole, its requests are forgotten. -/
def State.deliverCodeword (s : State) (i : Nat) (cw : Codeword) : State :=
  let s := s.endRetry i
  let p := s.port i
  let bytes := p.rxBytes ++ cw.payload.drop p.rxStart
  let (ps, rest, bad) := rxScan (bytes.length + 1) bytes
  let seq := cw.seq.toNat
  let (start, off) := rxPlace seq cw.payload.length rest.length
  let n := if (if rest.isEmpty then (seq + 1) % 4096 else start) = p.reqSeq then p.reqCount else 0
  let s :=
    if bad then s.setPort i { p with rxNext := start, rxBytes := [], rxStart := off, reqCount := n }
    else s.setPort i { p with rxNext := (seq + 1) % 4096, rxBytes := rest, rxStart := 0, reqCount := n }
  let s := ps.foldl (fun s q => s.takePacket i q) s
  if bad then s.requestRetry i true else s

/-- CODEWORD (R502, R505): a codeword arrives with so many wrong symbols among its 514 and among its 30 parity symbols; it is delivered in SEQ order, discarded, or asked for again. A lost one parts a
high half of ACK from the low half before it (R503). The port sends one codeword for each that arrives, since both directions run at one rate. -/
def execCodeword (port : Fin 8) (cw : Codeword) (wrongData wrongParity : Nat) (t : Nat) (s : State) : Host.Outcome State Fault Refusal :=
  let i := port.val
  let errors := wrongData + wrongParity
  if !s.up ∨ (s.port i).state ≠ .up then .next s
  else
    let s := (s.at t).accrue
    if rsReach < errors then
      let s := (s.count (lnkReg Reg.lnkFecUncorrected i) 1).setPort i { s.port i with ackLow := none }
      .next ((s.requestRetry i true).sendFrom i)
    else
      let s := if 0 < errors then s.count (lnkReg Reg.lnkFecCorrected i) 1 else s
      let s := s.takeAckWord i cw
      let s := if cw.seq.toNat = (s.port i).rxNext % 4096 then s.deliverCodeword i cw else s.requestRetry i false
      .next (s.sendFrom i)

/-! Training (R511 to R516). -/

/-- ACK_STALL (R506): ACK has not advanced for 20 µs while codewords are unacknowledged. -/
def execAckStall (port : Fin 8) (t : Nat) (s : State) : Host.Outcome State Fault Refusal :=
  let p := s.port port.val
  if !s.up ∨ p.state ≠ .up ∨ p.replay.isEmpty ∨ t < p.ackAt + 20000 then .next s
  else .next ((s.at t).accrue.startRetrain port.val)

/-- What a finished training changes: the retraining time is retry time (R506); a new neighbour ends what had packets here (R515). -/
def State.trainingEnd (s : State) (i : Nat) (tr : PortTrain) : State :=
  let since := (s.port i).retrySince
  let e := s.endTraining i tr
  let s := match since with
    | some t => if (e.state.port i).state = .retraining then e.state else e.state.addRetry (s.counter - t)
    | none => e.state
  if e.discarded then (s.portEvent .linkDown i []).linkLost i false else s

/-- LINK_RETRAIN (R515): an UP port that loses its signal starts to retrain; a training in progress ends with what it found. -/
def execLinkRetrain (port : Fin 8) (tr : PortTrain) (t : Nat) (s : State) : Host.Outcome State Fault Refusal :=
  let i := port.val
  if !s.up then .next s
  else
    match (s.port i).state with
    | .up => .next ((s.at t).accrue.startRetrain i)
    | .retraining | .training => .next ((s.at t).accrue.trainingEnd i tr)
    | _ => .next s

/-- LINK_DOWN (R516): a retrain has outlasted LNK_DOWN_TIMEOUT. -/
def execLinkDown (port : Fin 8) (t : Nat) (s : State) : Host.Outcome State Fault Refusal :=
  let i := port.val
  let p := s.port i
  if !s.up ∨ p.state ≠ .retraining ∨ t < p.retrainAt + s.reg Reg.lnkDownTimeout * 1000000 then .next s
  else
    let s := (s.at t).accrue.countRetry i
    let s := s.setPort i { s.port i with state := .down, replay := [], acked := [], txBytes := [] }
    .next ((s.portEvent .linkDown i []).linkLost i true)

/-- PORT_DOWN_RETRY (R513): a DOWN port with a cable runs stages 5 and 6 again. -/
def execPortDownRetry (port : Fin 8) (tr : PortTrain) (s : State) : Host.Outcome State Fault Refusal :=
  let i := port.val
  if !s.up ∨ (s.port i).state ≠ .down ∨ !(s.axis (i / 2)).through then .next s
  else .next (s.trainingEnd i tr)

/-! Weak lanes (R514). -/

/-- A lane in service gives way: a spare takes its logical lane; or the port retrains at half width, when eight good lanes are left, or as it can. -/
def State.loseLane (s : State) (i lane : Nat) : State :=
  let p := s.port i
  let failed := p.laneFailed ||| 2 ^ lane
  match (bitsSet p.laneSpare 18).head? with
  | some k =>
    let s := s.setPort i { p with
      lanes := p.lanes.map fun x => if x = lane then k else x
      laneSpare := p.laneSpare - 2 ^ k, laneFailed := failed, spared := true }
    let s := { s with lif := { s.lif with useLanes := modifyAt s.lif.useLanes i (· + 1) } }
    s.portEvent .laneSpareUsed i []
  | none =>
    let good := 2 ^ 18 - 1 - failed
    let s := s.setPort i { p with laneFailed := failed, spared := true }
    let s := if 8 ≤ popcountBelow good 18 then s.portEvent .linkWidthReduced i [] else s
    s.startRetrain i

/-- WEAK_LANE (R514): a lane in service exceeds the threshold in its window, or loses lock. -/
def execWeakLane (port : Fin 8) (lane : Fin 18) (corrected : Nat) (lostLock : Bool) (t : Nat) (s : State) :
    Host.Outcome State Fault Refusal :=
  let i := port.val
  let p := s.port i
  if !s.up ∨ p.state ≠ .up ∨ !p.lanes.contains lane.val then .next s
  else
    let s := (s.at t).accrue
    if lostLock ∨ s.reg Reg.lnkLaneThreshold < corrected then .next (s.loseLane i lane.val) else .next s

end Sys2Proof.Machine
end

