-- ==== Sys2Proof/Machine/Power.lean ====
section
/-! DEFINITION. Sys2Proof/Machine/Power.lean: current limits, trips, thermal limits, boost, the power ceiling and the energy accounts (spec/18 R530 to
R543). -/

namespace Sys2Proof.Machine

open Sys2Proof

/-- The clock moved to `t`, with the pace conditions in force accounted for. -/
def State.paceTo (s : State) (t : Nat) : State := (s.at t).accrue

/-! Trips. -/

/-- The module stops (R536): the fatal event goes to flash, every rail stops, and module power is lost. It starts again only from a rise of
MOD_PWR_EN. -/
def State.moduleStop (s : State) (st : Status) : State :=
  let s := (s.note st []).powerLoss
  { s with pins := { s.pins with lockout := true } }

/-- A tile's current or thermal trip (R532); the second within 24 h of power-on time isolates the tile at once (R561). -/
def State.tripTile (s : State) (t : Nat) (thermal : Bool) : State :=
  let st : Status := if thermal then .thermalTrip else .railTrip
  let log := s.power.tripLog.filter fun e => decide (s.powerOnNow < e.2 + 86400)
  let again := log.any fun e => e.1 == t
  let s := s.modRail t fun r => { r with
    on := false, samples := [], stretchPct := 0
    tripI := r.tripI || (!thermal && !again), tripT := r.tripT || (thermal && !again) }
  let s := { s with
    power := { s.power with tripLog := log ++ [(t, s.powerOnNow)] }
    pins := { s.pins with alertTrip := true }
    regs := if thermal then regAdd s.regs Reg.thmTrips 1 else s.regs }
  let s := (s.event (tileEvent st s.counter t 0xFF [])).endTile t st
  let s := if again then s.isolateTile t else s
  s.endFailed.settle

/-! Boost (R537). -/

/-- Mean input power over the last 10 ms, in W (R538). (DEDUCED, log 37) -/
def Power.inputMean (p : Power) : Nat :=
  if p.inputSamples.isEmpty then 0 else (p.inputSamples.map (·.2)).sum / p.inputSamples.length

/-- The conditions for a rail to run at a point above 5. (DEDUCED, log 37) -/
def State.boostOk (s : State) (t point : Nat) : Bool :=
  let r := s.power.rails.getD t Rail.reset
  let limit := s.reg Reg.pwrRailLimit
  bitOf (s.reg Reg.pwrBoostEn) 0 && r.on && decide (100 * r.mean < 85 * limit) && decide (r.stretchPct = 0)
    && decide (point ≤ r.permitted) && decide (s.power.inputMean < s.reg Reg.pwrCeiling)
    && (List.range 40).all fun j =>
      let i := s.power.islands.getD (60 * t + j) Island.reset
      decide (i.temp < 95 * 16) && decide (point ≤ i.highest) && !i.throttled

/-- A boosted rail whose conditions fail returns one point; a rail that meets those of the next point waits from now on. (DEDUCED, log 37) -/
def State.boostCheck (s : State) (t : Nat) : State :=
  let r := s.power.rails.getD t Rail.reset
  if 5 < r.point ∧ !s.boostOk t r.point then s.modRail t fun r => { r with point := r.point - 1, boostSince := 0 }
  else if 5 ≤ r.point ∧ r.point < 7 ∧ s.boostOk t (r.point + 1) then
    s.modRail t fun r => { r with boostSince := if r.boostSince = 0 then max 1 s.counter else r.boostSince }
  else s.modRail t fun r => { r with boostSince := 0 }

/-- BOOST (R537): the conditions have held for 100 µs. -/
def execBoost (tile : Tile) (t : Nat) (s : State) : Host.Outcome State Fault Refusal :=
  if !s.pins.pgood then .next s
  else
    let s := (s.paceTo t).boostCheck tile.val
    let r := s.power.rails.getD tile.val Rail.reset
    if 0 < r.boostSince ∧ r.boostSince + 100000 ≤ t ∧ 5 ≤ r.point ∧ r.point < 7 then
      .next ((s.modRail tile.val fun r => { r with point := r.point + 1, boostSince := 0 }).boostCheck tile.val)
    else .next s

/-! Current (R530, R531). -/

/-- The stretch of a rail after a sample. The factor that holds the mean at the limit is the control loop's own; the manual gives no number, so
it is a free percentage. Below 95 % of the limit for 2 µs, 2 % of clock come back with each sample. (DESIGN CHOICE, log 38) -/
def State.stretch (s : State) (t : Nat) : State :=
  let r := s.power.rails.getD t Rail.reset
  let limit := s.reg Reg.pwrRailLimit
  let low := decide (100 * r.mean < 95 * limit)
  let since := if low then (if r.belowSince = 0 then max 1 s.counter else r.belowSince) else 0
  if limit ≤ r.mean then
    (s.modRail t fun r => { r with belowSince := 0, stretchPct := 1 + (s.free 0).toNat % 100 }).drew 1
  else if r.stretchPct = 0 then s.modRail t fun r => { r with belowSince := since }
  else if !low then (s.modRail t fun r => { r with belowSince := 0, stretchPct := 1 + (s.free 0).toNat % 100 }).drew 1
  else if since + 2000 ≤ s.counter then s.modRail t fun r => { r with belowSince := since, stretchPct := r.stretchPct - 2 }
  else s.modRail t fun r => { r with belowSince := since }

/-- A rail's current limit in A (R522); PWR_RAIL_LIMIT takes a core rail lower (R530). -/
def railLimit : RailId → Nat
  | .core _ => 1600
  | .base _ => 400
  | .dram _ => 60
  | .hub => 120
  | .auxiliary => 5

/-- The sample at which a rail trips: 1.25 times its limit (R531). The manual gives a DRAM rail and the auxiliary rail no trip. -/
def railTrip : RailId → Option Nat
  | .dram _ | .auxiliary => none
  | r => some (5 * railLimit r / 4)

def overTrip (rail : RailId) (amps : Nat) : Bool := (railTrip rail).any fun a => decide (a ≤ amps)

/-- A rail is up (R522, R523, R525): the hub's and the auxiliary one while the module has power, a DRAM rail in every state but OFF, a base rail down to
PARK, a core rail as its own state says. -/
def State.railUp (s : State) : RailId → Bool
  | .core k => s.pins.pgood && (s.power.rails.getD k.val Rail.reset).on
  | .base _ => s.pins.pgood && (s.power.state == .full || s.power.state == .hold || s.power.state == .park)
  | .dram _ => s.pins.pgood && s.power.state != .off
  | .hub | .auxiliary => s.pins.pgood

/-- The voltage of a rail that follows the voltage table (R522, R528): a core rail at its operating point, the base and hub rails at point 5. -/
def State.railVolts (s : State) : RailId → Option Nat
  | .core k => some (s.railMv k.val)
  | .base k => some (s.voltMv (60 * k.val + 40) 20 5)
  | .hub => some (s.voltMv 600 12 5)
  | .dram _ | .auxiliary => none

/-- Where Power.feeds holds a rail that is no core rail. -/
def feedIx : RailId → Nat
  | .core k => k.val
  | .base k => k.val
  | .dram k => 10 + k.val
  | .hub => 30
  | .auxiliary => 31

/-- A measured current and voltage are kept (R522). -/
def State.measured (s : State) (rail : RailId) (x : RailReading) : State :=
  match rail with
  | .core k => s.modRail k.val fun r => { r with samples := (x.amps :: r.samples).take 40, mv := x.mv }
  | r => { s with power := { s.power with feeds := modifyAt s.power.feeds (feedIx r) fun _ => ⟨x.amps, x.mv⟩ } }

/-- A sample of a tile core rail. -/
def State.coreSample (s : State) (k : Tile) (x : RailReading) : State :=
  let t := k.val
  if overTrip (.core k) x.amps then s.tripTile t false
  else
    let s := s.measured (.core k) x
    let boosted := decide (5 < (s.power.rails.getD t Rail.reset).point)
    let s := s.boostCheck t
    if boosted then s else s.stretch t

/-- RAIL_SAMPLE (R522, R530, R531, R536): one 50 ns sample of a rail, its current and its voltage; a rail that is not up gives none. -/
def execRailSample (rail : RailId) (reading : RailReading) (t : Nat) (s : State) : Host.Outcome State Fault Refusal :=
  if !s.pins.pgood then .next s
  else
    let s := s.paceTo t
    if !s.railUp rail then .next s
    else
      match rail with
      | .core k => .next (s.coreSample k reading)
      | .base k =>
        let s := s.measured (.base k) reading
        .next (if overTrip (.base k) reading.amps ∧ (s.tileTrip k.val).isNone then s.tripTile k.val false else s)
      | .hub =>
        let s := s.measured .hub reading
        .next (if overTrip .hub reading.amps then s.moduleStop .railTrip else s)
      | r => .next (s.measured r reading)

/-! Stress and thermal cycles (R565). -/

/-- An island's stress and wear after `add` units of 1/1024 h. -/
def Island.age (i : Island) (add : Nat) : Island :=
  let stress := i.stress + add
  { i with stress, wear := min 255 (stress / (350 * 1024)) }

/-- Hottest junction of a tile, by the sensors' last readings. -/
def State.hottestOf (s : State) (t : Nat) : Int :=
  ((s.power.islands.drop (60 * t)).take 60).foldl (fun (m : Int) i => if m < i.temp then i.temp else m) (-8192)

/-- A tile's thermal cycle (R565): the hottest junction 40 K or more above its lowest reading since the last count. -/
def State.thermalCycle (s : State) (t : Nat) : State :=
  let h := s.hottestOf t
  let low := s.lif.lowT.getD t 0
  if low + 40 * 16 ≤ h then
    let s := { s with lif := { s.lif with cycles := modifyAt s.lif.cycles t (· + 1), lowT := modifyAt s.lif.lowT t fun _ => h } }
    s.mapIslands fun k i => if k / 60 = t then i.age 512 else i
  else { s with lif := { s.lif with lowT := modifyAt s.lif.lowT t fun x => if h < x then h else x } }

/-! Temperature (R533 to R536). -/

/-- Whole steps of `every` ns that have passed since `since`. -/
def stepsSince (since now every : Nat) : Nat := (now - since) / every

/-- An island's throttle after a reading (R533); true when a throttled interval begins. -/
def Island.throttle (i : Island) (temp : Int) (point now : Nat) : Island × Bool :=
  let old := i.temp
  let i := { i with temp }
  if !i.throttled then
    if 105 * 16 ≤ temp then ({ i with throttled := true, down := min 1 point, lowering := true, changedAt := now }, true)
    else (i, false)
  else if i.lowering then
    if 102 * 16 ≤ temp then
      let n := stepsSince i.changedAt now 100000
      ({ i with down := min (i.down + n) point, changedAt := i.changedAt + 100000 * n }, false)
    else ({ i with lowering := false, changedAt := now }, false)
  else if 105 * 16 ≤ temp then
    ({ i with lowering := true, down := min (i.down + 1) point, changedAt := now }, false)
  else if 102 * 16 ≤ temp then (i, false)
  else if 102 * 16 ≤ old then ({ i with changedAt := now }, false)
  else
    let n := stepsSince i.changedAt now 1000000
    let down := i.down - n
    ({ i with down, changedAt := i.changedAt + 1000000 * n, throttled := decide (0 < down) }, false)

/-- Tile-network and power-management islands of a tile (R413). -/
def vitalIsland (j : Nat) : Bool := decide (44 ≤ j ∧ j ≤ 47) || j == 52 || j == 53

/-- A reading of an island. -/
def State.islandReading (s : State) (i : Nat) (temp : Int) : State :=
  let point := if i < 600 ∧ i % 60 < 40 then (s.power.rails.getD (i / 60) Rail.reset).point else 5
  let (x, began) := (s.power.islands.getD i Island.reset).throttle temp point s.counter
  let s := s.modIsland i fun _ => x
  let s := if i < 600 then s.thermalCycle (i / 60) else s
  let word := if i < 600 then tileWord (i / 60) else hubWord
  let s := if began then
      (s.event { hubEvent .thermalThrottle s.counter [i] with source := word, logical := word }).count Reg.thmThrottleEvents 1
    else s
  if 115 * 16 ≤ temp then
    if 600 ≤ i ∨ vitalIsland (i % 60) then s.moduleStop .hubThermalTrip
    else if (s.tileTrip (i / 60)).isSome then s else s.tripTile (i / 60) true
  else if i < 600 ∧ i % 60 < 40 then s.boostCheck (i / 60)
  else s

/-- A reading of a DRAM stack (R535). -/
def State.stackReading (s : State) (k : Nat) (temp : Int) : State :=
  let x := s.power.stackList.getD k ⟨0, false, 0⟩
  let paced := if 95 * 16 < temp then true else if temp ≤ 93 * 16 then false else x.paced
  let s := { s with power := { s.power with stackList := modifyAt s.power.stackList k fun x => { x with temp, paced } } }
  let s := if paced ∧ !x.paced then s.event (tileEvent .dramHot s.counter (k / 2) 0xFF [k]) else s
  if 105 * 16 ≤ temp ∧ (s.tileTrip (k / 2)).isNone then s.tripTile (k / 2) true else s

/-- ISLAND_SENSOR (R533 to R536): a sensor reads a temperature, in 1/16 °C. -/
def execIslandSensor (sensor : Sensor) (temp : Int) (t : Nat) (s : State) : Host.Outcome State Fault Refusal :=
  if !s.pins.pgood then .next s
  else
    let s := s.paceTo t
    match sensor with
    | .island i => .next (s.islandReading i.val temp)
    | .stack k => .next (s.stackReading k.val temp)

/-! The power ceiling (R538). -/

/-- The highest permitted point after a change, and the point that a rail then runs at. -/
def Rail.permit (r : Rail) (p : Nat) : Rail :=
  { r with permitted := p, point := if p < r.point then p else if r.point < 5 then min 5 p else r.point }

/-- POWER_CEILING (R538, R385): the input readings are taken. -/
def execPowerCeiling (r : Readings) (t : Nat) (s : State) : Host.Outcome State Fault Refusal :=
  if !s.pins.pgood then .next s
  else
    let s := s.paceTo t
    let samples := ((t, r.pinW) :: s.power.inputSamples).filter fun e => decide (t < e.1 + 10000000)
    let s := { s with readings := r, power := { s.power with inputSamples := samples } }
    let ceil := s.reg Reg.pwrCeiling
    let mean := s.power.inputMean
    let top := if bitOf (s.reg Reg.pwrBoostEn) 0 then 7 else 5
    let floor := s.power.rails.all fun x => decide (x.permitted = 0)
    let s : State :=
      if ceil < mean ∧ !floor ∧ s.power.ceilChanged + 1000000 ≤ t then
        let s := s.mapRails fun _ x => x.permit (x.permitted - 1)
        { s with power := { s.power with ceilChanged := t } }
      else if 100 * mean < 95 * ceil ∧ s.power.ceilChanged + 10000000 ≤ t then
        let s := s.mapRails fun _ x => x.permit (min top (x.permitted + 1))
        { s with power := { s.power with ceilChanged := t } }
      else s
    let s : State :=
      if mean ≤ ceil ∨ !floor then { s with power := { s.power with unmetSince := none } }
      else
        match s.power.unmetSince with
        | none => { s with power := { s.power with unmetSince := some (t, false) } }
        | some (since, told) =>
          if !told ∧ since + 100000000 ≤ t then
            { s with power := { s.power with unmetSince := some (since, true) } }.note .ceilingUnmet []
          else s
    .next ((List.range 10).foldl State.boostCheck s)

/-! Energy (R542, R543). -/

/-- A second, in ns. -/
def oneSecond : Nat := 1000000000

/-- R544 between two updates: over an interval of at least 1 s, the accounts' sum and the measured input energy agree within 2 %. -/
def energyTied (a b : Nat × Nat × Nat) : Bool :=
  let input := b.2.1 - a.2.1
  let sum := b.2.2 - a.2.2
  decide (b.1 < a.1 + oneSecond) || decide (50 * sum ≤ 51 * input ∧ 49 * input ≤ 50 * sum)

/-- The totals after an update at `t`. -/
def Power.energyAt (p : Power) (u : EnergyUpdate) (t : Nat) : Nat × Nat × Nat :=
  let last := p.eLog.headD (0, 0, 0)
  (t, last.2.1 + u.input, last.2.2 + u.queues.sum + u.shared + u.overhead)

/-- Updates kept after `b`: one is dropped once a later one lies a second after it and a second before `b`, since the two intervals then bound the
whole. -/
def energyKept (log : List (Nat × Nat × Nat)) (b : Nat × Nat × Nat) : List (Nat × Nat × Nat) :=
  b :: log.filter fun e => !(log.any fun m => decide (e.1 + oneSecond ≤ m.1 ∧ m.1 + oneSecond ≤ b.1))

/-- ENERGY_UPDATE: every counter takes its share of the last millisecond at once. Shares that would break R544 are none the module makes, and count
nothing. (DESIGN CHOICE, log 63) -/
def execEnergyUpdate (u : EnergyUpdate) (t : Nat) (s : State) : Host.Outcome State Fault Refusal :=
  if !s.pins.pgood then .next s
  else
    let s := s.paceTo t
    let b := s.power.energyAt u s.counter
    if u.queues.length ≠ 64 ∨ !(s.power.eLog.all fun e => energyTied e b) then .next s
    else
      .next { s with power := { s.power with
        eIn := s.power.eIn + BitVec.ofNat 64 u.input, eShared := s.power.eShared + BitVec.ofNat 64 u.shared
        eOverhead := s.power.eOverhead + BitVec.ofNat 64 u.overhead
        eQueue := s.power.eQueue.zipIdx.map fun (e : W64 × Nat) => e.1 + BitVec.ofNat 64 (u.queues.getD e.2 0)
        eTime := s.counter, eLog := energyKept s.power.eLog b } }

end Sys2Proof.Machine
end

