-- ==== Sys2Proof/Machine/Reliab.lean ====
section
/-! DEFINITION. Sys2Proof/Machine/Reliab.lean: watchdogs, the patrol scrub, DRAM refresh, stress counts and the periodic lifetime record (spec/09 R280,
R282; spec/19 R549, R558, R559, R561, R565, R568). -/

namespace Sys2Proof.Machine

open Sys2Proof

/-- A tile is isolated at once (R561), in the middle of a step or between steps. -/
def State.isolateNow (s : State) (t : Nat) : State := ((s.isolateTile t).endFailed).settle

/-- An internal-state error of Burnet, the router or Vetch (R551): its operation runs once more, which changes nothing; the tile's second one
within a step isolates the tile (R561). (DESIGN CHOICE, log 23) -/
def State.internalError (s : State) (t : Nat) : State :=
  match s.step with
  | none => s
  | some r =>
    if r.tileErrors.contains t then s.isolateNow t
    else { s with step := some { r with tileErrors := t :: r.tileErrors } }

/-- TILE_CONTROLLER_WATCHDOG (R549, R561): of two controller cores one goes on with the tile's work, and the loss of both isolates the tile at
once. The row carries the other faults of a tile that the manual describes and the table gives no row (assumption log): internal-state errors,
and a network fault, which no isolation cures, so that the hub halts the module. (DESIGN CHOICE, log 23) -/
def execTileControllerWatchdog (tile : Tile) (fault : TileFault) (s : State) : Host.Outcome State Fault Refusal :=
  if !s.up then .next s
  else
    match fault with
    | .oneCore => .next s
    | .bothCores => .next (s.isolateNow tile.val)
    | .internalState => .next (s.internalError tile.val)
    | .network => .next (s.halt .networkFault)

/-- HUB_WATCHDOG (R549, R558): a management core failed; a cold reset with CFG_RESET_CAUSE HUB_WATCHDOG. -/
def execHubWatchdog (s : State) : Host.Outcome State Fault Refusal :=
  if !s.pins.pgood ∨ s.boot.phase = .off then .next s else .next (s.coldReset 6)

/-! The patrol scrub (R280). -/

/-- A word that scrubbing reads: a populated DRAM or store address, or a local store's (2^48 + 2^20 · core + byte). -/
def scrubWord (a : Nat) : Bool :=
  match regionOf a with
  | .reserved => decide (2 ^ 48 ≤ a ∧ a < 2 ^ 48 + 960 * 2 ^ 20 ∧ a % 8 = 0)
  | _ => wordOf a == a

/-- A word of a tile's firmware region (R263): an uncorrectable one isolates the tile at once (R561). -/
def firmwareWord (a : Nat) : Bool :=
  match regionOf a with
  | .dram _ off => decide (0xFE0000000 ≤ off)
  | _ => false

/-- PATROL_SCRUB (R278, R280): the scrub reads the next word. A correctable error is corrected and written back, unless a foreground write
reached the word first. -/
def execPatrolScrub (addr : Nat) (found : ScrubFound) (s : State) : Host.Outcome State Fault Refusal :=
  if !s.up ∨ !scrubWord addr ∨ !s.tileIn (wordTile addr) then .next s
  else
    let dram := decide (addr < 0x00A000000000)
    let next := addr + (if dram then 64 else 8)
    let s := { s with keep := { s.keep with
      scrubDram := if dram then next else s.keep.scrubDram, scrubStore := if dram then s.keep.scrubStore else next } }
    match found with
    | .clean => .next s
    | .correctable | .overtaken => .next (s.corrected addr)
    | .uncorrectable =>
      let s := s.uncorrectable addr
      .next (if firmwareWord addr then s.isolateNow (wordTile addr) else s)

/-- DRAM_REFRESH (R282, R283): the banks of a stack are refreshed; no bit changes. -/
def execDramRefresh (stack : Nat) (s : State) : Host.Outcome State Fault Refusal :=
  if !s.pins.pgood then .next s
  else
    .next { s with power := { s.power with stackList := modifyAt s.power.stackList stack fun k => { k with refreshes := k.refreshes + 1 } } }

/-! Stress (R565). -/

/-- 2^((T − 85)/10) in units of 1/1024 h, T in 1/16 °C: the power of two with the exponent's fraction taken on 16 halvings of the interval,
rounded down (the manual keeps the count in 1/1024 h and names no rounding: assumption log). -/
def stressHour (temp : Int) : Nat :=
  -- the exponent in units of 1/160
  let e : Int := temp - 85 * 16
  let q := e / 160
  let r := (e % 160).toNat
  -- 2^(r/160) · 2^64 from the roots 2^(1/160·2^k) by integer roots: the largest integer m with m^160 ≤ 2^(64·160 + r)
  let m := (List.range 65).foldl
    (fun (m : Nat) k =>
      let c := m + 2 ^ (64 - k)
      if c ^ 160 ≤ 2 ^ (64 * 160 + r) then c else m) 0
  if 0 ≤ q then (m * 2 ^ q.toNat * 1024) / 2 ^ 64 else m * 1024 / 2 ^ (64 + (-q).toNat)

/-- STRESS_UPDATE (R565): an hour of power-on time is over. `temps`: the mean junction temperature of each island over the hour, in 1/16 °C; an
island without one had its clock off. -/
def execStressUpdate (temps : List Int) (s : State) : Host.Outcome State Fault Refusal :=
  if !s.pins.pgood then .next s
  else
    .next (s.mapIslands fun k i => if k < temps.length then i.age (stressHour (temps.getD k 0)) else i)

/-- LIFETIME_RECORD_WRITE (R568): ten minutes of power-on time are over. `fails`: writes that fail their read-back, each retried in the next
slot. -/
def execLifetimeRecordWrite (fails : Nat) (s : State) : Host.Outcome State Fault Refusal :=
  if !s.up then .next s else .next (s.writeLifetime fails)

end Sys2Proof.Machine
end

