-- ==== Sys2Proof/Machine/Dispatch.lean ====
section
/-! DEFINITION. Sys2Proof/Machine/Dispatch.lean: one arm per command. -/

namespace Sys2Proof.Machine

open Sys2Proof

def exec (i : Instr) (s : State) : Host.Outcome State Fault Refusal :=
  match i with
  | .modPwrEnRise slot good t => Sys2Proof.Machine.execModPwrEnRise slot good t s
  | .modPwrEnFall t => Sys2Proof.Machine.execModPwrEnFall t s
  | .inputUndervoltage mv ns t => Sys2Proof.Machine.execInputUndervoltage mv ns t s
  | .brownoutRide mv ns => Sys2Proof.Machine.execBrownoutRide mv ns s
  | .modResetNLow lowNs t => Sys2Proof.Machine.execModResetNLow lowNs t s
  | .modResetNHigh t => Sys2Proof.Machine.execModResetNHigh t s
  | .modWarmN lowNs t => Sys2Proof.Machine.execModWarmN lowNs t s
  | .leakTrip => Sys2Proof.Machine.execLeakTrip s
  | .startUp r => Sys2Proof.Machine.execStartUp r s
  | .startTimeout step units => Sys2Proof.Machine.execStartTimeout step units s
  | .ethPortRetry port up => Sys2Proof.Machine.execEthPortRetry port up s
  | .ethLinkChange port seen => Sys2Proof.Machine.execEthLinkChange port seen s
  | .clearFaults target => Sys2Proof.Machine.execClearFaults target s
  | .capability addr => Sys2Proof.Machine.execCapability addr s
  | .statusWord addr => Sys2Proof.Machine.execStatusWord addr s
  | .readVin addr => Sys2Proof.Machine.execReadVin addr s
  | .readIin addr => Sys2Proof.Machine.execReadIin addr s
  | .readTemperature1 addr => Sys2Proof.Machine.execReadTemperature1 addr s
  | .readTemperature2 addr => Sys2Proof.Machine.execReadTemperature2 addr s
  | .readTemperature3 addr => Sys2Proof.Machine.execReadTemperature3 addr s
  | .readPin addr => Sys2Proof.Machine.execReadPin addr s
  | .pmbusRevision addr => Sys2Proof.Machine.execPmbusRevision addr s
  | .mfrId addr => Sys2Proof.Machine.execMfrId addr s
  | .mfrModel addr => Sys2Proof.Machine.execMfrModel addr s
  | .mfrSerial addr => Sys2Proof.Machine.execMfrSerial addr s
  | .mfrPowerState addr => Sys2Proof.Machine.execMfrPowerState addr s
  | .mfrLeak addr => Sys2Proof.Machine.execMfrLeak addr s
  | .mfrReady addr => Sys2Proof.Machine.execMfrReady addr s
  | .mfrGeoFingerprint addr => Sys2Proof.Machine.execMfrGeoFingerprint addr s
  | .mfrSlot addr => Sys2Proof.Machine.execMfrSlot addr s
  | .smbusOtherWrite addr cmd => Sys2Proof.Machine.execSmbusOtherWrite addr cmd s
  | .smbusAlertResponse => Sys2Proof.Machine.execSmbusAlertResponse s
  | .fruEepromRead addr off len pins => Sys2Proof.Machine.execFruEepromRead addr off len pins s
  | .bypass => Sys2Proof.Machine.execBypass s
  | .idcode => Sys2Proof.Machine.execIdcode s
  | .samplePreload sample preload => Sys2Proof.Machine.execSamplePreload sample preload s
  | .extest => Sys2Proof.Machine.execExtest s
  | .extestPulse => Sys2Proof.Machine.execExtestPulse s
  | .extestTrain => Sys2Proof.Machine.execExtestTrain s
  | .unitTestInstruction unit => Sys2Proof.Machine.execUnitTestInstruction unit s
  | .unlockChallenge => Sys2Proof.Machine.execUnlockChallenge s
  | .unlockToken bytes => Sys2Proof.Machine.execUnlockToken bytes s
  | .trstN low => Sys2Proof.Machine.execTrstN low s
  | .instructionFetch c => Sys2Proof.Machine.execInstructionFetch c s
  | .tld c h => Sys2Proof.Machine.execTld c h s
  | .mma c h => Sys2Proof.Machine.execMma c h s
  | .gmm c h => Sys2Proof.Machine.execGmm c h s
  | .tcv c h => Sys2Proof.Machine.execTcv c h s
  | .slotWriteComplete c array slot => Sys2Proof.Machine.execSlotWriteComplete c array slot s
  | .vch c h => Sys2Proof.Machine.execVch c h s
  | .trd c h => Sys2Proof.Machine.execTrd c h s
  | .rwf c h => Sys2Proof.Machine.execRwf c h s
  | .rwb c h => Sys2Proof.Machine.execRwb c h s
  | .dmv c h => Sys2Proof.Machine.execDmv c h s
  | .dmvComplete c index => Sys2Proof.Machine.execDmvComplete c index s
  | .syn c w => Sys2Proof.Machine.execSyn c w s
  | .hold c held => Sys2Proof.Machine.execHold c held s
  | .stlOpen c h => Sys2Proof.Machine.execStlOpen c h s
  | .stlOffer c => Sys2Proof.Machine.execStlOffer c s
  | .stlWithdraw c => Sys2Proof.Machine.execStlWithdraw c s
  | .steal c h => Sys2Proof.Machine.execSteal c h s
  | .treeAddition c => Sys2Proof.Machine.execTreeAddition c s
  | .workItemStart c filler t => Sys2Proof.Machine.execWorkItemStart c filler t s
  | .workItemComplete c t => Sys2Proof.Machine.execWorkItemComplete c t s
  | .itemWatchdog c t => Sys2Proof.Machine.execItemWatchdog c t s
  | .fillerPreempt tile cluster => Sys2Proof.Machine.execFillerPreempt tile cluster s
  | .routeRequest tile => Sys2Proof.Machine.execRouteRequest tile s
  | .placementBuild => Sys2Proof.Machine.execPlacementBuild s
  | .biasUpdate part others => Sys2Proof.Machine.execBiasUpdate part others s
  | .exchange tag => Sys2Proof.Machine.execExchange tag s
  | .segment tag bytes => Sys2Proof.Machine.execSegment tag bytes s
  | .alloc tile req part => Sys2Proof.Machine.execAlloc tile req part s
  | .free tile req part => Sys2Proof.Machine.execFree tile req part s
  | .share tile req part => Sys2Proof.Machine.execShare tile req part s
  | .release tile req part => Sys2Proof.Machine.execRelease tile req part s
  | .collSetup jseq => Sys2Proof.Machine.execCollSetup jseq s
  | .collRemove jseq => Sys2Proof.Machine.execCollRemove jseq s
  | .rankValueReady tag t => Sys2Proof.Machine.execRankValueReady tag t s
  | .contributionHeader word t => Sys2Proof.Machine.execContributionHeader word t s
  | .bucketDeadline tag t => Sys2Proof.Machine.execBucketDeadline tag t s
  | .mask tag step bytes => Sys2Proof.Machine.execMask tag step bytes s
  | .contributionData tag rank first bytes => Sys2Proof.Machine.execContributionData tag rank first bytes s
  | .paramGather tag => Sys2Proof.Machine.execParamGather tag s
  | .gatherShard tag unit version crc bytes => Sys2Proof.Machine.execGatherShard tag unit version crc bytes s
  | .permute tag moves => Sys2Proof.Machine.execPermute tag moves s
  | .prepare part => Sys2Proof.Machine.execPrepare part s
  | .confirm part rank step gen epoch t => Sys2Proof.Machine.execConfirm part rank step gen epoch t s
  | .fail part rank step status t => Sys2Proof.Machine.execFail part rank step status t s
  | .sealTimeout part t => Sys2Proof.Machine.execSealTimeout part t s
  | .commit part step gen => Sys2Proof.Machine.execCommit part step gen s
  | .abort part step replay cause => Sys2Proof.Machine.execAbort part step replay cause s
  | .sealDecisionTimeout part ask => Sys2Proof.Machine.execSealDecisionTimeout part ask s
  | .sealRootLost part t => Sys2Proof.Machine.execSealRootLost part t s
  | .patrolScrub addr found => Sys2Proof.Machine.execPatrolScrub addr found s
  | .dramRefresh stack => Sys2Proof.Machine.execDramRefresh stack s
  | .certReq f t => Sys2Proof.Machine.execCertReq f t s
  | .openId f t => Sys2Proof.Machine.execOpenId f t s
  | .openKey f t => Sys2Proof.Machine.execOpenKey f t s
  | .close f t => Sys2Proof.Machine.execClose f t s
  | .ack f t => Sys2Proof.Machine.execAck f t s
  | .keepalive f t => Sys2Proof.Machine.execKeepalive f t s
  | .timeSet f t => Sys2Proof.Machine.execTimeSet f t s
  | .command f t => Sys2Proof.Machine.execCommand f t s
  | .retransmit sess t => Sys2Proof.Machine.execRetransmit sess t s
  | .cmpIdleTimeout sess t => Sys2Proof.Machine.execCmpIdleTimeout sess t s
  | .ingestData f t => Sys2Proof.Machine.execIngestData f t s
  | .credit stream t => Sys2Proof.Machine.execCredit stream t s
  | .pfcFrame port times t => Sys2Proof.Machine.execPfcFrame port times t s
  | .icmpEcho f => Sys2Proof.Machine.execIcmpEcho f s
  | .neighbourResolution port sender mac asked => Sys2Proof.Machine.execNeighbourResolution port sender mac asked s
  | .sessList sess reqId params => Sys2Proof.Machine.execSessList sess reqId params s
  | .sessEnd sess reqId params => Sys2Proof.Machine.execSessEnd sess reqId params s
  | .attest sess reqId params => Sys2Proof.Machine.execAttest sess reqId params s
  | .loadPartition jseq => Sys2Proof.Machine.execLoadPartition jseq s
  | .unload jseq => Sys2Proof.Machine.execUnload jseq s
  | .loadWrite jseq => Sys2Proof.Machine.execLoadWrite jseq s
  | .loadFromStream jseq => Sys2Proof.Machine.execLoadFromStream jseq s
  | .streamOpen jseq => Sys2Proof.Machine.execStreamOpen jseq s
  | .streamClose jseq => Sys2Proof.Machine.execStreamClose jseq s
  | .jobStart jseq => Sys2Proof.Machine.execJobStart jseq s
  | .jobPause jseq => Sys2Proof.Machine.execJobPause jseq s
  | .jobResume jseq => Sys2Proof.Machine.execJobResume jseq s
  | .jobStop jseq => Sys2Proof.Machine.execJobStop jseq s
  | .stepRun jseq => Sys2Proof.Machine.execStepRun jseq s
  | .placeStage jseq => Sys2Proof.Machine.execPlaceStage jseq s
  | .pwrSetState jseq => Sys2Proof.Machine.execPwrSetState jseq s
  | .resetCold jseq => Sys2Proof.Machine.execResetCold jseq s
  | .resetWarm jseq => Sys2Proof.Machine.execResetWarm jseq s
  | .tileIsolate jseq => Sys2Proof.Machine.execTileIsolate jseq s
  | .regRead sess reqId params => Sys2Proof.Machine.execRegRead sess reqId params s
  | .regWrite sess reqId params => Sys2Proof.Machine.execRegWrite sess reqId params s
  | .lnkHold sess reqId value => Sys2Proof.Machine.execLnkHold sess reqId value s
  | .evtRateWindow sess reqId value => Sys2Proof.Machine.execEvtRateWindow sess reqId value s
  | .evtRateDefault sess reqId value => Sys2Proof.Machine.execEvtRateDefault sess reqId value s
  | .evtRateOverride sess reqId entry value => Sys2Proof.Machine.execEvtRateOverride sess reqId entry value s
  | .cfgStage jseq => Sys2Proof.Machine.execCfgStage jseq s
  | .updBegin jseq => Sys2Proof.Machine.execUpdBegin jseq s
  | .updData jseq back => Sys2Proof.Machine.execUpdData jseq back s
  | .updActivate jseq => Sys2Proof.Machine.execUpdActivate jseq s
  | .updAbort jseq => Sys2Proof.Machine.execUpdAbort jseq s
  | .jnlRead sess reqId params => Sys2Proof.Machine.execJnlRead sess reqId params s
  | .jnlOutstanding sess reqId params => Sys2Proof.Machine.execJnlOutstanding sess reqId params s
  | .jnlResult sess reqId params => Sys2Proof.Machine.execJnlResult sess reqId params s
  | .evtRead sess reqId params => Sys2Proof.Machine.execEvtRead sess reqId params s
  | .evtCursor sess reqId params => Sys2Proof.Machine.execEvtCursor sess reqId params s
  | .codeword port cw wrongData wrongParity t => Sys2Proof.Machine.execCodeword port cw wrongData wrongParity t s
  | .linkPacket port p t => Sys2Proof.Machine.execLinkPacket port p t s
  | .ackStall port t => Sys2Proof.Machine.execAckStall port t s
  | .linkRetrain port tr t => Sys2Proof.Machine.execLinkRetrain port tr t s
  | .linkDown port t => Sys2Proof.Machine.execLinkDown port t s
  | .portDownRetry port tr => Sys2Proof.Machine.execPortDownRetry port tr s
  | .weakLane port lane corrected lostLock t => Sys2Proof.Machine.execWeakLane port lane corrected lostLock t s
  | .railSample rail reading t => Sys2Proof.Machine.execRailSample rail reading t s
  | .islandSensor sensor temp t => Sys2Proof.Machine.execIslandSensor sensor temp t s
  | .boost tile t => Sys2Proof.Machine.execBoost tile t s
  | .powerCeiling r t => Sys2Proof.Machine.execPowerCeiling r t s
  | .energyUpdate u t => Sys2Proof.Machine.execEnergyUpdate u t s
  | .tileControllerWatchdog tile fault => Sys2Proof.Machine.execTileControllerWatchdog tile fault s
  | .hubWatchdog => Sys2Proof.Machine.execHubWatchdog s
  | .stressUpdate temps => Sys2Proof.Machine.execStressUpdate temps s
  | .lifetimeRecordWrite fails => Sys2Proof.Machine.execLifetimeRecordWrite fails s
  | .eventRecord e => Sys2Proof.Machine.execEventRecord e s
  | .eventSummary t => Sys2Proof.Machine.execEventSummary t s
  | .modWarmNHigh t => Sys2Proof.Machine.execModWarmNHigh t s
  | .backgroundRebuild => Sys2Proof.Machine.execBackgroundRebuild s
  | .pfcPauseExpiry port prio t => Sys2Proof.Machine.execPfcPauseExpiry port prio t s

end Sys2Proof.Machine
end

