-- ==== Sys2Proof/Machine/Step.lean ====
section
/-! DEFINITION. Sys2Proof/Machine/Step.lean: one step of the block: the command at the front of the queue, or one nanosecond of idling. -/

namespace Sys2Proof.Machine

open Sys2Proof

/-- DESIGN CHOICE (assumption 3): a step on an empty queue lets one nanosecond pass on the local counter and the model's clock, in which the receive
buffers drain (assumption 53). -/
def State.idle (s : State) : State :=
  (({ s with counter := s.counter + 1, wall := s.wall + 1 } : State).drainPort 0 1).drainPort 1 1

def step (s : State) : Host.Outcome State Fault Refusal :=
  match s.pending with
  | [] => .next s.idle
  | c :: rest => exec c { s with pending := rest }

/-- The table spells no command by bits (Decode.lean), so nothing is put in front of the queue. (DESIGN CHOICE, log 1) -/
def State.withFetchWord (s : State) (nbits w : Nat) : State :=
  match decodeTableWord nbits w with
  | some c => { s with pending := c :: s.pending }
  | none => s

end Sys2Proof.Machine
end

