-- ==== Sys2Proof/Safety.lean ====
section
/-! DEFINITION. Sys2Proof/Safety.lean: what counts as a safe run, and the invariant of the stores that statements speak of. -/

namespace Sys2Proof.Machine

open Sys2Proof

/-- The stores are in their canonical form: keys strictly rising, no entry equal to what an unlisted key reads as (0 in memory, R279; 0xFF
in erased flash, assumption 8; a register's, a core's or a cluster's reset value), so that equal contents are equal data. -/
structure State.storesOk (s : State) : Prop where
  mem : Memory.wf s.mem = true
  flash0 : Sparse.wf 0xFF s.flash0 = true
  flash1 : Sparse.wf 0xFF s.flash1 = true
  regs : regsWf s.regs = true
  cores : Sparse.wf Core.reset s.cores = true
  clusters : Sparse.wf ⟨[], []⟩ s.clusters = true

/-- A run of `n` steps that no refusal cuts short. -/
def safeRun (n : Nat) (s : State) : Prop := ∃ t, core.run n s = .next t

/-- The one command that may stop a step (R388, R614): a unit test instruction while the test port is alive and unlocked. -/
def stops (c : Instr) (s : State) : Prop :=
  ∃ unit, c = .unitTestInstruction unit ∧ s.pins.pgood = true ∧ s.pins.trstN = true ∧ s.tap.unlocked = true

end Sys2Proof.Machine
end

