-- ==== Sys2Proof/WellFormed.lean ====
section
/-! DEFINITION. Sys2Proof/WellFormed.lean: the operands a command may carry, by the widths and counts that the manual gives them. What
depends on the state (an open session, a tag that is set up) is the command's own check, in its meaning. -/

namespace Sys2Proof

open Sys2Proof.Machine

/-- An array has 32 rows and 32 columns, a core four arrays (R16). -/
def Upset.wf (u : Upset) : Bool := decide (u.array < 4 ∧ u.row < 256 ∧ u.col < 32)

def Health.wf (h : Health) : Bool := h.upsets.all Upset.wf

/-- Eighteen lanes a port (R498). -/
def PortTrain.wf (p : PortTrain) : Bool := decide (p.lanes < 2 ^ 18)

/-- What a start-up finds names units that exist: eleven steps (R403), 1350 cores, 90 clusters, 960 in service (R13, R14), eight ports, two
Ethernet ports. -/
def StartReport.wf (r : StartReport) : Bool :=
  decide (r.durations.length ≤ 11) && r.coreFails.all (· < 1350) && r.clusterFails.all (· < 90)
    && r.pcFails.all (fun p => decide (p.1 < 10 ∧ p.2.1 < 2)) && r.stackFails.all (fun p => decide (p.1 < 10 ∧ p.2 < 2))
    && decide (r.ports.length = 8) && r.ports.all PortTrain.wf
    && decide (r.ethUp.length = 2 ∧ r.ethPlugged.length = 2)

/-- A logical core below 960 and a partition below 8 (R466, R539). -/
def SynWait.wf : SynWait → Bool
  | .queues _ _ _ _ => true
  | .cores idx => idx.all (· < 960)
  | .bucket _ | .gather _ | .exchange _ => true
  | .sealed part _ => decide (part < 8)

/-- A layer has at most 256 experts (R221, R251). -/
def DemandMsg.wf (m : DemandMsg) : Bool := decide (m.demand.length ≤ 256)

/-- Queue energies by 8p + q (R542). -/
def EnergyUpdate.wf (u : EnergyUpdate) : Bool := decide (u.queues.length = 64)

/-- A codeword carries at most 640 bytes of packets (R502), in whole units of 16 (R504). -/
def codewordWf (cw : Codeword) : Bool := decide (cw.payload.length ≤ 640) && cw.payload.length % 16 == 0

/-- A packet's channel is 0 to 3, its payload 0 to 8192 bytes in multiples of 16 (R504, R507). -/
def packetWf (p : LinkPacket) : Bool := decide (p.vc < 4 ∧ p.payload.length ≤ 8192 ∧ p.payload.length % 16 = 0)

/-- A UDP payload lies within its IP packet, and the packet within its frame (R435). -/
def frameWf (f : Frame) : Bool := decide (f.payload.length ≤ f.ipLen ∧ f.ipLen ≤ f.frameLen)

def Instr.wf : Instr → Bool
  | .modPwrEnRise _ _ _ | .modPwrEnFall _ | .inputUndervoltage _ _ _ | .brownoutRide _ _ | .modResetNLow _ _ | .modResetNHigh _
  | .modWarmN _ _ | .leakTrip | .modWarmNHigh _ | .ethPortRetry _ _ | .ethLinkChange _ _ => true
  | .startUp r => r.wf
  | .startTimeout step _ => decide (1 ≤ step ∧ step ≤ 11)
  | .clearFaults _ | .capability _ | .statusWord _ | .readVin _ | .readIin _ | .readTemperature1 _ | .readTemperature2 _
  | .readTemperature3 _ | .readPin _ | .pmbusRevision _ | .mfrId _ | .mfrModel _ | .mfrSerial _ | .mfrPowerState _ | .mfrLeak _
  | .mfrReady _ | .mfrGeoFingerprint _ | .mfrSlot _ | .smbusOtherWrite _ _ | .smbusAlertResponse => true
  | .fruEepromRead _ off _ _ => decide (off < 8192)
  | .bypass | .idcode | .unitTestInstruction _ | .unlockChallenge | .unlockToken _
  | .trstN _ => true
  | .extest | .extestPulse | .extestTrain => true
  | .samplePreload a b => decide (0 < a.length ∧ a.length % 681 = 0 ∧ b.length = a.length)
  | .instructionFetch _ | .slotWriteComplete _ _ _ | .stlOffer _ | .stlWithdraw _ | .treeAddition _
  | .dmvComplete _ _ | .workItemStart _ _ _ | .workItemComplete _ _ | .itemWatchdog _ _ | .fillerPreempt _ _ => true
  | .tld _ h | .mma _ h | .gmm _ h | .tcv _ h | .vch _ h | .trd _ h | .rwf _ h | .rwb _ h | .dmv _ h | .stlOpen _ h
  | .steal _ h => h.wf
  | .syn _ w | .hold _ ⟨w, _⟩ => w.wf
  | .routeRequest _ | .placementBuild | .exchange _ | .segment _ _ => true
  | .biasUpdate part others => decide (part < 8) && others.all DemandMsg.wf
  | .alloc _ _ part | .free _ _ part | .share _ _ part | .release _ _ part => decide (part < 8)
  | .rankValueReady _ _ | .contributionHeader _ _ | .bucketDeadline _ _ | .mask _ _ _ | .contributionData _ _ _ _
  | .paramGather _ | .gatherShard _ _ _ _ _ | .permute _ _ => true
  | .prepare part | .confirm part _ _ _ _ _ | .fail part _ _ _ _ | .sealTimeout part _ | .commit part _ _ | .abort part _ _ _
  | .sealDecisionTimeout part _ | .sealRootLost part _ => decide (part < 8)
  | .patrolScrub addr _ => decide (addr < 2 ^ 48 + 960 * 2 ^ 20)
  | .dramRefresh stack => decide (stack < 20)
  | .certReq f _ | .openId f _ | .openKey f _ | .close f _ | .ack f _ | .keepalive f _ | .timeSet f _ | .command f _
  | .ingestData f _ | .icmpEcho f => frameWf f
  | .retransmit sess _ | .cmpIdleTimeout sess _ | .sessList sess _ _ | .sessEnd sess _ _ | .attest sess _ _ | .regRead sess _ _
  | .regWrite sess _ _ | .lnkHold sess _ _ | .evtRateWindow sess _ _ | .evtRateDefault sess _ _ | .evtRateOverride sess _ _ _
  | .jnlRead sess _ _ | .jnlOutstanding sess _ _ | .jnlResult sess _ _ | .evtRead sess _ _ | .evtCursor sess _ _ =>
    decide (sess < 16)
  | .credit _ _ | .neighbourResolution _ _ _ _ => true
  | .pfcFrame _ times _ => times.all fun e => decide (e.1 < 8 ∧ e.2 < 2 ^ 16)
  | .pfcPauseExpiry _ prio _ => decide (prio < 8)
  | .collSetup jseq | .collRemove jseq | .loadPartition jseq | .unload jseq | .loadWrite jseq | .loadFromStream jseq
  | .streamOpen jseq | .streamClose jseq | .jobStart jseq | .jobPause jseq | .jobResume jseq | .jobStop jseq | .stepRun jseq
  | .placeStage jseq | .pwrSetState jseq | .resetCold jseq | .resetWarm jseq | .tileIsolate jseq | .cfgStage jseq
  | .updBegin jseq | .updData jseq _ | .updActivate jseq | .updAbort jseq => decide (0 < jseq ∧ jseq < 2 ^ 64)
  | .codeword _ cw _ _ _ => codewordWf cw
  | .linkPacket _ p _ => packetWf p
  | .linkRetrain _ tr _ | .portDownRetry _ tr => tr.wf
  | .ackStall _ _ | .linkDown _ _ | .weakLane _ _ _ _ _ => true
  | .railSample _ _ _ | .islandSensor _ _ _ | .boost _ _ | .powerCeiling _ _ => true
  | .energyUpdate u _ => u.wf
  | .tileControllerWatchdog _ _ | .hubWatchdog | .lifetimeRecordWrite _ | .eventSummary _ | .backgroundRebuild => true
  | .stressUpdate temps => decide (temps.length = 612)
  | .eventRecord e => decide (e.part < 256)

end Sys2Proof
end

