-- ==== Sys2Proof/Certificates/Slice0/Obligations.lean ====
section
/-! DEFINITION. Sys2Proof/Certificates/Slice0/Obligations.lean: the statements for the provers. A frame is written as `t = { s with f := t.f … }`:
every field of State but those listed is unchanged. -/

open Sys2Proof Sys2Proof.Machine

/-- A queued command has become final with a status (R469, R473, R488, R492): its queue has lost it and remembers its empty record, it is
not outstanding, and the journal's last entry is its COMPLETED entry in every copy in service. -/
def Sys2Proof.Machine.completes (s t : State) (c : Cmd) (st : Status) : Prop :=
  (t.queueOf c).cmds = ((s.queueOf c).cmds.filter fun d => d.jseq != c.jseq) ∧ (t.queueOf c).lastFinal = t.jnl.last ∧
  (t.queueOf c).results.head? = some (c.jseq, []) ∧ t.isFinal c.jseq = true ∧ s.jnl.last < t.jnl.last ∧
  (t.jnl.svc.testBit 0 = true → t.jnl.mirror.find? (fun e => e.1 == t.jnl.last % ringSlots)
    = some (t.jnl.last % ringSlots, Twin.both (c.entry t.jnl.last .completed st.code 0)))

/-- What a queued command changes beside its own effect: the journal, the queues, and what its NOTIFY frame passes through. -/
def Sys2Proof.Machine.queueFrame (s t : State) : State :=
  { s with jnl := t.jnl, mgmt := t.mgmt, parts := t.parts, cmp := t.cmp, out := t.out, eth := t.eth, regs := t.regs }

/-- A RESPONSE of one frame (R441, R473) waits for its acknowledgement, or for its turn, in session i. -/
def Sys2Proof.Machine.answered (i : Nat) (reqId : W64) (st : Status) (body : List Byte) (t : State) : Prop :=
  ∃ g ∈ (t.session i).unacked ++ (t.session i).waiting, g.type = 0x11 ∧ g.reqId = reqId ∧ g.status = st.code ∧ g.body = body

/-- Session i is open while Campion serves outside the recovery loader, its numbers are not used up, and bodies up to `n` bytes fit one
frame (R446, R451). -/
def Sys2Proof.Machine.canAnswer (i n : Nat) (s : State) : Prop :=
  s.storesOk ∧ s.netUp = true ∧ s.boot.phase ≠ .recovery ∧ (s.session i).isOpen = true ∧ (s.session i).txSeq < 2 ^ 48 ∧
  n ≤ s.bodyRoom (s.session i)

/-- What sending frames in a session changes: what was sent or held back, the session, the counters of frames sent. -/
def Sys2Proof.Machine.sendFrame_ (s t : State) : State :=
  { s with out := t.out, eth := t.eth, cmp := { s.cmp with sessions := t.cmp.sessions }, regs := t.regs }

/-- A frame toward `dst` leaves port `p` of `s`, whose priorities nothing pauses, as `outs`; while its next hop's MAC is not known it waits in
the port `e` after the frame, and the first that waits asks for the MAC (R434). -/
def Sys2Proof.Machine.goesOut (s : State) (p : Fin 2) (ingest : Bool) (dst : Addr) (o : EthHead → Out) (e : EthPort) (outs : List Out) : Prop :=
  let hop := s.nextHop p dst
  match s.hopMac p dst with
  | some mac => outs = [o (s.ethHead p ingest true mac)] ∧ e.unresolved = (s.ethPort p).unresolved
  | none =>
    e.unresolved = (s.ethPort p).unresolved ++ [(hop, s.sendPrio p ingest, o (s.ethHead p ingest true 0))] ∧
    outs = if (s.ethPort p).unresolved.any (fun x => x.1 == hop) = true then [] else [.solicit p (s.ethHead p false hop.ipv6 0xFFFFFFFFFFFF) hop]

/-- The message that goes to rank r of a group, with its channel and its ports (R507, R508). -/
def Sys2Proof.Machine.message (s : State) (part axes r kind : Nat) (bytes : List Byte) : Out :=
  let p := s.partition part
  .rank part (p.flatten (p.coordsOf axes r)) kind bytes (messageVc kind) (s.messagePorts kind (s.rankDst p axes r))

/-- No link ends a message of a kind to rank r before it is sent: its destination is not bypassed, no port on its route is DOWN (R500, R516). -/
def Sys2Proof.Machine.reaches (s : State) (part axes r kind : Nat) : Prop :=
  let dst := s.rankDst (s.partition part) axes r
  s.messageBar dst (s.messagePorts kind dst) = none

/-- A step takes the command at the front of the queue and is exec of it on the state with the queue's rest; an idle step is one nanosecond, in
which the receive buffers drain at line rate and XON goes out below 2 MiB (DESIGN CHOICE, assumptions 3 and 53). -/
def Obligations.StepRunsFrontCommand : Prop :=
  (∀ (c : Instr) (rest : List Instr) (s : State),
    step { s with pending := c :: rest } = exec c { s with pending := rest }) ∧
  (∀ s : State, s.pending = [] → ∃ u, step s = .next u ∧
    u = { s with counter := s.counter + 1, wall := s.wall + 1, eth := u.eth, out := u.out, regs := u.regs } ∧
    (regsWf s.regs = true → s.eth.length = 2 → ∀ p : Fin 2,
      let n := (s.ethPort p).level - s.ethRate p / 8
      let on := (s.ethPort p).xoff && decide (n < 0x200000)
      u.ethPort p = { s.ethPort p with level := n, xoff := (s.ethPort p).xoff && !on } ∧
      (on = true → .pfc p (s.ingestPrio p) false ∈ u.out))) ∧
  ∀ s : State, s.pending = [] → (∀ e ∈ s.eth, e.level = 0 ∧ e.xoff = false) →
    step s = .next { s with counter := s.counter + 1, wall := s.wall + 1 }

/-- Every command ends in a next state, but for a unit test instruction on a live and unlocked test port (R388, R614), which is refused.
The model's own readings and choices that it rests on: log 5, 16. -/
def Obligations.EveryCommandCompletes : Prop :=
  ∀ (c : Instr) (s : State), (∃ t, exec c s = .next t) ∨ (stops c s ∧ exec c s = .refused .unitTestEffect)

/-- Every step keeps the stores in their canonical form, from every state that has it. -/
def Obligations.StepKeepsStores : Prop :=
  ∀ s t : State, s.storesOk → step s = .next t → t.storesOk

/-- The invariant of StepKeepsStores holds at reset, where every byte of memory reads 0 (R279).
The model's own readings and choices that it rests on: log 55. -/
def Obligations.ResetStoresCanonical : Prop :=
  State.reset.storesOk ∧ ∀ a n, State.reset.readMem a n = List.replicate n 0

/-- No command changes the part (R1) or the waiting commands, and free values drawn once are not drawn again.
The model's own readings and choices that it rests on: log 1, 2, 10. -/
def Obligations.CommandsKeepPartAndQueue : Prop :=
  ∀ (c : Instr) (s t : State), exec c s = .next t →
    t.part = s.part ∧ t.pending = s.pending ∧ s.freeCtr ≤ t.freeCtr

/-- State.reset by the manual's words on an unpowered module (R376, R377, R394, R402, R466, R555). -/
def Obligations.ResetMatchesTheManual : Prop :=
  let s := State.reset
  s.pins.pwrEn = false ∧ s.pins.pgood = false ∧ s.pins.resetN = false ∧ s.pins.trstN = false ∧ s.pins.leakN = true ∧
  s.pins.input = .openPath ∧ s.boot.phase = .off ∧ s.boot.step = 0 ∧
  (∀ p < 8, (s.partition p).state = .empty) ∧ (∀ a ∈ s.links.axes, a.through = false) ∧ s.links.axes.length = 4 ∧
  (∀ i < 16, (s.session i).isOpen = false) ∧ s.cmp.streams = [] ∧ s.pending = [] ∧
  s.lif.coreSt.length = 1350 ∧ s.lif.clusterSt.length = 90 ∧
  (s.lif.coreSt.filter fun u => u.state = .inService).length = 960 ∧
  (s.lif.coreSt.filter fun u => u.state = .spare).length = 390 ∧
  (s.lif.clusterSt.filter fun u => u.state = .inService).length = 80 ∧
  (s.lif.clusterSt.filter fun u => u.state = .spare).length = 10

/-- Power-up and the losses of module power (R370, R378 to R380).
The model's own readings and choices that it rests on: log 6, 34. -/
def Obligations.PowerComesAndGoes : Prop :=
  (∀ (slot : BitVec 4) (t : Nat) (s : State), s.pins.pwrEn = false →
    (s.pins.lockout = true → s.pins.enFell + 100000000 ≤ t) →
    ∃ u, exec (.modPwrEnRise slot true t) s = .next u ∧
      u = { s with wall := u.wall, counter := 0, freeCtr := u.freeCtr, pins := u.pins, tap := u.tap, cmp := u.cmp, boot := u.boot } ∧
      u.pins.pwrEn = true ∧ u.pins.pgood = true ∧ u.pins.slot = slot ∧ u.pins.input = .closedPath ∧ u.pins.lockout = false ∧
      u.pins.hold = (if s.pins.resetN then .running else .cold) ∧ u.boot.phase = .starting ∧ u.boot.step = 1 ∧
      s.pins.enFell + 100000000 ≤ max u.wall s.wall) ∧
  (∀ (t : Nat) (s : State), s.pins.pwrEn = true →
    ∃ u, exec (.modPwrEnFall t) s = .next u ∧
      u = { State.reset with part := s.part, flash0 := s.flash0, flash1 := s.flash1, wall := u.wall, out := s.out, freeCtr := s.freeCtr,
                             pending := s.pending, pins := u.pins,
                             tansy := { Tansy.reset with spillNext := s.tansy.spillNext, spillBad := s.tansy.spillBad } } ∧
      u.pins.pwrEn = false ∧ u.pins.pgood = false ∧ u.pins.input = .openPath ∧ u.pins.enFell = t ∧ u.pins.leakN = true) ∧
  ∀ (mv ns t : Nat) (s : State), s.pins.pgood = true → (mv < 44000 ∧ 100000 < ns ∨ mv < 48000 ∧ 1000000 < ns) →
    ∃ u, exec (.inputUndervoltage mv ns t) s = .next u ∧
      u = { State.reset with part := s.part, flash0 := s.flash0, flash1 := s.flash1, wall := u.wall, out := s.out, freeCtr := s.freeCtr,
                             pending := s.pending, pins := u.pins,
                             tansy := { Tansy.reset with spillNext := s.tansy.spillNext, spillBad := s.tansy.spillBad } } ∧
      u.pins.pwrEn = s.pins.pwrEn ∧ u.pins.pgood = false ∧ u.pins.lockout = true

/-- The reset pins (R381, R382) and what the two resets leave (R429, R430).
The model's own readings and choices that it rests on: log 6, 30, 55. -/
def Obligations.ResetPinsAndWarmResets : Prop :=
  (∀ (lowNs t : Nat) (s : State), lowNs < 1000 → exec (.modResetNLow lowNs t) s = .next s) ∧
  (∀ (lowNs t : Nat) (s : State), 1000 ≤ lowNs → s.pins.pgood = true →
    ∃ u, exec (.modResetNLow lowNs t) s = .next u ∧ u.pins.resetN = false ∧ u.pins.hold = .cold ∧ u.mem = [] ∧ u.cores = [] ∧
      u.clusters = [] ∧ u.parts = State.reset.parts ∧ u.boot.phase = .starting ∧ u.boot.cause = 1 ∧ u.flash1 = s.flash1 ∧
      u.pending = s.pending ∧ u.part = s.part) ∧
  (∀ (t : Nat) (s : State), exec (.modResetNHigh t) s =
    .next { s with wall := max s.wall t, counter := s.counter + (t - s.wall), tap := { s.tap with driving := false },
                   pins := { s.pins with resetN := true, hold := if s.pins.hold = .cold ∧ s.pins.pgood = true then .running else s.pins.hold } }) ∧
  (∀ (lowNs t : Nat) (s : State), 1000 ≤ lowNs → s.pins.resetN = true → s.pins.pgood = true →
    s.boot.phase = .ready → s.pins.resetFell + 1000 < t →
    ({ s.atWall t with pins := { s.pins with warmN := false, warmFell := t } } : State).warmMadeCold = false →
    ∃ u, exec (.modWarmN lowNs t) s = .next u ∧ u.pins.warmN = false ∧ u.pins.hold = .warm ∧ u.boot.phase = .starting ∧ u.boot.cause = 3 ∧
      (∀ a < 0x00A000000000, Sparse.get 0 u.mem a = Sparse.get 0 s.mem a) ∧
      (∀ a, 0x00A000000000 ≤ a → Sparse.get 0 u.mem a = 0) ∧ u.cores = [] ∧ u.flash1 = s.flash1 ∧
      ((s.cmp.streams.all fun x => x.2.cur.isNone) = true → u.flash0 = s.flash0) ∧
      u.parts.map (fun p => (p.state, p.kind, p.windows)) = s.parts.map (fun p => (p.state, p.kind, p.windows))) ∧
  ∀ (t : Nat) (s : State), exec (.modWarmNHigh t) s =
    .next { s with wall := max s.wall t, counter := s.counter + (t - s.wall),
                   pins := { s.pins with warmN := true, hold := if s.pins.hold = .warm then .running else s.pins.hold } }

/-- LEAK_TRIP (R374) and BROWNOUT_RIDE (R368, R383).
The model's own readings and choices that it rests on: log 6, 14. -/
def Obligations.LeakTripAndBrownout : Prop :=
  (∀ s : State, s.pins.pgood = true →
    ∃ u, exec .leakTrip s = .next u ∧ u.pins.pgood = false ∧ u.pins.leakN = false ∧ u.alertN = false ∧ u.pins.pwrEn = s.pins.pwrEn ∧
      u.mem = [] ∧ u.cores = [] ∧ u.parts = State.reset.parts ∧ u.flash1 = s.flash1 ∧ u.pending = s.pending) ∧
  ∀ (mv ns : Nat) (s : State), s.pins.pgood = true → mv < 48000 → underVoltage mv ns = false →
    ∃ u, exec (.brownoutRide mv ns) s = .next u ∧
      u = { s with pins := { s.pins with alertBrown := true }, smb := ⟨s.smb.status ||| 0x2008⟩, tansy := u.tansy, flash0 := u.flash0, regs := u.regs } ∧
      u.alertN = false

/-- What a telemetry read returns (R385): its address, its command code and bytes; none for every other command. The readings are held in mV, 0.1 A,
W and 1/16 °C. -/
def Sys2Proof.Machine.telemetryRead (s : State) : Instr → Option (BitVec 7 × Byte × List Byte)
  | .capability a => some (a, 0x19, [0xB0])
  | .statusWord a => some (a, 0x79, leBytes 2 (s.smb.status ||| s.power.statusBits).toNat)
  | .readVin a => some (a, 0x88, leBytes 2 (linear11 s.readings.vinMv 1000))
  | .readIin a => some (a, 0x89, leBytes 2 (linear11 s.readings.iinDa 10))
  | .readTemperature1 a => some (a, 0x8D, leBytes 2 (linear11 s.readings.inletT 16))
  | .readTemperature2 a => some (a, 0x8E, leBytes 2 (linear11 s.readings.outletT 16))
  | .readTemperature3 a => some (a, 0x8F, leBytes 2 (linear11 (hottest s.power.islands).2 16))
  | .readPin a => some (a, 0x97, leBytes 2 (linear11 s.readings.pinW 1))
  | .pmbusRevision a => some (a, 0x98, [0x33])
  | .mfrId a => some (a, 0x99, BitVec.ofNat 8 7 :: ascii "SPEFIDA")
  | .mfrModel a => some (a, 0x9A, if s.part = .ywbl10 then BitVec.ofNat 8 7 :: ascii "YW-BL10" else BitVec.ofNat 8 8 :: ascii "YW-BL10E")
  | .mfrSerial a => some (a, 0x9E, BitVec.ofNat 8 16 :: padTo 16 s.sec.serial)
  | .mfrPowerState a => some (a, 0xD0, [BitVec.ofNat 8 s.power.state.code])
  | .mfrLeak a => some (a, 0xD1, [if s.pins.alertLeak then 1 else 0])
  | .mfrReady a => some (a, 0xD2, [BitVec.ofNat 8 s.boot.step])
  | .mfrGeoFingerprint a => some (a, 0xD3, BitVec.ofNat 8 8 :: (leBytes 8 s.fp.toNat).reverse)
  | .mfrSlot a => some (a, 0xD4, [s.pins.slot.setWidth 8])
  | _ => none

/-- The telemetry target answers its own address while MOD_PGOOD is high, its bytes with the PEC behind them, and NACKs otherwise (R384, R385).
The model's own readings and choices that it rests on: log 9, 14. -/
def Obligations.TelemetryReadsAnswer : Prop :=
  ∀ (c : Instr) (s : State) (a : BitVec 7) (cmd : Byte) (bs : List Byte), telemetryRead s c = some (a, cmd, bs) →
    exec c s = .next { s with out := s.out ++
      [if s.pins.pgood = true ∧ a.toNat = 0x40 + s.pins.slot.toNat then
        .smbus (bs ++ [pecOf ([BitVec.ofNat 8 (2 * a.toNat), cmd, BitVec.ofNat 8 (2 * a.toNat + 1)] ++ bs)]) else .nack] }

/-- The rest of the SMBus (R383 to R386).
The model's own readings and choices that it rests on: log 13, 14, 65. -/
def Obligations.SmbusWritesAlertAndFru : Prop :=
  (∀ (x : SmbTarget) (s : State), s.pins.pgood = true → x.addr.toNat = 0x40 + s.pins.slot.toNat →
    let right := pecOf [BitVec.ofNat 8 (2 * x.addr.toNat), 0x03]
    ((∀ p, x.pec = some p → p = right) → exec (.clearFaults x) s = .next { s with smb := ⟨0⟩, pins := { s.pins with
      alertBrown := false, alertTrip := s.power.rails.any fun r => r.tripI || r.tripT } }) ∧
    (∀ p, x.pec = some p → p ≠ right →
      exec (.clearFaults x) s = .next { s with smb := ⟨s.smb.status ||| 2⟩, out := s.out ++ [.nack] })) ∧
  (∀ (a : BitVec 7) (cmd : Byte) (s : State), s.pins.pgood = true → a.toNat = 0x40 + s.pins.slot.toNat → cmd ≠ 0x03 →
    exec (.smbusOtherWrite a cmd) s = .next { s with smb := ⟨s.smb.status ||| 2⟩, out := s.out ++ [.nack] }) ∧
  (∀ s : State, s.pins.pgood = true → s.alertN = false →
    let own : Byte := BitVec.ofNat 8 (2 * (0x40 + s.pins.slot.toNat))
    exec .smbusAlertResponse s = .next { s with out := s.out ++ [.smbus [own, pecOf [0x19, own]]] }) ∧
  (∀ s : State, (s.pins.pgood = false ∨ s.alertN = true) → exec .smbusAlertResponse s = .next { s with out := s.out ++ [.nack] }) ∧
  (∀ (a : BitVec 7) (off len : Nat) (x : FruPins) (s : State),
    ∃ bs, bs.length = len ∧ exec (.fruEepromRead a off len x) s = .next { s with out := s.out ++
      [if x.aux = true ∧ a.toNat = 0x60 + x.slot.toNat then .smbus bs else .nack] }) ∧
  ∀ (a : BitVec 7) (x : FruPins) (s : State), x.aux = true → a.toNat = 0x60 + x.slot.toNat →
    exec (.fruEepromRead a 15 8 x) s = .next { s with out := s.out ++ [.smbus (ascii "Spefida" ++ [0xC8])] } ∧
    exec (.fruEepromRead a 23 8 x) s = .next { s with out := s.out ++ [.smbus (ascii "Bolarron")] } ∧
    exec (.fruEepromRead a 32 16 x) s = .next { s with out := s.out ++ [.smbus (s.testRead 8 16)] }

/-- The state after an instruction that loads `ir` and shifts `bits` out of TDO. -/
def Sys2Proof.Machine.loaded (s : State) (ir : TapIr) (bits : List Bool) : State :=
  { s with tap := { s.tap with ir, driving := false }, out := s.out ++ [.tdo bits] }

/-- The test access port (R387, R388, R614).
The model's own readings and choices that it rests on: log 15, 16. -/
def Obligations.BoundaryScanInstructions : Prop :=
  (∀ s : State, s.pins.pgood = true → s.pins.trstN = true →
    exec .bypass s = .next (loaded s .bypass [false]) ∧
    exec .idcode s = .next (loaded s .idcode
      ((List.range 32).map fun i => (if s.part = .ywbl10 then 0x14B10B47 else 0x14B11B47 : Nat).testBit i)) ∧
    (∀ sample preload : List Bool, 681 ≤ sample.length → 681 ≤ preload.length → s.tap.boundary.length = 681 →
      exec (.samplePreload sample preload) s =
        .next { loaded s .samplePreload (sample.take 681) with tap := { s.tap with
          ir := .samplePreload, driving := false, boundary := preload.take 681, levels := sample.drop 681, shift := preload.drop 681 } }) ∧
    exec .unlockChallenge s = .next (loaded s .unlockChallenge
      ((leBytes 8 s.tap.challenge.toNat ++ padTo 16 s.sec.serial).flatMap fun b => (List.range 8).map fun i => b.getLsbD i)) ∧
    (∀ ci ∈ [(Instr.extest, TapIr.extest), (.extestPulse, .extestPulse), (.extestTrain, .extestTrain)],
      let next := s.tap.shift.take 681 ++ s.tap.boundary.drop s.tap.shift.length
      exec ci.1 s = .next (if s.pins.resetN then loaded s .bypass [false] else
        { s with tap := { s.tap with ir := ci.2, driving := true, boundary := next, levels := s.tap.levels.drop 681, shift := s.tap.shift.drop 681 }
                 out := s.out ++ [.driven ci.2 s.tap.boundary, .tdo (s.tap.levels.take 681), .driven ci.2 next] })) ∧
    (∀ unit, s.tap.unlocked = false → exec (.unitTestInstruction unit) s = .next (loaded s .bypass [false])) ∧
    ∀ unit, s.tap.unlocked = true → exec (.unitTestInstruction unit) s = .refused .unitTestEffect) ∧
  (∀ s : State, s.pins.trstN = false →
    (∀ c ∈ [Instr.bypass, .idcode, .extest, .extestPulse, .extestTrain, .unlockChallenge], exec c s = .next s) ∧
    (∀ a b, exec (.samplePreload a b) s = .next s) ∧ (∀ unit, exec (.unitTestInstruction unit) s = .next s) ∧
    ∀ bs, exec (.unlockToken bs) s = .next s) ∧
  ∀ s : State, exec (.trstN true) s = .next { s with pins := { s.pins with trstN := false }, tap := { s.tap with ir := .bypass, driving := false } } ∧
    exec (.trstN false) s = .next { s with pins := { s.pins with trstN := true } }

/-- UNLOCK_TOKEN (R614).
The model's own readings and choices that it rests on: log 2, 12. -/
def Obligations.UnlockTokenOpensTestAccess : Prop :=
  ∀ (bs : List Byte) (s : State), s.pins.pgood = true → s.pins.trstN = true →
    ∃ u, exec (.unlockToken bs) s = .next u ∧
      u = { s with tap := { s.tap with ir := .unlockToken, driving := false, unlocked := u.tap.unlocked, challenge := Config.freeValue s.freeCtr }
                   freeCtr := s.freeCtr + 1, tansy := u.tansy, flash0 := u.flash0, regs := u.regs } ∧
      (u.tap.unlocked = true ↔ s.tap.unlocked = true ∨
        (bs.length = 544 ∧ leAt bs 0 4 = 0x5957554C ∧ slice bs 4 16 = padTo 16 s.sec.serial ∧ leAt bs 20 8 = s.tap.challenge.toNat ∧
          slice bs 28 4 = [0, 0, 0, 0] ∧ pssVerify s.sec.testModulus s.sec.testExponent (bs.take 32) (bs.drop 32) = true))

/-- The start-up and its time-outs (R400 to R405, R374, R612).
The model's own readings and choices that it rests on: log 4, 30, 31. -/
def Obligations.StartUpEndsReadyOrNamesWhyNot : Prop :=
  (∀ (r : StartReport) (s : State), s.boot.phase = .starting → s.pins.hold = .running → s.pins.pgood = true →
    ∃ u, exec (.startUp r) s = .next u ∧
      (u.boot.phase = .ready ∧ u.boot.step = 11 ∨ u.boot.phase = .halted ∨ u.boot.phase = .recovery ∨
        u.boot.phase = .off ∧ u.pins.pgood = false ∧ u.pins.leakN = false) ∧
      (u.boot.phase = .ready ↔ r.wet = false ∧ ∃ s2 s3 s4 s6 s7 : State, (s.startTimes r).step2 r = .ok s2 ∧ s2.step3 r = .ok s3 ∧
        s3.step4 r = .ok s4 ∧ (s4.step5 r).step6 r = .ok s6 ∧ s6.step7 r = .ok s7)) ∧
  (∀ (step : Nat) (units : List Nat) (s : State), s.boot.phase = .starting → s.pins.hold = .running → s.pins.pgood = true →
    1 ≤ step → step ≤ 5 →
    ∃ u, exec (.startTimeout step units) s = .next u ∧
      (step ≤ 2 ∨ (∃ v, s.upTo step = .ok v) → u.boot.phase = .halted ∧ u.boot.step = step - 1 ∧
        (∀ r ∈ u.power.rails, r.on = false) ∧ u.alertN = false) ∧
      (step ≤ 2 →
        u = { s with boot := u.boot, links := u.links, power := u.power, tansy := u.tansy, flash0 := u.flash0, regs := u.regs }) ∧
      ∀ v, s.upTo step = .error v → u = v) ∧
  ∀ (step : Nat) (units : List Nat) (s : State), s.boot.phase = .starting → s.pins.hold = .running → s.pins.pgood = true →
    6 ≤ step → step ≤ 11 →
    exec (.startTimeout step units) s = .next { s with boot := { s.boot with
      excluded := s.boot.excluded ++ units.map (fun n => (step, n)), late := s.boot.late ++ [step] } }

/-- The Ethernet ports' links (R403 step 10, R436, R465).
The model's own readings and choices that it rests on: log 5. -/
def Obligations.EthernetPortsFollowTheirLinks : Prop :=
  (∀ (p : Fin 2) (s : State), s.eth.length = 2 → s.up = true → s.ethEnabled p = true →
    ∃ u, exec (.ethPortRetry p true) s = .next u ∧ (u.ethPort p).up = true ∧ (∀ q, q ≠ p → u.ethPort q = s.ethPort q) ∧
      u = { s with eth := u.eth, tansy := u.tansy, flash0 := u.flash0, regs := u.regs }) ∧
  ∀ (p : Fin 2) (x : EthSeen) (s : State), s.eth.length = 2 → s.netUp = true → (x.up = false ∨ s.ethEnabled p = true) →
    ∃ u, exec (.ethLinkChange p x) s = .next u ∧ (u.ethPort p).up = x.up ∧ (u.ethPort p).plugged = (x.plugged || x.up) ∧
      (∀ q, q ≠ p → u.ethPort q = s.ethPort q) ∧
      u = { s with eth := u.eth, tansy := u.tansy, flash0 := u.flash0, regs := u.regs }

/-- Priority flow control (R437). -/
def Obligations.PausesHoldPrioritiesAndExpire : Prop :=
  (∀ (p : Fin 2) (times : List (Nat × Nat)) (t : Nat) (s : State), s.eth.length = 2 → s.netUp = true → (s.ethPort p).up = true →
    (times.map (·.1)).Nodup →
    ∃ u, exec (.pfcFrame p times t) s = .next u ∧
      (∀ e ∈ times, e.2 ≠ 0 → (e.1, max s.counter t + ceilDiv (512 * e.2) (s.ethRate p)) ∈ (u.ethPort p).paused) ∧
      (∀ e ∈ times, e.2 = 0 → ∀ x ∈ (u.ethPort p).paused, x.1 ≠ e.1) ∧
      (∀ x, x.1 ∉ times.map (·.1) → (x ∈ (u.ethPort p).paused ↔ x ∈ (s.ethPort p).paused)) ∧
      (∀ q, q ≠ p → u.ethPort q = s.ethPort q) ∧
      u = { s with counter := u.counter, wall := u.wall, eth := u.eth, out := u.out, regs := u.regs }) ∧
  ∀ (p : Fin 2) (prio t : Nat) (s : State), s.eth.length = 2 →
    ∃ u, exec (.pfcPauseExpiry p prio t) s = .next u ∧ u.counter = max s.counter t ∧
      (u.ethPort p).paused = (s.ethPort p).paused.filter (fun x => !(x.1 == prio && decide (x.2 ≤ u.counter))) ∧
      (let held (q : Nat × Out) : Bool := (u.ethPort p).paused.any fun x => x.1 == q.1 && decide (u.counter < x.2)
       (u.ethPort p).txq = (s.ethPort p).txq.filter held ∧
       u.out = s.out ++ ((s.ethPort p).txq.filter fun q => !held q).map (·.2)) ∧
      (∀ q, q ≠ p → u.ethPort q = s.ethPort q) ∧
      u = { s with counter := u.counter, wall := u.wall, eth := u.eth, out := u.out, regs := u.regs }

/-- ICMP_ECHO and NEIGHBOUR_RESOLUTION (R434), and what the level of the receive buffer sends (R437).
The model's own readings and choices that it rests on: log 5, 53. -/
def Obligations.EchoAndNeighbourAnswers : Prop :=
  (∀ (f : Frame) (s : State), s.eth.length = 2 → regsWf s.regs = true → s.netUp = true → (s.ethPort f.port).up = true →
    (s.ethPort f.port).paused = [] → f.fcsOk = true →
    let here := min f.buffered (s.ethPort f.port).level
    let fits := decide (here + f.frameLen ≤ 0x400000)
    let level := if fits then here + f.frameLen else here
    let pcp := bitsOf (s.reg (ethReg Reg.ethVlan f.port)) 22 20
    let stop := decide (0x300000 < level) && (s.reg (ethReg Reg.ethPfc f.port)).testBit pcp && !(s.ethPort f.port).xoff
    let resume := decide (level < 0x200000) && (s.ethPort f.port).xoff
    (fits = false → s.layersOk f = false) ∧
    ∃ u outs, exec (.icmpEcho f) s = .next u ∧
      u = { s with out := s.out ++ (if stop || resume then [.pfc f.port pcp stop] else []) ++ outs, eth := u.eth, regs := u.regs } ∧
      u.ethPort f.port = { s.ethPort f.port with
        level, xoff := if stop || resume then stop else (s.ethPort f.port).xoff, unresolved := (u.ethPort f.port).unresolved } ∧
      (if s.layersOk f = true then goesOut s f.port false f.src (fun h => .echo f.port h f.src f.payload) (u.ethPort f.port) outs
       else outs = [] ∧ (u.ethPort f.port).unresolved = (s.ethPort f.port).unresolved) ∧
      (∀ q, q ≠ f.port → u.ethPort q = s.ethPort q) ∧
      u.reg (ethReg Reg.ethPfcSent f.port) = (s.reg (ethReg Reg.ethPfcSent f.port) + b2n (stop || resume)) % 2 ^ 64) ∧
  (∀ (p : Fin 2) (x : NeighbourFrom) (a : Addr) (mac : BitVec 48) (s : State), s.eth.length = 2 → regsWf s.regs = true → s.netUp = true →
    (s.ethPort p).up = true → (s.ethPort p).paused = [] → vlanOk (s.reg (ethReg Reg.ethVlan p)) x.vlan = true → s.ownAddr p a = true →
    ∃ u, exec (.neighbourResolution p x mac (some a)) s = .next u ∧
      (u.ethPort p).neighbours = (x.addr, mac) :: (s.ethPort p).neighbours.filter (fun n => n.1 != x.addr) ∧
      (u.ethPort p).unresolved = (s.ethPort p).unresolved.filter (fun w => w.1 != x.addr) ∧
      u = { s with eth := u.eth, regs := u.regs, out := s.out ++
        ((s.ethPort p).unresolved.filter fun w => w.1 == x.addr).map (fun w => w.2.2.withMac mac) ++
        [.neighbour p (s.ethHead p false x.addr.ipv6 mac) x.addr (BitVec.ofNat 48 (s.mac p.val))] } ∧
      ∀ q, q ≠ p → u.ethPort q = s.ethPort q) ∧
  ∀ (p : Fin 2) (x : NeighbourFrom) (asked : Option Addr) (mac : BitVec 48) (s : State), regsWf s.regs = true → s.netUp = true →
    (s.ethPort p).up = true → vlanOk (s.reg (ethReg Reg.ethVlan p)) x.vlan = false →
    ∃ u, exec (.neighbourResolution p x mac asked) s = .next u ∧ u = { s with regs := u.regs } ∧
      u.reg (ethReg Reg.ethDropped p) = (s.reg (ethReg Reg.ethDropped p) + 1) % 2 ^ 64

/-- The instructions that issue to the matrix, vector and row queues: core, silicon's report, queue, opcode (R69), the condition of their kind
(R80, R89, R101), and what they do. -/
def Sys2Proof.Machine.issued : Instr →
    Option (CoreId × Health × Engine × Nat × (Core → W128 → Bool) × (State → Core → WinEntry → InstrEnd))
  | .mma c h => some (c, h, .matrix, 0x01, mmaMay, fun s k e => s.runMma c.idx h k e)
  | .gmm c h => some (c, h, .matrix, 0x02, gmmMay, fun s k e => s.runGmm c.idx h k e)
  | .tld c h => some (c, h, .matrix, 0x03, fun k _ => k.shadow == .empty, fun s k e => s.runTld c.idx k e)
  | .tcv c h => some (c, h, .matrix, 0x04, tcvMay, fun s k e => s.runTcv c.idx h k e)
  | .vch c h => some (c, h, .vector, 0x10, fun _ _ => true, fun s k e => s.runVch c.idx k e)
  | .trd c h => some (c, h, .vector, 0x11, fun _ _ => true, fun s k e => s.runTrd c.idx k e)
  | .rwf c h => some (c, h, .row, 0x12, fun _ _ => true, fun s k e => s.runRow c.idx k e)
  | .rwb c h => some (c, h, .row, 0x13, fun _ _ => true, fun s k e => s.runRow c.idx k e)
  | _ => none

/-- Sound silicon: nothing to report. -/
def Sys2Proof.Health.sound : Health := ⟨[], [], [], false⟩

/-- The conditions of the issue rule (R88, R89): the core runs and the oldest instruction of the queue, of this opcode, may issue. -/
def Sys2Proof.Machine.readyToIssue (s : State) (i : Nat) (eng : Engine) (op : Nat) (may : Core → W128 → Bool) (e : WinEntry) : Prop :=
  s.coreRuns i = true ∧ (s.core i).head eng = some e ∧ opcodeOf e.word = op ∧ s.mayIssue i e = true ∧ may (s.core i) e.word = true

/-- An instruction that `issued` names, on sound silicon, runs to its end: nothing refuses it at issue, the words of the local store that it reads are
sound, every tile that it reads passes the checks of R54 to R56 and R66, and no row test of the checksum lane fails (R106). -/
def Sys2Proof.Machine.runsWell (s : State) (i : Nat) (e : WinEntry) (cmd : Instr) : Prop :=
  let k := s.core i
  match cmd with
  | .tld .. =>
    let t := tldOf e.word
    ∃ f, (fmtOn s.part t.fmt).filter (fun f => (pairRow f).isSome) = some f ∧
      s.spansOk k (dirSpan t.dirMode t.stride (packing f) ++ (t.tiles k f).map (·.span f)) = true ∧
      ∀ a ∈ t.tiles k f, ∃ x, s.lsTile i k f (some (!t.transpose)) a = .ok x
  | .mma .. =>
    let m := mmaOf e.word
    ∃ fa st, s.mmaBar k m = .ok (fa, st) ∧
      let k' := if m.swap then { k with active := some st, shadow := .empty, shadowSet := none } else k
      ∀ j < m.nt,
        let g := s.tryTiles i k' fa (some false) (some (m.place j).1) (((m.tiles k' (packing st.fmt)).drop (packing st.fmt * j)).take (packing st.fmt))
        g.2 = [] ∧ (m.chain st g.1 g.2.isEmpty j).failing [] = []
  | .gmm .. =>
    let g := gmmOf e.word
    ∃ fa fw, s.gmmBar k g = .ok (fa, fw) ∧ s.lsBad i g.tableSpan.1 g.tableSpan.2 = false ∧ s.gmmStatErrs i k g fw = [] ∧
      ∀ x ∈ g.work k, (s.gmmChain i k g fa fw x).2 = [] ∧ (s.gmmChain i k g fa fw x).1.failing [] = []
  | .tcv .. =>
    ∃ v fi fw, s.tcvBar i k e.word = .ok (v, fi, fw) ∧ s.lsBad i (tcvDesc e.word).1 (tcvDesc e.word).2 = false ∧
      let ws := (List.range v.taps.length).map fun n =>
        let r := s.tryTiles i k fw none none [convAt k v.wMode v.wBase v.wDir fw n]
        (r.1.headD (zeroTile fw), r.2)
      (∀ w ∈ ws, w.2 = []) ∧
      ∀ q < v.arrays.length, (s.tcvChain i k v fi ws q).2 = [] ∧ (s.tcvChain i k v fi ws q).1.failing [] = []
  | .vch .. =>
    ∃ df srcs xs, s.vchBar k (vchOf e.word) = .ok (df, srcs) ∧ (∀ r ∈ (vchOf e.word).blocks, s.lsBad i r.1 r.2 = false) ∧
      s.loadSources i k srcs = .ok xs
  | .trd .. =>
    let t := trdOf e.word
    t.outside k = false ∧ k.isFiller = false ∧ s.spansOk k t.writes = true ∧ (∀ r ∈ t.headers, s.lsBad i r.1 r.2 = false) ∧
      ∀ j < t.nt, ∃ f x, t.fmtAt k j = some f ∧ f.present s.part = true ∧ s.lsTile i k f none ⟨t.addr j, none⟩ = .ok x
  | .rwf .. | .rwb .. =>
    let o := rowOf e.word
    let t := o.tensors k
    ∃ side recs xs, s.rowBar k o = .ok (side, recs) ∧ (∀ r ∈ o.blocks k, s.lsBad i r.1 r.2 = false) ∧
      (o.back = true → ∀ r ∈ (((if k.isFiller then none else k.side.find o.tag).map RowSet.pieces).getD ((o.params k).statSpan t.x.rows)),
        s.lsBad i r.1 r.2 = false) ∧
      s.loadSources i k ([some t.x, t.dy, t.gamma, t.beta].map fun x => x.map fun x => (x, (Fmt.ofCode x.fmt).getD .binary32)) = .ok xs
  | _ => False

/-- Core i's instruction e has run and left what `r` says, and nothing else has changed: other cores, memory, bytes of the local store that it does not
write (R88, R91). -/
def Sys2Proof.Machine.ranAs (s t : State) (i : Nat) (e : WinEntry) (r : Ran) : Prop :=
  t = { s with cores := t.cores, keep := { s.keep with marks := t.keep.marks }, freeCtr := s.freeCtr + r.draws,
               regs := if r.skips = 0 then s.regs else regAdd s.regs Reg.xprEmptyEntries r.skips } ∧
  (∀ j, j ≠ i → t.core j = s.core j) ∧
  t.core i = (if r.slots = [] then (r.core.leave e).uncount e else (r.core.leave e).startDrain e r.slots) ∧
  (Sparse.wf 0 (s.core i).ls = true → ∀ a, (∀ w ∈ r.wrote, a < w.1 ∨ w.1 + w.2 ≤ a) → (t.core i).read a 1 = (s.core i).read a 1)

/-- Instructions issue, run and leave (R88, R89, R91), or end their item refused (R633); those whose operands and tiles are good complete, and the tiles that TRD
writes (R180, R181).
The model's own readings and choices that it rests on: log 4, 7, 41, 57. -/
def Obligations.IssuedInstructionsRunAndLeave : Prop :=
  (∀ (cmd : Instr) (c : CoreId) (eng : Engine) (op : Nat) (may : Core → W128 → Bool) (run : State → Core → WinEntry → InstrEnd)
    (e : WinEntry) (s : State), s.storesOk → issued cmd = some (c, .sound, eng, op, may, run) → readyToIssue s c.idx eng op may e →
    (∀ r, run s (s.core c.idx) e = .done r → ∃ t, exec cmd s = .next t ∧ ranAs s t c.idx e r) ∧
    (runsWell s c.idx e cmd → ∃ r t, run s (s.core c.idx) e = .done r ∧ exec cmd s = .next t ∧ ranAs s t c.idx e r) ∧
    ∀ st, run s (s.core c.idx) e = .refused st →
      ∃ t, exec cmd s = .next t ∧ t = { s with cores := t.cores } ∧ (∀ j, j ≠ c.idx → t.core j = s.core j) ∧
        t.core c.idx = { s.core c.idx with ended := some st, window := [] }) ∧
  ∀ (c : CoreId) (e : WinEntry) (x : Nat → Tile32) (s : State), s.storesOk → Sparse.wf 0 (s.core c.idx).ls = true →
    readyToIssue s c.idx .vector 0x11 (fun _ _ => true) e → runsWell s c.idx e (.trd c .sound) →
    let t := trdOf e.word
    let k := s.core c.idx
    bitsOf k.ctl 31 24 = 0 →
    (∀ j < t.nt, s.lsTile c.idx k ((t.fmtAt k j).getD .binary32) none ⟨t.addr j, none⟩ = .ok (x j)) →
    ∃ u, exec (.trd c .sound) s = .next u ∧ ∀ j < t.results,
      (u.core c.idx).read (t.outAt j) t.outFmt.denseBytes = encodeDense (t.tile (if t.across then (List.range t.nt).map x else [x j]))

/-- A core's slots after an instruction with working slots `used` and output as OUT says; it leaves no stationary set (R77, R101, R247, R248). -/
def Sys2Proof.Machine.slotsLeft (k k' : Core) (used : List Nat) (out : Nat) : Prop :=
  k'.shadow = .empty ∧ k'.shadowSet = none ∧ k'.active = none ∧
  (∀ n ∈ used, (k'.slot n).state = if out = 0 then .accum else .writing) ∧ ∀ n, n ∉ used → k'.slot n = k.slot n

/-- Stationary sets and slots under TLD, MMA, GMM and TCV (R77 to R87, R101, R245 to R248).
The model's own readings and choices that it rests on: log 7, 43. -/
def Obligations.ArrayInstructionsMoveSetsAndSlots : Prop :=
  (∀ (c : CoreId) (e : WinEntry) (f : Fmt) (xs : List Tile32) (s : State), s.storesOk →
    readyToIssue s c.idx .matrix 0x03 (fun k _ => k.shadow == .empty) e →
    fmtOn s.part (bitsOf e.word.toNat 119 115) = some f → (pairRow f).isSome = true →
    s.spansOk (s.core c.idx) (dirSpan (bitOf e.word.toNat 113) (bitsOf e.word.toNat 63 48) (packing f)
      ++ ((tldOf e.word).tiles (s.core c.idx) f).map (·.span f)) = true →
    s.lsTiles c.idx (s.core c.idx) f (some (!bitOf e.word.toNat 114)) ((tldOf e.word).tiles (s.core c.idx) f) = .ok xs →
    ∃ t, exec (.tld c .sound) s = .next t ∧
      t.core c.idx = ({ s.core c.idx with
        shadow := .full, shadowSet := some ⟨f, if bitOf e.word.toNat 114 then xs.map Tile32.transpose else xs⟩ }.leave e).uncount e) ∧
  (∀ (c : CoreId) (e : WinEntry) (fa : Fmt) (st : StatSet) (xs : List Tile32) (s : State), s.storesOk →
    Sparse.wf Slot.reset (s.core c.idx).slots = true →
    readyToIssue s c.idx .matrix 0x01 mmaMay e → s.mmaBar (s.core c.idx) (mmaOf e.word) = .ok (fa, st) →
    (let k := s.core c.idx
     s.lsTiles c.idx (if (mmaOf e.word).swap then { k with active := some st, shadow := .empty, shadowSet := none } else k) fa (some false)
       ((mmaOf e.word).tiles k (packing st.fmt)) = .ok xs) →
    ∃ t, exec (.mma c .sound) s = .next t ∧ ((∃ f, s.runMma c.idx .sound (s.core c.idx) e = .upset f) ∨
      (let m := mmaOf e.word
       let k := t.core c.idx
       (m.swap = true → k.active = (s.core c.idx).shadowSet ∧ k.shadow = .empty ∧ k.shadowSet = none) ∧
       (m.swap = false → k.active = (s.core c.idx).active ∧ k.shadow = (s.core c.idx).shadow ∧ k.shadowSet = (s.core c.idx).shadowSet) ∧
       (∀ u ∈ m.uses, (k.slot (8 * u.1 + u.2)).state = if m.out = 0 then .accum else .writing) ∧
       ∀ n, (∀ u ∈ m.uses, n ≠ 8 * u.1 + u.2) → k.slot n = (s.core c.idx).slot n))) ∧
  (∀ (c : CoreId) (e : WinEntry) (s : State), s.storesOk → Sparse.wf Slot.reset (s.core c.idx).slots = true →
    readyToIssue s c.idx .matrix 0x02 gmmMay e → runsWell s c.idx e (.gmm c .sound) →
    let g := gmmOf e.word
    let k := s.core c.idx
    ∃ t, exec (.gmm c .sound) s = .next t ∧
      slotsLeft k (t.core c.idx) ((g.work k).map fun x => 8 * g.arrayAt x.2.1 + x.1) g.out ∧
      t.reg Reg.xprEmptyEntries = (s.reg Reg.xprEmptyEntries + g.skipped k) % 2 ^ 64) ∧
  ∀ (c : CoreId) (e : WinEntry) (s : State), s.storesOk → Sparse.wf Slot.reset (s.core c.idx).slots = true →
    readyToIssue s c.idx .matrix 0x04 tcvMay e → runsWell s c.idx e (.tcv c .sound) →
    let v := convOf (s.core c.idx) e.word
    ∃ t, exec (.tcv c .sound) s = .next t ∧ slotsLeft (s.core c.idx) (t.core c.idx) (v.arrays.map fun a => 8 * a + v.slot) v.out

/-- INSTRUCTION_FETCH (R70, R88, R91).
The model's own readings and choices that it rests on: log 41. -/
def Obligations.FetchFillsTheWindow : Prop :=
  ∀ (c : CoreId) (h : ItemHdr) (eng : Engine) (s : State), s.storesOk → s.coreRuns c.idx = true → (s.core c.idx).window.length < 16 →
    (s.core c.idx).hdr = some h → (s.core c.idx).pc < h.plen →
    let k := s.core c.idx
    let w : W128 := BitVec.ofNat 128 (leNat (k.read (16 * h.lsProg + 16 * k.pc) 16))
    let sp := spansOf s c.idx k w
    engineOf (bitsOf w.toNat 127 120) = some eng →
    (∀ f ∈ framesOf sp.need, Sparse.get 0 k.wcounts f = 0) →
    (∀ f ∈ framesOf sp.writes, Sparse.get 0 k.wcounts f < 63) →
    (∀ f ∈ framesOf (sp.reads ++ sp.need), Sparse.get 0 k.rcounts f < 63) →
    ∃ t, exec (.instructionFetch c) s = .next t ∧ t = { s with cores := t.cores } ∧ (∀ j, j ≠ c.idx → t.core j = s.core j) ∧
      t.core c.idx = { k with
        pc := k.pc + 1
        wcounts := (framesOf sp.writes).foldl (fun m f => Sparse.set 0 m f (Sparse.get 0 m f + 1)) k.wcounts
        rcounts := (framesOf (sp.reads ++ sp.need)).foldl (fun m f => Sparse.set 0 m f (Sparse.get 0 m f + 1)) k.rcounts
        window := k.window ++ [⟨w, k.pc, eng, framesOf sp.writes, framesOf (sp.reads ++ sp.need), false⟩] }

/-- SYN, HOLD (R88, R348) and SLOT_WRITE_COMPLETE (R77).
The model's own readings and choices that it rests on: log 7, 41. -/
def Obligations.BarriersHoldsAndSlotWrites : Prop :=
  (∀ (c : CoreId) (w : SynWait) (e : WinEntry) (s : State), s.storesOk → s.up = true → (s.core c.idx).window.head? = some e →
    e.engine = .barrier → (s.core c.idx).ended = none → s.synDone c.idx e w = true →
    ∃ t, exec (.syn c w) s = .next t ∧
      t = { s with cores := t.cores, regs := (match (s.core c.idx).heldSince with
        | some t0 => regAdd s.regs Reg.bntHoldTime (s.counter - t0)
        | none => s.regs) } ∧
      (∀ j, j ≠ c.idx → t.core j = s.core j) ∧
      t.core c.idx = { ((s.core c.idx).leave e).uncount e with heldSince := none }) ∧
  (∀ (c : CoreId) (w : SynWait) (n : Nat) (e : WinEntry) (s : State), s.storesOk → s.coreRuns c.idx = true →
    (s.core c.idx).window.head? = some e → e.engine = .barrier → waitHolds w = true → s.synDone c.idx e w = false →
    ∃ t, exec (.hold c ⟨w, n⟩) s = .next t ∧ t = { s with cores := t.cores, counter := max s.counter n, wall := t.wall } ∧
      (∀ j, j ≠ c.idx → t.core j = s.core j) ∧
      t.core c.idx = { s.core c.idx with heldSince := some (max s.counter n) }) ∧
  ∀ (c : CoreId) (a : ArrayIx) (x : Fin 8) (s : State), s.storesOk → Sparse.wf Slot.reset (s.core c.idx).slots = true → s.up = true →
    ((s.core c.idx).slot (8 * a.val + x.val)).state = .writing →
    ∃ t, exec (.slotWriteComplete c a x) s = .next t ∧ t = { s with cores := t.cores } ∧ (∀ j, j ≠ c.idx → t.core j = s.core j) ∧
      (t.core c.idx).slot (8 * a.val + x.val) = Slot.reset ∧
      (∀ n, n ≠ 8 * a.val + x.val → (t.core c.idx).slot n = (s.core c.idx).slot n) ∧
      (t.core c.idx).ls = (s.core c.idx).ls ∧ (t.core c.idx).window = (s.core c.idx).window ∧
      ∀ d ∈ (t.core c.idx).draining, d.slots ≠ [] ∧ 8 * a.val + x.val ∉ d.slots.map (·.1)

/-- DMV (R88, R259, R267 to R270, R275) and its completion.
The model's own readings and choices that it rests on: log 7, 45. -/
def Obligations.DmaMovesIssueAndComplete : Prop :=
  (∀ (c : CoreId) (e : WinEntry) (s : State), s.storesOk → s.coreRuns c.idx = true → (s.core c.idx).head .dma = some e →
    s.mayIssue c.idx e = true → ((s.cluster (c.idx / 12)).dma.filter fun d => d.core % 2 == c.idx % 2).length < 8 →
    s.dmvBar c.idx (s.core c.idx) e.word = none → s.lsBad c.idx (dmvAddr e.word) 64 = false →
    ∃ t, exec (.dmv c .sound) s = .next t ∧ t = { s with cores := t.cores, clusters := t.clusters } ∧
      (∀ j, j ≠ c.idx → t.core j = s.core j) ∧ (∀ k, k ≠ c.idx / 12 → t.cluster k = s.cluster k) ∧
      t.core c.idx = { s.core c.idx with window := (s.core c.idx).window.filter fun w => w.index != e.index } ∧
      (t.cluster (c.idx / 12)).groups = (s.cluster (c.idx / 12)).groups ∧
      (t.cluster (c.idx / 12)).dma = (s.cluster (c.idx / 12)).dma ++
        [⟨c.idx, BitVec.ofNat 512 (leNat ((s.core c.idx).read (dmvAddr e.word) 64)), { e with issued := true }⟩]) ∧
  (∀ (c : CoreId) (n : Nat) (d : Dma) (s : State), s.storesOk → Sparse.wf 0 (s.core c.idx).ls = true → s.up = true →
    ((s.cluster (c.idx / 12)).dma.find? fun d => d.core == c.idx && d.entry.index == n) = some d →
    (parseMove d.desc.toNat).kind = 0 → (parseMove d.desc.toNat).srcLs = false → (parseMove d.desc.toNat).dstLs = true →
    (∀ u < (parseMove d.desc.toNat).len, marked s.keep.marks ((parseMove d.desc.toNat).src + 16 * u) 16 = false) →
    ∃ t, exec (.dmvComplete c n) s = .next t ∧
      t = { s with cores := t.cores, clusters := t.clusters, keep := { s.keep with marks := t.keep.marks } } ∧
      (∀ j, j ≠ c.idx → t.core j = s.core j) ∧
      (t.core c.idx).read (parseMove d.desc.toNat).dst (16 * (parseMove d.desc.toNat).len)
        = s.readMem (parseMove d.desc.toNat).src (16 * (parseMove d.desc.toNat).len) ∧
      (t.core c.idx).wcounts = drop1 (s.core c.idx).wcounts d.entry.writes ∧
      (t.core c.idx).rcounts = drop1 (s.core c.idx).rcounts d.entry.reads ∧
      (t.cluster (c.idx / 12)).dma = (s.cluster (c.idx / 12)).dma.filter fun x => !(x.core == c.idx && x.entry.index == d.entry.index)) ∧
  ∀ (c : CoreId) (n : Nat) (d : Dma) (s : State), s.storesOk → s.up = true →
    ((s.cluster (c.idx / 12)).dma.find? fun d => d.core == c.idx && d.entry.index == n) = some d →
    (parseMove d.desc.toNat).kind = 0 → (parseMove d.desc.toNat).srcLs = true → (parseMove d.desc.toNat).dstLs = false →
    (∀ u < (parseMove d.desc.toNat).len, s.lsBad c.idx ((parseMove d.desc.toNat).src + 16 * u) 16 = false) →
    ∃ t, exec (.dmvComplete c n) s = .next t ∧
      (∀ a, (a < (parseMove d.desc.toNat).dst ∨ (parseMove d.desc.toNat).dst + 16 * (parseMove d.desc.toNat).len ≤ a) →
        t.readMem a 1 = s.readMem a 1) ∧
      t.core c.idx = (s.core c.idx).uncount d.entry ∧ (∀ j, j ≠ c.idx → t.core j = s.core j) ∧
      (t.cluster (c.idx / 12)).dma = (s.cluster (c.idx / 12)).dma.filter fun x => !(x.core == c.idx && x.entry.index == d.entry.index)

/-- Steal groups (R143 to R149, R153).
The model's own readings and choices that it rests on: log 46. -/
def Obligations.StealGroupsOpenShareAndMerge : Prop :=
  (∀ (c : CoreId) (e : WinEntry) (s : State), s.storesOk → Sparse.wf 0 (s.core c.idx).ls = true → s.groupOf c.idx = none →
    readyToIssue s c.idx .matrix 0x31 (fun _ w => stlOp w == 0) e → (s.core c.idx).shadow = .empty →
    ((s.core c.idx).slots.any fun x => x.2.state == .writing) = false → s.openBar (s.core c.idx) e.word = .ok () →
    s.lsBad c.idx (16 * stlAddr e.word) 64 = false →
    ∃ t, exec (.stlOpen c .sound) s = .next t ∧
      (∃ g, (t.cluster (c.idx / 12)).groups = (s.cluster (c.idx / 12)).groups ++ [g] ∧ g.owner = c.idx ∧ g.entry = e ∧
        g.desc = BitVec.ofNat 512 (leNat ((s.core c.idx).read (16 * stlAddr e.word) 64)) ∧ g.next = 0 ∧ g.done = [] ∧ g.taken = []) ∧
      (t.core c.idx).window = (s.core c.idx).window.filter (fun w => w.index != e.index) ∧ t.mem = s.mem ∧
      (∀ a fa fw, Fmt.ofCode (parseGroup ((s.core c.idx).group e.word)).fmtA = some fa →
        Fmt.ofCode (parseGroup ((s.core c.idx).group e.word)).fmtW = some fw →
        (let st := (parseGroup ((s.core c.idx).group e.word)).staging fa fw
         a < st.1 ∨ st.1 + st.2 ≤ a) → (t.core c.idx).read a 1 = (s.core c.idx).read a 1)) ∧
  (∀ (c : CoreId) (e : WinEntry) (s : State), s.storesOk → (s.core c.idx).isFiller = false →
    readyToIssue s c.idx .matrix 0x31 (fun _ w => stlOp w == 1) e → s.spansOk (s.core c.idx) [(16 * stlAddr e.word, 48 * 1024)] = true →
    16 * stlAddr e.word + 48 * 1024 ≤ 0xF0000 →
    ∃ t, exec (.stlOffer c) s = .next t ∧ t.core c.idx =
      ({ s.core c.idx with role := .offering, offer := 16 * stlAddr e.word, active := none }.leave e).uncount e) ∧
  (∀ (c : CoreId) (e : WinEntry) (s : State), s.storesOk → (s.core c.idx).isFiller = false →
    readyToIssue s c.idx .matrix 0x31 (fun _ w => stlOp w == 2) e →
    ∃ t, exec (.stlWithdraw c) s = .next t ∧ t.core c.idx = ({ s.core c.idx with role := .none }.leave e).uncount e) ∧
  (∀ (c : CoreId) (g : StealGroup) (s : State), s.storesOk → s.keep.marks = [] → s.groupOf c.idx = some g → s.coreRuns c.idx = true →
    g.next < (parseGroup g.desc.toNat).slabs →
    ∃ t, exec (.stlOpen c .sound) s = .next t ∧
      let d := parseGroup g.desc.toNat
      ∀ parts, s.runSlabs (c.idx / 12) (s.core c.idx) d g.next
          (((List.range d.ot).filter fun x => !g.taken.contains (x, g.next)).map fun x => (x, x % 4, x / 4)) [] = .done parts →
        ∀ a, (∀ p ∈ parts, a < clusterStoreAddr (c.idx / 12) (d.entryAt p.1 g.next) ∨
            clusterStoreAddr (c.idx / 12) (d.entryAt p.1 g.next) + p.2.length ≤ a) → t.readMem a 1 = s.readMem a 1) ∧
  (∀ (c : CoreId) (g : StealGroup) (q : Nat) (ts : List Nat) (s : State), s.storesOk → s.keep.marks = [] → s.victim c.idx = some (g, q, ts) →
    s.coreRuns c.idx = true → (s.core c.idx).maySteal = true →
    s.groupOf c.idx = none →
    ∃ t, exec (.steal c .sound) s = .next t ∧
      let d := parseGroup g.desc.toNat
      ∀ parts, s.runSlabs (c.idx / 12) (s.core g.owner) d q (ts.zipIdx.map fun x => (x.1, x.2, 7)) [] = .done parts →
        (g.owner ≠ c.idx → (t.core c.idx).taken = (s.core c.idx).taken + ts.length ∧
          (t.core g.owner).given = (s.core g.owner).given + ts.length) ∧
        ∀ a, (∀ p ∈ parts, a < clusterStoreAddr (c.idx / 12) (d.entryAt p.1 q) ∨
            clusterStoreAddr (c.idx / 12) (d.entryAt p.1 q) + p.2.length ≤ a) → t.readMem a 1 = s.readMem a 1) ∧
  (∀ (c : CoreId) (g : StealGroup) (q : Nat) (ts : List Nat) (fa fw : Fmt) (chain : Nat → Chain) (s : State), s.storesOk → s.keep.marks = [] →
    s.victim c.idx = some (g, q, ts) → s.coreRuns c.idx = true → (s.core c.idx).maySteal = true → s.groupOf c.idx = none → g.owner ≠ c.idx →
    let d := parseGroup g.desc.toNat
    let o := s.core g.owner
    Fmt.ofCode d.fmtA = some fa → Fmt.ofCode d.fmtW = some fw →
    (∀ x ∈ ts.zipIdx, s.slabChain o.part (c.idx / 12) d fa fw x.1 q x.2 7 0 = .ok (chain x.1) ∧ (chain x.1).failing [] = []) →
    ∃ t, exec (.steal c .sound) s = .next t ∧ (t.core c.idx).taken = (s.core c.idx).taken + ts.length ∧
      (t.core g.owner).given = o.given + ts.length ∧
      ∀ x ∈ ts, t.readMem (clusterStoreAddr (c.idx / 12) (d.entryAt x q)) 8208
        = encodeDense (tileOfCodes .binary64 ((chain x).run 0 (s.spillOf o) [] (Lane.of o) Slot.start).2.1.sums)) ∧
  ∀ (c : CoreId) (g : StealGroup) (n lo mid hi : Nat) (s : State), s.storesOk → s.keep.marks = [] → s.groupOf c.idx = some g →
    g.nextSum = some (n, lo, mid, hi) → s.coreRuns c.idx = true →
    ∃ t, exec (.treeAddition c) s = .next t ∧
      let d := parseGroup g.desc.toNat
      let at_ := clusterStoreAddr (c.idx / 12)
      let code (x k : Nat) : Nat := (unpack 64 128 ((s.readMem (at_ (d.entryAt n x)) 8208).drop 16)).toArray.getD k 0
      let sums := (Array.range 1024).map fun k =>
        FloatFmt.b64.encode (FVal.add (FloatFmt.b64.decode (code lo k)) (FloatFmt.b64.decode (code mid k)))
      let bs := encodeDense (tileOfCodes .binary64 sums)
      t.readMem (at_ (d.entryAt n lo)) bs.length = bs ∧
      ∀ a, (a < at_ (d.entryAt n lo) ∨ at_ (d.entryAt n lo) + bs.length ≤ a) → t.readMem a 1 = s.readMem a 1

/-- Work items (R199 to R218, R482).
The model's own readings and choices that it rests on: log 40, 41. -/
def Obligations.WorkItemsStartAndEnd : Prop :=
  (∀ (c : CoreId) (t i : Nat) (r : StepRun) (h : ItemHdr) (s s1 : State), s.storesOk → Sparse.wf 0 (s.core c.idx).ls = true → s.up = true →
    s.power.state = .full → s.coreFree c.idx = true → s.step = some r → r.abort = none →
    (s.at t).chooseMain r c.idx = (s1, some (i, h)) → s.itemBar false r.part c.idx h = none →
    ∃ u, exec (.workItemStart c false t) s = .next u ∧ u.mem = s.mem ∧ (∀ j, j ≠ c.idx → u.core j = s.core j) ∧
      (let k := u.core c.idx
       k.item = some (false, i) ∧ k.hdr = some h ∧ k.part = r.part ∧ k.startedAt = max s.counter t ∧ k.pc = 0 ∧ k.window = [] ∧
       k.slots = [] ∧ k.shadow = .empty ∧ k.active = none ∧ k.ended = none ∧
       k.read (16 * h.lsProg) (16 * h.plen) = s.readMem h.prog (16 * h.plen))) ∧
  (∀ (c : CoreId) (t : Nat) (r : StepRun) (x : Suspended) (s : State), s.storesOk → s.up = true → s.power.state = .full →
    s.coreFree c.idx = true → s.filler = some r → s.mainWork (c.idx / 12) = false → (s.core c.idx).suspended = some x →
    ∃ u, exec (.workItemStart c true t) s = .next u ∧ u = { s with counter := u.counter, wall := u.wall, cores := u.cores } ∧
      (let k := u.core c.idx
       k.item = some (true, x.node) ∧ k.hdr = some x.hdr ∧ k.pc = x.pc ∧ k.window = x.window ∧ k.slots = x.slots ∧ k.shadow = x.shadow ∧
       k.shadowSet = x.shadowSet ∧ k.active = x.active ∧ k.suspended = none ∧ k.ls = (s.core c.idx).ls)) ∧
  (∀ (c : CoreId) (t : Nat) (s : State), s.storesOk → s.up = true → (s.core c.idx).item.isSome = true →
    ((s.core c.idx).ended.isSome = true ∨ s.itemDrained c.idx = true) →
    ∃ u, exec (.workItemComplete c t) s = .next u ∧ (u.core c.idx).item = none ∧ (u.core c.idx).window = [] ∧ (u.core c.idx).ended = none) ∧
  (∀ (c : CoreId) (t : Nat) (s : State), s.storesOk → s.up = true → (s.core c.idx).item.isSome = true →
    (t ≤ (s.core c.idx).startedAt + s.itemLimit (s.core c.idx) → exec (.itemWatchdog c t) s = .next s) ∧
    ((s.core c.idx).startedAt + s.itemLimit (s.core c.idx) < t →
      ∃ u, exec (.itemWatchdog c t) s = .next u ∧ (u.core c.idx).item = none ∧ (u.core c.idx).window = [])) ∧
  ∀ (tile : Tile) (cl : Cluster) (i n : Nat) (h : ItemHdr) (s : State), s.storesOk → s.up = true → s.mainWork (8 * tile.val + cl.val) = true →
    (∀ k < 12, s.coreFree (12 * (8 * tile.val + cl.val) + k) = false) → s.fillerCore (8 * tile.val + cl.val) = some i →
    (s.core i).item = some (true, n) → (s.core i).hdr = some h →
    ∃ u x, exec (.fillerPreempt tile cl) s = .next u ∧ u = { s with cores := u.cores, clusters := u.clusters } ∧
      (∀ j, j ≠ i → u.core j = s.core j) ∧ (u.core i).item = none ∧ (u.core i).suspended = some x ∧
      x.node = n ∧ x.hdr = h ∧ x.pc = (s.core i).pc ∧ x.slots = (s.core i).slots.filter (fun e => e.2.state == .accum) ∧
      x.shadow = (s.core i).shadow ∧ x.shadowSet = (s.core i).shadowSet ∧ x.active = (s.core i).active ∧
      (u.core i).ls = (s.core i).ls ∧ (∀ w ∈ (s.core i).window, w ∈ x.window) ∧
      (∀ d ∈ (s.cluster (i / 12)).dma, d.core = i → { d.entry with issued := false } ∈ x.window) ∧
      ∀ d ∈ (u.cluster (i / 12)).dma, d.core ≠ i

/-- Selection and admission (R228, R229, R231) of any gate rows. -/
def Obligations.RouterAdmitsWithinCapacity : Prop :=
  ∀ (d : Route) (bias : Nat → FVal) (rows : List (List Nat)), (∀ g ∈ rows, g.length ≤ 256) →
    ∀ o, rows.foldl (fun o g => d.token bias g o) ⟨Array.replicate 256 0, Array.replicate 256 0, [], 0, 0⟩ = o →
      o.slots.length = rows.length ∧ (∀ sl ∈ o.slots, sl.length ≤ d.k) ∧ (∀ e, o.load.getD e 0 ≤ d.cap) ∧
      (∀ sl ∈ o.slots, ∀ x ∈ sl, x.2.1 < o.load.getD x.1 0) ∧ (o.slots.flatten.map fun x => (x.1, x.2.1)).Nodup ∧
      o.load.toList.sum = (o.slots.map List.length).sum ∧ (d.biasEn = false → o.demand = Array.replicate 256 0)

/-- ROUTE_REQUEST (R225 to R235) and PLACEMENT_BUILD (R223).
The model's own readings and choices that it rests on: log 47. -/
def Obligations.RouteRequestsTakeTheQueueHead : Prop :=
  (∀ (tile : Tile) (req : RouteReq) (filler : Bool) (r : StepRun) (s : State), s.storesOk → s.up = true →
    (s.xpr.queues.getD tile.val []).head? = some req → s.runOf req.part = some (filler, r) → r.fail = none → r.abort = none →
    ∃ (u : State) (st : Status), exec (.routeRequest tile) s = .next (u.nodeEnd filler req.node st none) ∧
      u = { s with mem := u.mem, keep := u.keep, regs := u.regs, flash0 := u.flash0, tansy := u.tansy, xpr := u.xpr } ∧
      (let q := (s.xpr.queues.getD tile.val []).tail
       u.xpr.queues.getD tile.val [] = q ++ (s.xpr.waiting.getD tile.val []).take (8 - q.length) ∧
       u.xpr.waiting.getD tile.val [] = (s.xpr.waiting.getD tile.val []).drop (8 - q.length)) ∧
      (∀ t, t ≠ tile.val → u.xpr.queues.getD t [] = s.xpr.queues.getD t [] ∧ u.xpr.waiting.getD t [] = s.xpr.waiting.getD t []) ∧
      (let d := parseRoute (s.memNat req.addr 64)
       if st = .ok ∨ st = .capacityOverflow then
         ∀ a, (∀ x ∈ d.areas.tail, a < x.1 ∨ x.1 + x.2 ≤ a) → u.readMem a 1 = s.readMem a 1
       else u.mem = s.mem ∧ u.reg Reg.xprRoutes = s.reg Reg.xprRoutes ∧ u.xpr.stepDemand = s.xpr.stepDemand)) ∧
  (∀ (tile : Tile) (req : RouteReq) (filler : Bool) (r : StepRun) (ts : List Tile32) (s : State), s.storesOk → s.up = true →
    (s.xpr.queues.getD tile.val []).head? = some req → s.runOf req.part = some (filler, r) → r.fail = none → r.abort = none →
    s.keep.marks = [] → s.addrOk req.part req.addr 64 false = true →
    (∀ e, twinOk ((s.xpr.active.getD tile.val []).getD e placeEmpty) = true) →
    let d := parseRoute (s.memNat req.addr 64)
    d.ok tile.val ((List.range 256).map fun e => ((s.xpr.active.getD tile.val []).getD e placeEmpty).val.toNat) = true →
    (∀ x ∈ d.areas.zipIdx, s.addrOk req.part x.1.1 x.1.2 (x.2 != 0) = true) → s.gateTiles d = .ok ts →
    let gate (t e : Nat) : Nat := ((ts[ceilDiv d.e 32 * (t / 32) + e / 32]?).map fun x => x.codes.getD (32 * (t % 32) + e % 32) 0).getD 0
    let bias (e : Nat) : FVal := if d.biasEn then FloatFmt.b32.decode (s.biasAt tile.val d.layer e) else FVal.posZero
    let o := (List.range d.t).foldl (fun o t => d.token bias ((List.range d.e).map (gate t)) o)
      ⟨Array.replicate 256 0, Array.replicate 256 0, [], 0, 0⟩
    let left := d.k * d.t - (o.slots.map List.length).sum
    ∃ u : State, exec (.routeRequest tile) s = .next (u.nodeEnd filler req.node (if left = 0 then .ok else .capacityOverflow) none) ∧
      u = { s with mem := u.mem, keep := u.keep, regs := u.regs, xpr := u.xpr } ∧ u.mem = (s.writeAll (d.outputs o)).mem ∧
      u.reg Reg.xprRoutes = (s.reg Reg.xprRoutes + 1) % 2 ^ 64 ∧ u.reg Reg.xprResidual = (s.reg Reg.xprResidual + left) % 2 ^ 64 ∧
      (filler = true ∨ d.biasEn = false → u.xpr.stepDemand = s.xpr.stepDemand)) ∧
  ∀ s : State, s.up = true → s.xpr.place = .building →
    ∃ t, exec .placementBuild s = .next t ∧ t = { s with xpr := { s.xpr with pending := t.xpr.pending, place := .ready } } ∧
      t.xpr.pending.length = 11 ∧ ∀ p ∈ t.xpr.pending, p = s.xpr.pending.getD 10 []

/-- BIAS_UPDATE (R252, R253).
The model's own readings and choices that it rests on: log 9, 47. -/
def Obligations.BiasLoopRunsOnceAtTheStepsEnd : Prop :=
  (∀ (part : Nat) (others : List DemandMsg) (r : StepRun) (s : State), s.up = true → s.step = some r → r.part = part → r.fail = none →
    r.prepared = false → r.abort = none → r.routesDone = true → s.xpr.biasDone = false →
    ((s.xpr.join others).paramsDiffer = true → exec (.biasUpdate part others) s = .next (s.failStep false .routeDescriptor)) ∧
    ((s.xpr.join others).paramsDiffer = false →
      ∃ t, exec (.biasUpdate part others) s = .next t ∧ t = { s with xpr := t.xpr } ∧ t.xpr.biasDone = true ∧
        t.xpr.demand = s.xpr.demand ∧ t.xpr.params = s.xpr.params ∧
        (∀ x ∈ t.xpr.biasShadow, ∃ n l e p c, n < 10 ∧ s.tileIn n = true ∧ (l, p) ∈ t.xpr.paramsShadow ∧ (r.step + 1) % (p.pm1 + 1) = 0 ∧
          e ≤ p.em1 ∧ x = (biasAddr n l e, c)) ∧
        ∀ p ∈ t.xpr.paramsShadow, (r.step + 1) % (p.2.pm1 + 1) = 0 → ∀ k ∈ t.xpr.demandShadow, k.1 / 256 ≠ p.1)) ∧
  ∀ (p : RouteParams) (layer : Nat) (demand : List (Nat × Nat)) (old : Nat → Nat) (e : Nat), e ≤ p.em1 →
    (let dem (k : Nat) : Nat := demandOf demand layer k
     let target := ((List.range (p.em1 + 1)).map dem).sum / (p.em1 + 1)
     let b := FloatFmt.b32.decode (old e)
     let eta := FloatFmt.b32.decode p.eta
     let new := (updateBiases p layer demand old).find? fun x => x.1 == e
     (dem e = target → new = none) ∧
     (dem e < target → new = some (e, FloatFmt.b32.encode (FloatFmt.b32.add b eta))) ∧
     (target < dem e → new = some (e, FloatFmt.b32.encode (FloatFmt.b32.sub b eta))))

/-- EXCHANGE (R238) and SEGMENT (R239, R550).
The model's own readings and choices that it rests on: log 48, 54. -/
def Obligations.ExchangesSendAndGatherSegments : Prop :=
  (∀ (tag : W32) (d : Bucket) (filler : Bool) (r : StepRun) (tab : List Nat) (facts : RouteFacts) (s : State), s.storesOk → s.up = true →
    s.bucketDef tag = some d → d.kind = kExchange → s.runOf (tagPart tag) = some (filler, r) → r.fail = none →
    r.readyNode .exchange tag = true → s.inFlight tag = false → s.runBar d = none →
    (s.placement (d.maskTiles.headD 0)).2 = some tab → s.routeFacts (parseExch d.block) = some facts →
    ∃ t, exec (.exchange tag) s = .next t ∧
      let u := (s.placement (d.maskTiles.headD 0)).1
      (∃ st, t = u.endBucket d st) ∨
        ∃ v : State, t = v.settleExchange d ∧ v = { u with bnt := { u.bnt with exchanges := v.bnt.exchanges }, out := v.out } ∧
          (∃ ms, v.out = u.out ++ ms ∧ ms.length ≤ (s.otherRanks d).length ∧
            ∀ m ∈ ms, ∃ k ∈ s.otherRanks d, ∃ bytes, m = message s d.part d.axes k mSegment bytes) ∧
          ∃ x ∈ v.bnt.exchanges, x.tag = tag ∧ x.sent = true) ∧
  (∀ (tag : W32) (d : Bucket) (filler : Bool) (r : StepRun) (facts : RouteFacts) (seg : Nat → List Nat × List Byte) (s : State),
    s.storesOk → s.up = true → s.bucketDef tag = some d → d.kind = kExchange → s.runOf (tagPart tag) = some (filler, r) → r.fail = none →
    r.readyNode .exchange tag = true → s.inFlight tag = false → s.runBar d = none →
    (∀ e, twinOk ((s.xpr.active.getD (d.maskTiles.headD 0) []).getD e placeEmpty) = true) →
    let b := parseExch d.block
    let f := (Fmt.ofCode b.fmt).getD .bfloat16
    let tab := (List.range 256).map fun e => ((s.xpr.active.getD (d.maskTiles.headD 0) []).getD e placeEmpty).val.toNat
    s.routeFacts b = some facts → s.exchSpansOk d b f facts = true → (∀ g < s.nRanks d, s.segmentFor b f facts tab g = .ok (seg g)) →
    (∀ k ∈ s.otherRanks d, reaches s d.part d.axes k mSegment) →
    (∃ k < s.nRanks d, k ≠ s.myRank d ∧ ∀ x ∈ s.bnt.exchanges, x.tag = tag → ∀ y ∈ x.segments, y.1 ≠ k) →
    ∃ t, exec (.exchange tag) s = .next t ∧ t = { s with bnt := { s.bnt with exchanges := t.bnt.exchanges }, out := t.out } ∧
      t.out = s.out ++ (s.otherRanks d).map (fun k =>
        message s d.part d.axes k mSegment (twinBytes 48 (segmentHead tag (s.myRank d) b s.xpr.genActive (seg k).1) ++ (seg k).2)) ∧
      (∃ x ∈ t.bnt.exchanges, x.tag = tag) ∧
      ∀ x ∈ t.bnt.exchanges, x.tag = tag → x.sent = true ∧ (s.myRank d < s.nRanks d → (s.myRank d, seg (s.myRank d)) ∈ x.segments)) ∧
  (∀ (tag : W32) (d : Bucket) (bytes : List Byte) (w : Nat) (s : State), s.up = true → s.bucketDef tag = some d → d.kind = kExchange →
    (s.fenced tag && !s.inFlight tag) = false → twinValue 48 (bytes.take 96) = some w →
    bitsOf w 351 348 < s.nRanks d → bitsOf w 351 348 ≠ s.myRank d →
    ∃ t, exec (.segment tag bytes) s = .next t ∧
      (let b := parseExch d.block
       if bitsOf w 319 256 = s.xpr.genActive ∧ bitsOf w 345 334 = b.layer ∧ bitsOf w 333 325 = b.mb ∧ bitsOf w 347 346 = b.mode then
         ∃ u : State, t = u.settleExchange d ∧
           u = { s with bnt := { s.bnt with exchanges := u.bnt.exchanges }, tansy := u.tansy, flash0 := u.flash0, regs := u.regs } ∧
           ((s.bnt.exchanges.any fun x => x.tag == tag && x.asked.contains (bitsOf w 351 348)) = false →
             u.tansy = s.tansy ∧ u.flash0 = s.flash0 ∧ u.regs = s.regs) ∧
           (∃ x ∈ u.bnt.exchanges, x.tag = tag ∧ ∃ y ∈ x.segments, y.1 = bitsOf w 351 348) ∧
           ((s.bnt.exchanges.any fun x => x.tag == tag) = false → ∃ x ∈ u.bnt.exchanges, x.tag = tag ∧
             x.segments = [(bitsOf w 351 348, (List.range 16).map (fun i => bitsOf w (16 * i + 15) (16 * i)), bytes.drop 96)])
       else t = s.endBucket d .segmentMismatch)) ∧
  ∀ (tag : W32) (d : Bucket) (bytes : List Byte) (s : State), s.up = true → s.bucketDef tag = some d → d.kind = kExchange →
    (s.fenced tag && !s.inFlight tag) = false → twinValue 48 (bytes.take 96) = none → (s.bnt.exchanges.any fun x => x.tag == tag) = true →
    let src := bitsOf (leNat (bytes.take 48)) 351 348
    if (s.bnt.exchanges.any fun x => x.tag == tag && x.asked.contains src) = true then
      exec (.segment tag bytes) s = .next (s.endBucket d .twinMismatch)
    else reaches s d.part d.axes src mSegmentAgain → ∃ t, exec (.segment tag bytes) s = .next t ∧
      t = { s with bnt := { s.bnt with exchanges := t.bnt.exchanges }, regs := regAdd s.regs Reg.lifTwin 1
                   out := s.out ++ [message s d.part d.axes src mSegmentAgain (leBytes 4 tag.toNat)] } ∧
      ∀ x ∈ t.bnt.exchanges, x.tag = tag → src ∈ x.asked

/-- Every pool's books balance (R286, R292). -/
def Sys2Proof.Machine.VetchTile.accounted (v : VetchTile) : Prop :=
  (v.pools.map (·.1)).Nodup ∧ ∀ e ∈ v.pools, (e.2.bufs.map (·.1)).Pairwise (· < ·) ∧ (∀ b ∈ e.2.bufs, b.1 < e.2.count) ∧
    e.2.free.val + e.2.bufs.length = e.2.count

/-- The four requests keep the books (R291 to R298). -/
def Obligations.VetchPoolsStayAccounted : Prop :=
  ∀ (c : Instr) (tile : Tile) (req : W256) (part : Nat) (s : State),
    (c = .alloc tile req part ∨ c = .free tile req part ∨ c = .share tile req part ∨ c = .release tile req part) →
    (∀ v ∈ s.vetch, v.accounted) →
    ∃ t n bytes, exec c s = .next t ∧
      t = { s with vetch := t.vetch, regs := t.regs, tansy := t.tansy, flash0 := t.flash0, cmp := { s.cmp with streams := t.cmp.streams }
                   out := s.out ++ [.vetch n bytes] } ∧
      t.cmp.streams.map (fun e => (e.1, e.2.nextSeq, e.2.nextSample, e.2.cur)) = s.cmp.streams.map (fun e => (e.1, e.2.nextSeq, e.2.nextSample, e.2.cur)) ∧
      bytes.length = 16 ∧ ∀ v ∈ t.vetch, v.accounted

/-- The Vetch that a request reaches, asked by an owner of the partition (R293, R298). -/
def Sys2Proof.Machine.vetchAsk (op tile t o : Nat) (req : W256) (part : Nat) (v : VetchTile) (s : State) : Prop :=
  bitsOf req.toNat 255 252 = op ∧ t = (if op = 0 then tile else bitsOf req.toNat 223 220) ∧ t ≤ 9 ∧ o = bitsOf req.toNat 251 242 ∧
  v = s.vetchOf t ∧ v.mayAsk o part = true

/-- Pool i's buffers and free count. -/
def Sys2Proof.Machine.State.poolHas (s : State) (t i : Nat) (bufs : List (Nat × Buffer)) (free : Nat) : Prop :=
  ∃ p, (s.vetchOf t).pool i = some p ∧ p.bufs = bufs ∧ p.free = Twin.both free

/-- The four requests' results (R291 to R296).
The model's own readings and choices that it rests on: log 47. -/
def Obligations.VetchRequestsMoveBuffers : Prop :=
  (∀ (tile : Tile) (t o part : Nat) (req : W256) (v : VetchTile) (ow : Owner) (p : Pool) (s : State),
    vetchAsk 0 tile.val t o req part v s → v.owner o = some ⟨ow, ow⟩ → v.pool ow.pool = some p → p.twinsOk = true → p.frozen = false →
    (ow.max ≠ 0 → v.held o ≠ ow.max) → ((p.heldBy o < ow.min ∧ 0 < p.free.val) ∨ p.reserve.val < p.free.val) →
    ∃ u, exec (.alloc tile req part) s = .next u ∧
      u = { s with
        vetch := u.vetch, regs := regAdd s.regs Reg.polAllocs 1, cmp := { s.cmp with streams := u.cmp.streams }
        out := s.out ++ [.vetch t (leBytes 16
          (⟨.ok, handleOf t ow.pool p.lowestFree, p.base + p.lowestFree * classBytes p.cls, p.cls, false⟩ : VetchResult).word)] } ∧
      u.poolHas t ow.pool (setAssoc p.bufs p.lowestFree ⟨Twin.both true, o⟩) (p.free.val - 1) ∧
      ((p.bufs.map (·.1)).Pairwise (· < ·) → p.buffer p.lowestFree = none ∧ ∀ b < p.lowestFree, p.buffer b ≠ none)) ∧
  (∀ (tile : Tile) (t o part i b : Nat) (req : W256) (v : VetchTile) (p : Pool) (buf : Buffer) (s : State),
    vetchAsk 1 tile.val t o req part v s → v.byHandle t (bitsOf req.toNat 223 192) = some (i, p, b) → p.bufferOk b = true →
    p.buffer b = some buf → (v.shareOf i b = none ∨ ∃ k sh, v.shareOf i b = some (k, Twin.both sh)) →
    ∃ u, exec (.free tile req part) s = .next u ∧ u = { s with vetch := u.vetch, regs := u.regs, tansy := u.tansy, flash0 := u.flash0, out := u.out } ∧
      match v.shareOf i b with
      | none => if buf.holder = o then u.poolHas t i (eraseAssoc p.bufs b) (p.free.val + 1) else u.vetchOf t = v
      | some (k, sh) =>
        if sh.val.freePending = true ∨ sh.val.final ≠ o then u.vetchOf t = v
        else if sh.val.cos.all (·.2) = true then
          u.poolHas t i (eraseAssoc p.bufs b) (p.free.val + 1) ∧ (u.vetchOf t).shareOf i b = none
        else (u.vetchOf t).pools = v.pools ∧ (k, Twin.both { sh.val with freePending := true }) ∈ (u.vetchOf t).shares) ∧
  (∀ (tile : Tile) (t o f part i b k : Nat) (req : W256) (v : VetchTile) (p : Pool) (buf : Buffer) (ow fo : Owner) (cos : List Nat) (s : State),
    vetchAsk 2 tile.val t o req part v s → v.byHandle t (bitsOf req.toNat 223 192) = some (i, p, b) → p.bufferOk b = true →
    p.buffer b = some buf → buf.holder = o → v.shareOf i b = none → f = bitsOf req.toNat 241 232 → v.owner o = some ⟨ow, ow⟩ →
    v.owner f = some ⟨fo, fo⟩ → fo.part = ow.part →
    cos = (List.range (bitsOf req.toNat 231 229)).map (fun j => bitsOf req.toNat (191 - 10 * j) (182 - 10 * j)) → cos ≠ [] →
    (f = o ∨ o ∈ cos) → (∀ c ∈ cos, ∃ co, v.owner c = some ⟨co, co⟩ ∧ co.part = ow.part) →
    (f = o ∨ fo.max = 0 ∨ v.held f ≠ fo.max) → k < 4096 → (v.shares.any fun e => e.1 == k) = false →
    (∀ j < k, (v.shares.any fun e => e.1 == j) = true) →
    ∃ u, exec (.share tile req part) s = .next u ∧ u = { s with vetch := u.vetch, out := u.out } ∧
      u.poolHas t i (setAssoc p.bufs b { buf with holder := f }) p.free.val ∧
      (k, Twin.both ⟨i, b, f, cos.map fun c => (c, false), false⟩) ∈ (u.vetchOf t).shares) ∧
  ∀ (tile : Tile) (t o part i b k : Nat) (req : W256) (v : VetchTile) (p : Pool) (buf : Buffer) (sh : Share) (cos : List (Nat × Bool)) (s : State),
    vetchAsk 3 tile.val t o req part v s → v.byHandle t (bitsOf req.toNat 223 192) = some (i, p, b) → p.bufferOk b = true →
    p.buffer b = some buf → v.shareOf i b = some (k, Twin.both sh) → releaseCo o sh.cos = some cos →
    ∃ u, exec (.release tile req part) s = .next u ∧ u = { s with vetch := u.vetch, out := u.out } ∧
      (if cos.all (·.2) = true ∧ sh.freePending = true then
        u.poolHas t i (eraseAssoc p.bufs b) (p.free.val + 1) ∧ (u.vetchOf t).shareOf i b = none
      else (u.vetchOf t).pools = v.pools ∧ (k, Twin.both { sh with cos }) ∈ (u.vetchOf t).shares)

/-- COLL_SETUP (R308) and COLL_REMOVE (R472).
The model's own readings and choices that it rests on: log 48. -/
def Obligations.CollectivesAreDefinedAndRemoved : Prop :=
  (∀ (jseq : Nat) (c : Cmd) (s s1 : State) (recs : List (Nat × Nat × Nat)), s.storesOk → s.up = true → s.runnable 0x05 0x01 jseq = some c →
    let d := parseBucket c.params
    (s.partition c.part).kind ≠ .filler → 64 ≤ c.params.length → d.fieldsOk c.part c.params.length = true →
    (d.delivers = true → s.part = .ywbl10) → s.contentStatus d = .ok → s.fillRecords d = .ok recs → s.inFlight d.tag = false →
    ((s.bucketDef d.tag).isSome = true ∨ s.bnt.defs.length < 4096) → (s.dropOwners d.tag).addOwners d = .ok s1 →
    ∃ t, exec (.collSetup jseq) s = .next t ∧ completes s t c .ok ∧
      t = { queueFrame s t with
        mem := t.mem, keep := t.keep, vetch := t.vetch, bnt := { s.bnt with defs := t.bnt.defs }, tansy := t.tansy, flash0 := t.flash0 } ∧
      t.bnt.defs.filter (fun x => x.tag == d.tag) = [d] ∧
      (∀ g, g ≠ d.tag → t.bucketDef g = s.bucketDef g) ∧
      (d.blockLen = 0 → ∀ n ∈ d.maskTiles,
        t.readMem (dramAddr n d.segTable) (32 * d.segs.length) = slice c.params 64 (32 * d.segs.length))) ∧
  ∀ (jseq : Nat) (c : Cmd) (s : State), s.up = true → s.runnable 0x05 0x02 jseq = some c →
    let tag : W32 := BitVec.ofNat 32 (leAt c.params 0 4)
    tagPart tag = c.part →
    ∃ t, exec (.collRemove jseq) s = .next t ∧
      t = { queueFrame s t with vetch := t.vetch, bnt := { s.bnt with defs := t.bnt.defs }, tansy := t.tansy, flash0 := t.flash0 } ∧
      (if s.inFlight tag = true then completes s t c .tagBusy ∧ t.bnt.defs = s.bnt.defs ∧ t.vetch = s.vetch
       else completes s t c .ok ∧ t.bucketDef tag = none ∧ (∀ g, g ≠ tag → t.bucketDef g = s.bucketDef g))

/-- RANK_VALUE_READY (R313, R314, R320, R321).
The model's own readings and choices that it rests on: log 48, 54. -/
def Obligations.RankValuesGoToEveryRank : Prop :=
  ∀ (tag : W32) (now : Nat) (d : Bucket) (filler : Bool) (r : StepRun) (s : State), s.storesOk → s.up = true → s.bucketDef tag = some d →
    s.runOf (tagPart tag) = some (filler, r) → (d.isReduce || d.kind == kAllGather) = true → r.names tag = true → r.fail = none → r.prepared = false →
    (s.bnt.runs.any fun b => b.tag == tag && b.step == r.step % 2 ^ 32 && (b.done || b.headers.any fun h => h.rank == s.myRank d)) = false →
    (d.leaves.all fun e => r.leafReady tag e.1 e.2) = true → s.runBar d = none →
    (∀ b, s.openRunOf tag = some b → b.step = r.step % 2 ^ 32) →
    (d.replay = true → s.myRank d = 0 → ∃ m, s.storedMask d = .ok m) →
    let v := (s.at now).accrue
    let head (k : Nat) : List (Nat × Nat) :=
      if d.kind = kAllGather then (s.myUnits d).map fun x => (x.2.2.1, x.2.2.2 - x.2.2.1)
      else (if k = 0 then [(0, d.total)] else []) ++ (s.unitsOf d k).map fun x => (x.2.2.1, x.2.2.2 - x.2.2.1)
    (∀ st, v.rankValue r d = .error st → exec (.rankValueReady tag now) s = .next (v.endBucket d st)) ∧
    ∀ vals empty, v.rankValue r d = .ok (vals, empty) →
      ∃ (u : State) (b : BucketRun) (h : Header), exec (.rankValueReady tag now) s = .next ((u.settleBucket d).openLeaves filler) ∧
        u = { v with bnt := { s.bnt with runs := u.bnt.runs }, out := u.out } ∧ v.counter = max s.counter now ∧
        u.openRunOf tag = some b ∧ b.step = r.step % 2 ^ 32 ∧ h ∈ b.headers ∧ h.rank = s.myRank d ∧
        h.time = u.counter ∧ h.empty = empty ∧ h.nf = (d.isReduce && vals.any fun e => codesNf d.accF e.2 != 0) ∧ (h.reason, h.throttled) = v.pace ∧
        (∀ e ∈ vals, (s.myRank d, e.1, e.2) ∈ b.data) ∧ (s.myRank d = 0 → b.openedAt.isSome = true) ∧
        ∀ k ∈ s.otherRanks d, reaches s d.part d.axes k mHeader → ∀ x ∈ head k,
          message s d.part d.axes k mHeader (twinBytes 32 (headerWord tag (s.myRank d) (r.step % 2 ^ 32) h.nf empty h.throttled h.reason x.2 x.1)) ∈ u.out

/-- CONTRIBUTION_HEADER (R321, R324).
The model's own readings and choices that it rests on: log 33, 48, 54. -/
def Obligations.HeadersOpenBucketsOrAreStale : Prop :=
  (∀ (word : W512) (now w : Nat) (d : Bucket) (s : State), s.up = true → twinValue 32 (leBytes 64 word.toNat) = some w →
    s.bucketDef (BitVec.ofNat 32 (bitsOf w 255 224)) = some d → (d.isReduce || d.kind == kAllGather) = true →
    bitsOf w 223 212 < s.nRanks d → bitsOf w 223 212 ≠ s.myRank d →
    (bitsOf w 211 180 = s.bucketStep d.tag → (s.bnt.runs.any fun b => b.tag == d.tag && b.done && b.step == bitsOf w 211 180) = false →
      (s.fenced d.tag && (s.openRunOf d.tag).isNone) = false → (d.replay = true → s.myRank d = 0 → ∃ m, s.storedMask d = .ok m) →
      ((s.openRunOf d.tag).all fun r => !(r.headers.any fun h => h.rank == bitsOf w 223 212 && h.first == bitsOf w 143 120)) = true →
      ∃ (u : State) (b : BucketRun), exec (.contributionHeader word now) s = .next (u.settleBucket d) ∧
        u = { s with counter := u.counter, wall := u.wall, bnt := { s.bnt with runs := u.bnt.runs }, out := u.out, tansy := u.tansy
                     flash0 := u.flash0, regs := u.regs } ∧
        (((s.openRunOf d.tag).any fun r => r.asked.contains (bitsOf w 223 212, bitsOf w 143 120)) = false →
          u.tansy = s.tansy ∧ u.flash0 = s.flash0 ∧ u.regs = s.regs) ∧
        u.counter = max s.counter now ∧ u.openRunOf d.tag = some b ∧ (s.myRank d = 0 → b.openedAt.isSome = true) ∧
        (⟨bitsOf w 223 212, u.counter, bitOf w 179, bitOf w 178, bitOf w 177, bitsOf w 176 173, bitsOf w 143 120⟩ : Header) ∈ b.headers) ∧
    (stepBefore (bitsOf w 211 180) (s.bucketStep d.tag) = true →
      ∃ t, exec (.contributionHeader word now) s = .next t ∧
        t = { s with counter := t.counter, wall := t.wall, tansy := t.tansy, flash0 := t.flash0, regs := t.regs } ∧
        (s.storesOk → t.reg Reg.bntStale = (s.reg Reg.bntStale + 1) % 2 ^ 64))) ∧
  ∀ (word : W512) (now : Nat) (d : Bucket) (s : State), s.up = true → twinValue 32 (leBytes 64 word.toNat) = none →
    let w := leNat ((leBytes 64 word.toNat).take 32)
    s.bucketDef (BitVec.ofNat 32 (bitsOf w 255 224)) = some d →
    let rank := bitsOf w 223 212
    let first := bitsOf w 143 120
    (((s.openRunOf d.tag).any fun r => r.asked.contains (rank, first)) = true →
      exec (.contributionHeader word now) s = .next ((s.at now).endBucket d .twinMismatch)) ∧
    (((s.openRunOf d.tag).any fun r => r.asked.contains (rank, first)) = false → reaches s d.part d.axes rank mHeaderAgain →
      ∃ t, exec (.contributionHeader word now) s = .next t ∧
        t = { s with counter := t.counter, wall := t.wall, bnt := { s.bnt with runs := t.bnt.runs }, regs := regAdd s.regs Reg.lifTwin 1
                     out := s.out ++ [message s d.part d.axes rank mHeaderAgain (leBytes 4 d.tag.toNat ++ leBytes 4 first)] } ∧
        (t.openRunOf d.tag).any (fun r => r.asked.contains (rank, first)) = true)

/-- BUCKET_DEADLINE, MASK and CONTRIBUTION_DATA (R316, R319, R322).
The model's own readings and choices that it rests on: log 48, 54. -/
def Obligations.MasksDecideWhoIsIncluded : Prop :=
  (∀ (tag : W32) (now : Nat) (d : Bucket) (run : BucketRun) (t0 : Nat) (s : State), s.up = true → s.bucketDef tag = some d →
    s.openRunOf tag = some run → s.myRank d = 0 → run.openedAt = some t0 → run.mask = none → d.deadlineUs ≠ 0 → d.replay = false →
    (now < t0 + 1000 * d.deadlineUs → exec (.bucketDeadline tag now) s = .next s) ∧
    (t0 + 1000 * d.deadlineUs ≤ now → ∃ (u : State) (b : BucketRun) (codes : List Nat),
      exec (.bucketDeadline tag now) s = .next (u.settleBucket d) ∧
      u = { s with counter := u.counter, wall := u.wall, bnt := { s.bnt with runs := u.bnt.runs }, out := u.out } ∧
      u.openRunOf tag = some b ∧ b = { run with mask := some codes } ∧ codes.length = s.nRanks d ∧
      (∀ k < s.nRanks d,
        ((∀ h ∈ run.headers, h.rank = k → t0 + 1000 * d.deadlineUs ≤ h.time) → codes.getD k 9 = 1) ∧
        ∀ h, run.headers.find? (fun h => h.rank == k && decide (h.time < t0 + 1000 * d.deadlineUs)) = some h →
          codes.getD k 9 = if d.exclude = true ∧ h.nf = true then 2 else 0) ∧
      ∀ k ∈ s.otherRanks d, reaches s d.part d.axes k mMask →
        message s d.part d.axes k mMask (leBytes 4 tag.toNat ++ leBytes 4 run.step ++ maskBytes codes) ∈ u.out)) ∧
  (∀ (tag step : W32) (bytes : List Byte) (d : Bucket) (s : State), s.up = true → s.bucketDef tag = some d → d.isReduce = true → s.myRank d ≠ 0 →
    step.toNat = s.bucketStep tag → (s.bnt.runs.any fun b => b.tag == tag && b.done && b.step == step.toNat) = false →
    ∃ (u : State) (b : BucketRun), exec (.mask tag step bytes) s = .next (u.settleBucket d) ∧
      u = { s with bnt := { s.bnt with runs := u.bnt.runs } } ∧ u.openRunOf tag = some b ∧
      b.mask = some (((s.openRunOf tag).bind (·.mask)).getD
        ((List.range (s.nRanks d)).map fun r => bitsOf (leAt bytes (r / 4) 1) (2 * (r % 4) + 1) (2 * (r % 4))))) ∧
  ∀ (tag : W32) (rank first : Nat) (bytes : List Byte) (d : Bucket) (s : State), s.up = true → s.bucketDef tag = some d →
    (d.isReduce || d.kind == kAllGather) = true → rank < s.nRanks d → rank ≠ s.myRank d →
    (s.bnt.runs.any fun b => b.tag == tag && b.done && b.step == s.bucketStep tag) = false →
    (((s.openRunOf tag).any fun r => r.mask.any fun m => m.getD rank 1 != 0) = true →
      exec (.contributionData tag rank first bytes) s = .next s) ∧
    (((s.openRunOf tag).any fun r => r.mask.any fun m => m.getD rank 1 != 0) = false → (s.fenced tag && (s.openRunOf tag).isNone) = false →
      let parsed := parseTiles s.part (if d.isReduce then d.accFmt else (Fmt.ofCode d.fmt).getD .bfloat16) (d.total - first) bytes
      (∀ st, parsed = .error st → exec (.contributionData tag rank first bytes) s = .next (s.endBucket d st)) ∧
      ∀ ts, parsed = .ok ts →
        ∃ (u : State) (b : BucketRun), exec (.contributionData tag rank first bytes) s = .next (u.settleBucket d) ∧
          u = { s with bnt := { s.bnt with runs := u.bnt.runs } } ∧ u.openRunOf tag = some b ∧
          (∀ x ∈ ((s.openRunOf tag).map (·.data)).getD [], x ∈ b.data) ∧
          ∀ k < ts.length, ∃ x ∈ b.data, x.1 = rank ∧ x.2.1 = first + k)

/-- PARAM_GATHER (R333) and GATHER_SHARD (R334, R335).
The model's own readings and choices that it rests on: log 48, 54. -/
def Obligations.GathersServeAndCheckShards : Prop :=
  (∀ (tag : W32) (d : Bucket) (filler : Bool) (r : StepRun) (s : State), s.up = true → s.bucketDef tag = some d → d.kind = kParamGather →
    s.runOf (tagPart tag) = some (filler, r) → r.fail = none → r.readyNode .gather tag = true → (s.bnt.gathers.any fun g => g.tag == tag) = false →
    s.runBar d = none →
    let version := (r.step + 2 ^ 32 - 1) % 2 ^ 32
    let served := ((s.myUnits d).filter fun e => decide (e.2.2.1 < e.2.2.2)).mapM
      fun e => (s.serveUnit d version e.1 e.2.2.1 e.2.2.2).map fun x => (e.2.1, x)
    (∀ st, served = .error st → exec (.paramGather tag) s = .next (s.endBucket d st)) ∧
    (∀ es, served = .ok es → (∃ e ∈ es, (crc32 e.2.2).toNat ≠ e.2.1) →
      exec (.paramGather tag) s = .next ((s.count Reg.bntGatherRetries 2).endBucket d .gatherCheck)) ∧
    ∀ es, served = .ok es → (∀ e ∈ es, (crc32 e.2.2).toNat = e.2.1) →
      ∃ (u : State) (g : GatherRun), exec (.paramGather tag) s = .next (u.settleGather d) ∧
        u = { s with bnt := { s.bnt with gathers := s.bnt.gathers ++ [g] }, out := u.out } ∧ g.tag = tag ∧ g.version = version ∧
        g.shards = es.map (fun e => (e.1, version, e.2.1, e.2.2)) ∧ g.asks = [] ∧
        ((∀ k ∈ s.otherRanks d, reaches s d.part d.axes k mShard) → u.out = s.out ++ (s.otherRanks d).flatMap fun k => es.map fun e =>
          message s d.part d.axes k mShard (leBytes 4 tag.toNat ++ leBytes 4 e.1 ++ leBytes 4 version ++ leBytes 4 e.2.1 ++ e.2.2))) ∧
  ∀ (tag : W32) (unit : Nat) (version crc : W32) (bytes : List Byte) (d : Bucket) (run : GatherRun) (s : State), s.up = true →
    s.bucketDef tag = some d → s.bnt.gathers.find? (fun g => g.tag == tag) = some run →
    (s.unitRange d unit).1 < (s.unitRange d unit).2 → unit < d.maskTiles.length * s.nRanks d → (run.shards.any fun e => e.1 == unit) = false →
    let asks := ((run.asks.find? fun e => e.1 == unit).map (·.2)).getD 0
    (version.toNat ≠ run.version → exec (.gatherShard tag unit version crc bytes) s = .next (s.endBucket d .versionGone)) ∧
    (version.toNat = run.version → crc32 bytes ≠ crc → 2 ≤ asks →
      exec (.gatherShard tag unit version crc bytes) s = .next (s.endBucket d .gatherCheck)) ∧
    (version.toNat = run.version → crc32 bytes ≠ crc → asks < 2 → reaches s d.part d.axes (unit / d.maskTiles.length) mShardAgain →
      ∃ t, exec (.gatherShard tag unit version crc bytes) s = .next t ∧
        t = { s with regs := regAdd s.regs Reg.bntGatherRetries 1, bnt := { s.bnt with gathers := t.bnt.gathers }
                     out := s.out ++ [message s d.part d.axes (unit / d.maskTiles.length) mShardAgain (leBytes 4 tag.toNat ++ leBytes 4 unit)] } ∧
        ∃ g ∈ t.bnt.gathers, g.tag = tag ∧ g.shards = run.shards ∧ (unit, asks + 1) ∈ g.asks) ∧
    (version.toNat = run.version → crc32 bytes = crc →
      ∃ u : State, exec (.gatherShard tag unit version crc bytes) s = .next (u.settleGather d) ∧
        u = { s with bnt := { s.bnt with gathers := u.bnt.gathers } } ∧
        ∃ g ∈ u.bnt.gathers, g.tag = tag ∧ g.shards = run.shards ++ [(unit, version.toNat, crc.toNat, bytes)])

/-- PERMUTE (R341 to R343).
The model's own readings and choices that it rests on: log 48. -/
def Obligations.PermuteFencesThenMoves : Prop :=
  ∀ (tag : W32) (moves : List MoveData) (d : Bucket) (filler : Bool) (r : StepRun) (s : State), s.up = true → s.bucketDef tag = some d →
    d.kind = kPermute → s.runOf (tagPart tag) = some (filler, r) → r.fail = none → r.readyNode .permute tag = true →
    (s.sealPart d.part).perm = .idle → tagEpoch tag = (s.sealPart d.part).activeEpoch → s.planOk d.part (parsePerm d.block) = true →
    s.linkBar (s.partition d.part) allAxes = none → d.part < s.bnt.sealParts.length →
    let q := parsePerm d.block
    let u := s.modSeal d.part fun p => { p with perm := .fenced, oldEpoch := q.old }
    let me := (s.partition d.part).groupRank allAxes
    let old (g : W32) : Bool := tagPart g == d.part && tagEpoch g == q.old
    let busy := (s.bnt.runs.any fun b => old b.tag && !b.done) || (s.bnt.gathers.any fun g => old g.tag) || s.bnt.exchanges.any fun x => old x.tag && x.sent
    (∀ g, tagPart g = d.part → tagEpoch g = q.old → u.fenced g = true) ∧
    (busy = true ∨ u.moveData d.part q me moves = none → exec (.permute tag moves) s = .next u) ∧
    (busy = false → ∀ data,
      u.moveData d.part q me moves = some data →
      (∀ st, u.permuteMoves d q me data = .error st → exec (.permute tag moves) s = .next (u.endBucket d st)) ∧
      ∀ v, u.permuteMoves d q me data = .ok v → exec (.permute tag moves) s = .next (v.finishOp d) ∧
        v = { s with mem := v.mem, keep := v.keep, bnt := { s.bnt with sealParts := v.bnt.sealParts }, out := v.out } ∧
        (v.sealPart d.part).activeEpoch = q.new ∧ (v.sealPart d.part).perm = .moved ∧ (v.sealPart d.part).oldEpoch = q.old ∧
        ∀ p, p ≠ d.part → v.sealPart p = s.sealPart p)

/-- PREPARE (R336).
The model's own readings and choices that it rests on: log 47, 50, 54. -/
def Obligations.RanksPrepareOrFail : Prop :=
  ∀ (part : Nat) (r : StepRun) (s : State), s.up = true → s.sealingStep part = some r → r.prepared = false → r.failSent = false →
    r.abort = none → part < s.bnt.sealParts.length →
    (∀ st, r.fail = some st → s.jobRank part ≠ 0 → reaches s part allAxes 0 mFail → exec (.prepare part) s =
      .next { s with step := some { r with failSent := true }
                     out := s.out ++ [message s part allAxes 0 mFail (leBytes 8 r.step ++ leBytes 2 st.code)] }) ∧
    (r.fail = none → (r.allDone && s.bucketsDone r) = false → exec (.prepare part) s = .next s) ∧
    (r.fail = none → (r.allDone && s.bucketsDone r) = true → s.xpr.biasDone = true → (s.jobRank part ≠ 0 → reaches s part allAxes 0 mConfirm) →
      ∀ s1, s.sealCrcs part = .ok s1 →
      ∃ (u : State) (gen : Nat), gen = (if s.xpr.place = .ready ∨ s.xpr.place = .confirmed then s.xpr.genPending else 0) ∧
        exec (.prepare part) s = .next (if s.jobRank part = 0 then u.vote part ⟨0, r.step, gen, (s.sealPart part).activeEpoch, none⟩
          else { u with out := s.out ++ [message s part allAxes 0 mConfirm (leBytes 8 r.step ++ leBytes 8 gen ++ leBytes 1 (s.sealPart part).activeEpoch)] }) ∧
        u = { s with mem := s1.mem, keep := s1.keep, jnl := u.jnl, xpr := { s.xpr with place := u.xpr.place }
                     bnt := { s.bnt with sealParts := u.bnt.sealParts }, step := some { r with prepared := true } } ∧
        u.xpr.place = (if s.xpr.place = .ready then .confirmed else s.xpr.place) ∧ (u.sealPart part).sealSt = .prepared ∧
        (u.sealPart part).confirmAt = s.counter ∧ (∀ c, s.stepCmd r = some c → u.jnl.last = s.jnl.last + 1))

/-- The message by which a decision reaches rank k (R337). -/
def Sys2Proof.Machine.decisionTo (s : State) (part k : Nat) (d : Decision) : Out :=
  message s part allAxes k (if d.commit then mCommit else mAbort) (decisionBytes d)

/-- Every other rank that no link bars is sent a decision. -/
def Sys2Proof.Machine.told (s t : State) (part : Nat) (d : Decision) : Prop :=
  ∀ k, 0 < k → k < s.jobRanks part → reaches s part allAxes k (if d.commit then mCommit else mAbort) → decisionTo s part k d ∈ t.out

/-- The root hears a rank (R337). -/
def Sys2Proof.Machine.rootOf (part rank : Nat) (s : State) : Prop :=
  s.up = true ∧ part < 8 ∧ part < s.bnt.sealParts.length ∧ s.jobRank part = 0 ∧ rank ≠ 0 ∧ rank < s.jobRanks part ∧ (s.partition part).state ≠ .empty

/-- CONFIRM, FAIL and SEAL_TIMEOUT on the root (R337, R340).
The model's own readings and choices that it rests on: log 50, 54. -/
def Obligations.TheRootDecidesOnceForAll : Prop :=
  (∀ (part rank step gen epoch now : Nat) (status : W16) (d : Decision) (s : State), rootOf part rank s →
    (s.sealPart part).decisions.find? (fun d => d.step == step && (d.commit || !d.replay)) = some d →
    ∀ c, (c = .confirm part rank step gen epoch now ∨ c = .fail part rank step status now) →
    reaches s part allAxes rank (if d.commit then mCommit else mAbort) →
    exec c s = .next { s.at now with out := s.out ++ [decisionTo s part rank d] }) ∧
  (∀ (part rank step gen epoch now : Nat) (s : State), rootOf part rank s →
    ((s.sealPart part).decisions.any fun d => d.step == step && (d.commit || !d.replay)) = false →
    ((s.sealPart part).votes.any fun e => e.rank == rank) = false → step = s.roundStep part →
    (∀ v ∈ (s.sealPart part).votes, v.epoch = epoch) →
    ((s.sealPart part).votes.length + 1 < s.jobRanks part →
      ∃ t, exec (.confirm part rank step gen epoch now) s = .next t ∧
        t = { s with counter := t.counter, wall := t.wall, bnt := { s.bnt with sealParts := t.bnt.sealParts } } ∧
        (t.sealPart part).votes = (s.sealPart part).votes ++ [⟨rank, step, gen, epoch, none⟩] ∧
        (t.sealPart part).firstVote = some ((s.sealPart part).firstVote.getD (max s.counter now))) ∧
    ((s.sealPart part).votes.length + 1 = s.jobRanks part →
      ∃ t g, exec (.confirm part rank step gen epoch now) s = .next t ∧ told s t part ⟨step, true, g, false, 0⟩ ∧
        (g = gen ∨ g = 0) ∧ ((∀ v ∈ (s.sealPart part).votes, v.gen = gen) → g = gen) ∧ (g ≠ 0 → ∀ v ∈ (s.sealPart part).votes, v.gen = gen))) ∧
  (∀ (part rank step gen epoch now : Nat) (status : W16) (s : State), rootOf part rank s →
    ((s.sealPart part).decisions.any fun d => d.step == step && (d.commit || !d.replay)) = false →
    ((s.sealPart part).votes.any fun e => e.rank == rank) = false →
    let again (cause : Nat) : Bool :=
      decide ((s.replayCounts part (s.roundStep part)).1 < (s.replayCounts part (s.roundStep part)).2) && !refusalCodes.contains cause
    (∃ t, exec (.fail part rank step status now) s = .next t ∧
      told s t part ⟨s.roundStep part, false, 0, again status.toNat, status.toNat⟩) ∧
    ((step ≠ s.roundStep part ∨ ∃ v ∈ (s.sealPart part).votes, v.epoch ≠ epoch) →
      ∃ t, exec (.confirm part rank step gen epoch now) s = .next t ∧ told s t part ⟨s.roundStep part, false, 0, again 0, 0⟩)) ∧
  ∀ (part now t0 : Nat) (s : State), s.up = true → (s.sealPart part).firstVote = some t0 →
    (now < t0 + 1000000 * s.reg Reg.bntSealTimeout → exec (.sealTimeout part now) s = .next s) ∧
    (t0 + 1000000 * s.reg Reg.bntSealTimeout ≤ now →
      ∃ t replay, exec (.sealTimeout part now) s = .next t ∧ told s t part ⟨s.roundStep part, false, 0, replay, 0⟩)

/-- The records of a partition's shards do not overlap (R329). -/
def Sys2Proof.Machine.recordsApart (s : State) (p : Nat) : Prop :=
  ∀ e ∈ s.partRecords p, e.2.1 + 64 ≤ 2 ^ 36 ∧
    ∀ f ∈ s.partRecords p, (e.1, e.2.1) = (f.1, f.2.1) ∨ e.1 ≠ f.1 ∨ e.2.1 + 64 ≤ f.2.1 ∨ f.2.1 + 64 ≤ e.2.1

/-- The shadow entries of the bias tables overlap neither each other nor a record (R251). -/
def Sys2Proof.Machine.biasApart (s : State) (p : Nat) : Prop :=
  (s.xpr.biasShadow.Pairwise fun x y => x.1 + 4 ≤ y.1 ∨ y.1 + 4 ≤ x.1) ∧
  ∀ x ∈ s.xpr.biasShadow, x.2 < 2 ^ 32 ∧ ∀ e ∈ s.partRecords p, x.1 + 4 ≤ dramAddr e.1 e.2.1 ∨ dramAddr e.1 e.2.1 + 64 ≤ x.1

/-- COMMIT and ABORT (R338, R339, R343).
The model's own readings and choices that it rests on: log 9, 47, 50. -/
def Obligations.RanksCommitOrAbort : Prop :=
  (∀ (part gen : Nat) (r : StepRun) (s : State), s.storesOk → s.up = true → s.sealingStep part = some r → s.jobRank part ≠ 0 → r.prepared = true →
    r.abort = none → recordsApart s part → biasApart s part → part < s.bnt.sealParts.length → part < s.parts.length →
    (∀ other, other ≠ r.step → exec (.commit part other gen) s = .next s) ∧
    ∃ u : State, exec (.commit part r.step gen) s = .next (u.completeStep false none) ∧
      u = { s with mem := u.mem, keep := u.keep, xpr := u.xpr, bnt := { s.bnt with sealParts := u.bnt.sealParts }, parts := u.parts, jnl := u.jnl } ∧
      (∀ e ∈ s.partRecords part, ∀ w, s.shardRec e.1 e.2.1 = .ok w →
        u.shardRec e.1 e.2.1 = .ok (if recShadow w then flipRecord (r.step % 2 ^ 32) w else w)) ∧
      (s.xpr.biasDone = true → (∀ x ∈ s.xpr.biasShadow, u.memNat x.1 4 = x.2) ∧ u.xpr.demand = s.xpr.demandShadow ∧ u.xpr.params = s.xpr.paramsShadow) ∧
      (if gen = 0 then u.xpr.active = s.xpr.active ∧ u.xpr.genActive = s.xpr.genActive
       else u.xpr.active = s.xpr.pending ∧ u.xpr.genActive = s.xpr.genPending ∧ u.xpr.place = .idle) ∧
      (u.partition part).lastSealed = r.step ∧ (u.sealPart part).sealSt = .committed ∧ (u.sealPart part).epoch = (s.sealPart part).activeEpoch ∧
      (u.sealPart part).perm = .idle) ∧
  (∀ (part : Nat) (replay : Bool) (cause : W16) (r : StepRun) (s : State), s.storesOk → s.up = true → s.sealingStep part = some r → s.jobRank part ≠ 0 →
    r.abort = none → s.busyCores false = [] → (s.sealPart part).undo = [] → recordsApart s part → part < s.bnt.sealParts.length →
    (∀ other, other ≠ r.step → exec (.abort part other replay cause) s = .next s) ∧
    ∃ t, exec (.abort part r.step replay cause) s = .next t ∧
      ∃ u : State,
        u = { s with mem := u.mem, keep := u.keep, bnt := { s.bnt with sealParts := u.bnt.sealParts }, jnl := u.jnl, regs := u.regs
                     tansy := u.tansy, flash0 := u.flash0, step := some { r with abort := some (replay, cause.toNat) } } ∧
        (∀ e ∈ s.partRecords part, ∀ w, s.shardRec e.1 e.2.1 = .ok w → u.shardRec e.1 e.2.1 = .ok (setBits w 222 222 0)) ∧
        (u.sealPart part).sealSt = .aborted ∧ (u.sealPart part).aborts = (s.sealPart part).aborts + 1 ∧ (u.sealPart part).perm = .idle ∧
        (u.sealPart part).activeEpoch = (if (s.sealPart part).perm = .idle then (s.sealPart part).activeEpoch else (s.sealPart part).oldEpoch) ∧
        (replay = false → t = u.completeStep false (some (r.fail.getD .sealAbort))) ∧
        (replay = true → ∃ v r', (t = v ∨ t = v.startNodes false) ∧ v.step = some r' ∧ r'.replays = r.replays + 1 ∧ r'.prepared = false ∧
          r'.abort = none ∧ (∀ n ∈ r'.nodes, n.state = .waiting))) ∧
  (∀ (part : Nat) (replay : Bool) (cause : W16) (r : StepRun) (s : State), s.up = true → s.sealingStep part = some r → s.jobRank part ≠ 0 →
    r.abort = none → s.busyCores false ≠ [] →
    exec (.abort part r.step replay cause) s = .next { s with step := some { r with abort := some (replay, cause.toNat) } }) ∧
  ∀ (part : Nat) (replay : Bool) (cause : W16) (s : State), s.storesOk → s.up = true → s.sealingStep part = none → s.jobRank part ≠ 0 →
    (s.partition part).state ≠ .empty → recordsApart s part → part < s.bnt.sealParts.length →
    (∀ other, other ≠ (s.partition part).lastSealed + 1 → exec (.abort part other replay cause) s = .next s) ∧
    ∃ t, exec (.abort part ((s.partition part).lastSealed + 1) replay cause) s = .next t ∧
      t = { s with mem := t.mem, keep := t.keep, bnt := { s.bnt with sealParts := t.bnt.sealParts }, jnl := t.jnl, regs := t.regs, tansy := t.tansy
                   flash0 := t.flash0 } ∧
      (∀ e ∈ s.partRecords part, ∀ w, s.shardRec e.1 e.2.1 = .ok w → t.shardRec e.1 e.2.1 = .ok (setBits w 222 222 0)) ∧
      (t.sealPart part).sealSt = .aborted ∧ (t.sealPart part).aborts = (s.sealPart part).aborts + 1 ∧
      t.reg Reg.bntSealAborts = (s.reg Reg.bntSealAborts + 1) % 2 ^ 64

/-- SEAL_DECISION_TIMEOUT and SEAL_ROOT_LOST (R340).
The model's own readings and choices that it rests on: log 50, 54. -/
def Obligations.RanksWithoutADecisionAsk : Prop :=
  (∀ (part rank step now : Nat) (s : State), rootOf part rank s →
    (∀ d, (s.sealPart part).decisions.find? (fun d => d.step == step) = some d → reaches s part allAxes rank (if d.commit then mCommit else mAbort) →
      exec (.sealDecisionTimeout part ⟨some (rank, step), now⟩) s = .next { s.at now with out := s.out ++ [decisionTo s part rank d] }) ∧
    ((s.sealPart part).decisions.find? (fun d => d.step == step) = none →
      exec (.sealDecisionTimeout part ⟨some (rank, step), now⟩) s = .next (s.at now))) ∧
  ∀ (part now : Nat) (r : StepRun) (s : State), s.up = true → s.sealingStep part = some r → r.prepared = true → r.abort = none → s.jobRank part ≠ 0 →
    part < s.parts.length →
    let limit := 1000000 * s.reg Reg.bntSealTimeout
    (now < (s.sealPart part).confirmAt + limit → exec (.sealDecisionTimeout part ⟨none, now⟩) s = .next s) ∧
    ((s.sealPart part).confirmAt + limit ≤ now → reaches s part allAxes 0 mDecision → exec (.sealDecisionTimeout part ⟨none, now⟩) s =
      .next { s.at now with out := s.out ++ [message s part allAxes 0 mDecision (leBytes 8 r.step)] }) ∧
    (now < (s.sealPart part).confirmAt + 3 * limit → exec (.sealRootLost part now) s = .next s) ∧
    ((s.sealPart part).confirmAt + 3 * limit ≤ now → ∃ u : State, exec (.sealRootLost part now) s = .next (u.completeStep false (some .sealRootLost)) ∧
      u = { s with counter := u.counter, wall := u.wall, parts := u.parts } ∧ (u.partition part).state = .paused ∧
      (∀ p, p ≠ part → u.partition p = s.partition p))

/-- The receive buffer's level crosses neither limit of R437 (what crossing one sends is in EchoAndNeighbourAnswers). -/
abbrev Sys2Proof.Machine.bufferCalm (f : Frame) (s : State) : Prop := s.needXoff f = false ∧ s.needXon f = false

/-- The ports when a frame has only been heard: its port's receive buffer holds it (R437). -/
def Sys2Proof.Machine.heardEth (s : State) (f : Frame) : List EthPort := (s.setEth f.port { s.ethPort f.port with level := s.levelAfter f }).eth

/-- A frame has been heard and one goes out on its port: the port holds it in its receive buffer, and what waits for a MAC; the other port is as it was. -/
def Sys2Proof.Machine.heardAndSent (s u : State) (f : Frame) (o : EthHead → Out) (outs : List Out) : Prop :=
  u.out = s.out ++ outs ∧ goesOut s f.port false f.src o (u.ethPort f.port) outs ∧
  u.ethPort f.port = { s.ethPort f.port with level := s.levelAfter f, unresolved := (u.ethPort f.port).unresolved } ∧
  ∀ q, q ≠ f.port → u.ethPort q = s.ethPort q

/-- A control frame of a type at a port that serves Campion (R434 to R436, R440, R442). -/
def Sys2Proof.Machine.ctrlGood (type : Nat) (f : Frame) (c : CtrlFrame) (s : State) : Prop :=
  s.storesOk ∧ s.eth.length = 2 ∧ s.netUp = true ∧ (s.ethPort f.port).up = true ∧ f.fcsOk = true ∧ s.layersOk f = true ∧ bufferCalm f s ∧ f.dstPort.toNat = s.reg Reg.cmpCtrlPort ∧
  parseCtrl f.payload = some c ∧ c.type = type

/-- Opening a session (R441 to R446).
The model's own readings and choices that it rests on: log 5, 12, 26, 53. -/
def Obligations.SessionsOpenByProof : Prop :=
  (∀ (f : Frame) (now : Nat) (c : CtrlFrame) (s : State), ctrlGood 0x01 f c s → (s.ethPort f.port).paused = [] →
    (if s.cmp.unauthSec = max s.counter now / 1000000000 then s.cmp.unauthCount else 0) < s.reg Reg.cmpUnauthRate →
    ∃ u body outs, exec (.certReq f now) s = .next u ∧
      u = { s with counter := u.counter, wall := u.wall, regs := u.regs, eth := u.eth, out := u.out
                   cmp := { s.cmp with unauthSec := u.cmp.unauthSec, unauthCount := u.cmp.unauthCount } } ∧
      heardAndSent s u f (fun h => .udp f.port h f.src f.dstPort f.srcPort
        (leBytes 32 (ctrlHeader 0x02 0 0 body.length 0 0 0 0 0) ++ body ++ zeros 32)) outs ∧
      body.take 4 = leBytes 4 (leAt c.body 0 4) ∧
      ∃ n ≤ leAt c.body 4 4, body.drop 4 = slice s.sec.chain (leAt c.body 0 4) n) ∧
  (∀ (f : Frame) (now : Nat) (c : CtrlFrame) (s : State), ctrlGood 0x03 f c s →
    ∃ u, exec (.openId f now) s = .next u ∧
      u = { s with counter := u.counter, wall := u.wall, regs := u.regs, eth := heardEth s f, cmp := { s.cmp with pendingIds := u.cmp.pendingIds } } ∧
      u.cmp.pendingIds.getLast? = some ⟨u.counter, f.src, f.srcPort, leAt c.body 0 1, beNat (slice c.body 4 4), beNat (slice c.body 8 512)⟩ ∧
      u.cmp.pendingIds.length = min 16 (s.cmp.pendingIds.length + 1) ∧ ∃ gone, s.cmp.pendingIds = gone ++ u.cmp.pendingIds.dropLast) ∧
  ∀ (f : Frame) (now : Nat) (c : CtrlFrame) (s : State), ctrlGood 0x04 f c s → (s.ethPort f.port).paused = [] → s.cmp.sessions.length = 16 →
    (if s.cmp.unauthSec = max s.counter now / 1000000000 then s.cmp.unauthCount else 0) < s.reg Reg.cmpUnauthRate →
    ∃ u, exec (.openKey f now) s = .next u ∧ u.cmp.pendingIds = s.cmp.pendingIds.filter (fun p => !(p.src == f.src && p.srcPort == f.srcPort)) ∧
      (∃ payload outs, heardAndSent s u f (fun h => .udp f.port h f.src f.dstPort f.srcPort payload) outs) ∧
      match ((s.at now).countFrame f).openKeyOk f c, (List.range 16).find? fun i => !(s.session i).isOpen with
      | some (slot, key), some i =>
          (u.session i).isOpen = true ∧ (u.session i).slot = slot ∧ (u.session i).key = key ∧ (u.session i).peer = f.src ∧
          (u.session i).peerPort = f.srcPort ∧ (u.session i).txSeq = 1 ∧ (u.session i).rxNext = 1 ∧
          (u.session i).gen = (nextGen s.cmp.sessGen).toNat ∧ u.cmp.sessGen = nextGen s.cmp.sessGen ∧ ∀ j, j ≠ i → u.session j = s.session j
      | _, _ => u.cmp.sessions = s.cmp.sessions ∧ u.cmp.sessGen = s.cmp.sessGen

/-- An authenticated frame of an open session (R442). -/
def Sys2Proof.Machine.authGood (type : Nat) (f : Frame) (c : CtrlFrame) (s : State) : Prop :=
  ctrlGood type f c s ∧ s.cmp.sessions.length = 16 ∧ (s.ethPort f.port).paused = [] ∧ (s.session c.sess).isOpen = true ∧
  (s.session c.sess).gen = c.gen ∧ c.trailer = hmac256 (s.session c.sess).key c.signed

/-- The session after an authenticated frame has been heard at a time (R450). -/
def Sys2Proof.Machine.heardBy (x : Session) (f : Frame) (time : Nat) : Session :=
  { x with port := f.port, peer := f.src, peerPort := f.srcPort, localPort := f.dstPort, heard := time, ceEcho := x.ceEcho || f.ce }

/-- The numbered frames with their type, frame and time. -/
def Sys2Proof.Machine.numbered : Instr → Option (Nat × Frame × Nat)
  | .close f t => some (0x07, f, t)
  | .keepalive f t => some (0x09, f, t)
  | .timeSet f t => some (0x0A, f, t)
  | .command f t => some (0x10, f, t)
  | _ => none

/-- The order of numbered frames (R447), and what each but COMMAND does; ACK frames (R447, R448).
The model's own readings and choices that it rests on: log 5, 26, 53. -/
def Obligations.NumberedFramesKeepTheirOrder : Prop :=
  (∀ (cmd : Instr) (type now : Nat) (f : Frame) (c : CtrlFrame) (s : State), numbered cmd = some (type, f, now) → authGood type f c s →
    ¬((s.session c.sess).txAcked < c.ack ∧ c.ack < (s.session c.sess).txSeq) →
    let i := c.sess
    let x := heardBy (s.session i) f (max s.counter now)
    let seq := c.seq
    ∃ u, exec cmd s = .next u ∧
      ((seq < x.rxNext ∨ x.rxNext + 64 < seq ∨ (x.held = [] ∧ (seq ≠ x.rxNext ∨ type ≠ 0x10))) → ∀ j, j ≠ i → u.session j = s.session j) ∧
      (seq < x.rxNext → (∃ payload outs, heardAndSent s u f (fun h => .udp f.port h f.src f.dstPort f.srcPort payload) outs) ∧
        u.session i = { x with ceEcho := false, ackSent := x.rxNext - 1 }) ∧
      (x.rxNext + 64 < seq → u.session i = x ∧ u.out = s.out ∧ u.lif = s.lif ∧ u.jnl = s.jnl) ∧
      (x.rxNext < seq → seq ≤ x.rxNext + 64 → x.held = [] → x.rxNext ≤ x.ackSent + 1 →
        u.session i = { x with held := [⟨seq, c.type, c.flags, c.reqId, c.body⟩] } ∧ u.out = s.out) ∧
      (seq = x.rxNext → x.held = [] → type = 0x09 → (u.session i).rxNext = x.rxNext + 1 ∧ u.lif = s.lif ∧ u.jnl = s.jnl ∧
        (x.ackSent ≤ x.rxNext - 1 → 1 ≤ x.rxNext → (u.session i).ackSent = x.rxNext)) ∧
      (seq = x.rxNext → x.held = [] → type = 0x0A → (u.session i).rxNext = x.rxNext + 1 ∧
        u.lif = { s.lif with pairs := ((leAt c.body 0 8, max s.counter now) :: s.lif.pairs).take 16 }) ∧
      (seq = x.rxNext → x.held = [] → type = 0x07 → u.session i = Session.reset ∧
        ∃ payload outs, heardAndSent s u f (fun h => .udp f.port h f.src f.dstPort f.srcPort payload) outs)) ∧
  ∀ (f : Frame) (now : Nat) (c : CtrlFrame) (s : State), authGood 0x08 f c s → (s.session c.sess).waiting = [] →
    let x := heardBy (s.session c.sess) f (max s.counter now)
    ∃ u, exec (.ack f now) s = .next u ∧ u = { s with counter := u.counter, wall := u.wall, regs := u.regs, eth := heardEth s f, cmp := u.cmp } ∧
      (∀ j, j ≠ c.sess → u.session j = s.session j) ∧
      u.session c.sess = if x.txAcked < c.ack ∧ c.ack < x.txSeq then
          { x with txAcked := c.ack, unacked := x.unacked.filter fun g => decide (c.ack < g.seq) } else x

/-- COMMAND frames (R451, R473).
The model's own readings and choices that it rests on: log 25, 26. -/
def Obligations.CommandsAreAcceptedOnceOrRefused : Prop :=
  ∀ (f : Frame) (now : Nat) (c : CtrlFrame) (s : State), authGood 0x10 f c s → ¬((s.session c.sess).txAcked < c.ack ∧ c.ack < (s.session c.sess).txSeq) →
    s.boot.phase ≠ .recovery → c.seq = (s.session c.sess).rxNext → (s.session c.sess).held = [] → (s.session c.sess).part = none →
    (32 ≤ c.body.length → (parseCmd c.body).plen ≤ 65504) → (∀ k, (s.jnl.readSlot k).2 = 0) →
    let i := c.sess
    let h := parseCmd c.body
    let params := c.body.drop 32
    ∃ u, exec (.command f now) s = .next u ∧ (h.family ≠ 1 → ∀ j, j ≠ i → u.session j = s.session j) ∧
      (c.flags.testBit 0 = true → (u.session i).part = some ⟨c.reqId, c.body, false⟩ ∧ u.jnl = s.jnl ∧ u.parts = s.parts ∧ u.mgmt = s.mgmt) ∧
      (c.flags.testBit 0 = false → ∀ st body, s.refuses (s.session i).slot c.reqId c.body = some (st, body) →
        u.jnl = s.jnl ∧ u.parts = s.parts ∧ u.mgmt = s.mgmt ∧ u.reg Reg.jnlRefused = (s.reg Reg.jnlRefused + 1) % 2 ^ 64 ∧
        ((s.session i).txSeq < 2 ^ 48 → s.bodyRoom (heardBy (s.session i) f now) ≥ body.length →
          ∃ g ∈ (u.session i).unacked ++ (u.session i).waiting, g.type = 0x11 ∧ g.reqId = c.reqId ∧ g.status = st.code ∧ g.body = body)) ∧
      (c.flags.testBit 0 = false → s.refuses (s.session i).slot c.reqId c.body = none → ∀ runs ok, opInfo h.family h.op params.length = some (runs, ok) →
        runs ≠ .imm → (runs = .queue → h.queue < (s.partition h.part).queues.length) →
        ∃ q : Cmd, q.jseq = s.jnl.last + 1 ∧ q.reqId = c.reqId ∧ q.family = h.family ∧ q.op = h.op ∧ q.part = h.part ∧ q.queue = h.queue ∧
          q.mgmt = decide (runs = .mgmt) ∧ q.params = params ∧ q.started = false ∧ (u.queueOf q).cmds = (s.queueOf q).cmds ++ [q] ∧
          u.jnl = { s.jnl.append (q.entry q.jseq .accepted 0 q.summary) with
            outstanding := s.jnl.outstanding ++ [(q.jseq, q.entry q.jseq .accepted 0 q.summary)] })

/-- RETRANSMIT (R449) and CMP_IDLE_TIMEOUT (R446).
The model's own readings and choices that it rests on: log 5. -/
def Obligations.UnansweredFramesGoOutAgain : Prop :=
  (∀ (i now : Nat) (s : State), s.storesOk → s.eth.length = 2 → s.netUp = true → (s.session i).isOpen = true →
    (s.ethPort (s.session i).port).paused = [] →
    let x := s.session i
    let due (f : TxFrame) : Bool := decide (f.sentAt + s.rto f.sends ≤ max s.counter now)
    ∃ u, exec (.retransmit i now) s = .next u ∧ u.counter = max s.counter now ∧ (∀ j, j ≠ i → u.session j = s.session j) ∧
      ((s.session i).unacked.any due = false → u.session i = s.session i ∧ u.out = s.out) ∧
      (((s.session i).unacked.any fun f => due f && decide (s.reg Reg.cmpRetryMax ≤ f.sends)) = true → u.session i = Session.reset ∧ u.out = s.out) ∧
      (((s.session i).unacked.any fun f => due f && decide (s.reg Reg.cmpRetryMax ≤ f.sends)) = false →
        (u.session i).unacked = (s.session i).unacked.map (fun f => if due f then { f with sends := f.sends + 1, sentAt := max s.counter now } else f) ∧
        (u.session i).retrans = (s.session i).retrans + ((s.session i).unacked.filter due).length ∧
        u.reg Reg.cmpRetransmits = (s.reg Reg.cmpRetransmits + ((s.session i).unacked.filter due).length) % 2 ^ 64 ∧
        if (s.hopMac x.port x.peer).isSome = true then u.out.length = s.out.length + (x.unacked.filter due).length
        else (u.ethPort x.port).unresolved.length = (s.ethPort x.port).unresolved.length + (x.unacked.filter due).length)) ∧
  ∀ (i now : Nat) (s : State), (s.session i).isOpen = true →
    ∃ u, exec (.cmpIdleTimeout i now) s = .next u ∧ u = { s with counter := u.counter, wall := u.wall, cmp := { s.cmp with sessions := u.cmp.sessions } } ∧
      u.counter = max s.counter now ∧ (∀ j, j ≠ i → u.session j = s.session j) ∧
      u.session i = if (s.session i).heard + s.reg Reg.cmpIdleTimeout * 1000000000 ≤ max s.counter now then Session.reset else s.session i

/-- A data frame at a port that serves Campion (R456). -/
def Sys2Proof.Machine.ingestGood (f : Frame) (j : Nat) (x : Stream) (s : State) : Prop :=
  s.storesOk ∧ s.eth.length = 2 ∧ s.netUp = true ∧ (s.ethPort f.port).up = true ∧ (s.ethPort f.port).paused = [] ∧ f.fcsOk = true ∧ s.layersOk f = true ∧ bufferCalm f s ∧
  f.dstPort.toNat = s.reg Reg.cmpIngestPort ∧ 32 ≤ f.payload.length ∧
  (let h := leNat (f.payload.take 32)
   bitsOf h 255 248 = 1 ∧ bitsOf h 247 240 = 0x21 ∧ bitsOf h 223 208 = f.payload.length - 32 ∧ bitsOf h 239 230 = j) ∧
  s.stream j = some x ∧ x.isOpen = true

def Sys2Proof.Machine.ingestToken (f : Frame) (x : Stream) : Prop :=
  x.token.toNat = bitsOf (leNat (f.payload.take 32)) 207 144 ∧ x.src = f.src ∧ x.srcPort = f.srcPort

def Sys2Proof.Machine.ingestCrc (f : Frame) : Bool :=
  let h := leNat (f.payload.take 32)
  bitsOf h 63 32 == (crc32 (leBytes 32 (h - putBits 63 32 (bitsOf h 63 32)) ++ f.payload.drop 32)).toNat

/-- INGEST_DATA (R457, R458) and CREDIT (R459).
The model's own readings and choices that it rests on: log 5, 27. -/
def Obligations.IngestFillsBuffersInOrder : Prop :=
  (∀ (f : Frame) (now j : Nat) (x : Stream) (s : State), ingestGood f j x s →
    ∃ u, exec (.ingestData f now) s = .next u ∧ (∀ k, k ≠ j → u.stream k = s.stream k) ∧ u.cmp.sessions = s.cmp.sessions ∧
      (¬ingestToken f x → u.stream j = some x ∧ u.mem = s.mem ∧ u.out = s.out ∧
        u.reg Reg.cmpIngestBadToken = (s.reg Reg.cmpIngestBadToken + 1) % 2 ^ 64) ∧
      (ingestToken f x → (ingestCrc f = false ∨ bitsOf (leNat (f.payload.take 32)) 143 96 ≠ x.nextSeq) →
        u.mem = s.mem ∧ u.vetch = s.vetch ∧ (u.stream j).map (·.nextSeq) = some x.nextSeq ∧ (u.stream j).map (·.drops) = some (x.drops + 1) ∧
        (u.stream j).map (·.cur) = some x.cur)) ∧
  (∀ (f : Frame) (now j h done first base size : Nat) (x : Stream) (s : State), ingestGood f j x s → ingestToken f x → ingestCrc f = true →
    bitsOf (leNat (f.payload.take 32)) 143 96 = x.nextSeq → widen (bitsOf (leNat (f.payload.take 32)) 95 64) x.nextSample = x.nextSample →
    x.cur = some (h, done, first, false) → s.handleBuf x.tile h = some (base, size) →
    let body := f.payload.drop 32
    done + body.length ≤ size →
    let fin := (bitsOf (leNat (f.payload.take 32)) 229 224).testBit 0
    let ring := x.ringBase + 16 * (x.nextSample % 2 ^ x.ringLog2)
    (ring + 16 ≤ base ∨ base + size ≤ ring) →
    ∃ u, exec (.ingestData f now) s = .next u ∧ u.vetch = s.vetch ∧
      u.readMem (base + done) body.length = body ∧ (u.stream j).map (·.nextSeq) = some (x.nextSeq + 1) ∧
      (fin = false → (u.stream j).map (·.cur) = some (some (h, done + body.length, first, false)) ∧
        ∀ a, (a < base + done ∨ base + done + body.length ≤ a) → u.readMem a 1 = s.readMem a 1) ∧
      (fin = true → (u.stream j).map (·.nextSample) = some (x.nextSample + 1) ∧ (u.stream j).map (·.cur) = some none ∧
        u.readMem ring 16 = leBytes 16 (ringEntry x.nextSample h (done + body.length) false) ∧
        ∀ a, (a < base + done ∨ base + done + body.length ≤ a) → (a < ring ∨ ring + 16 ≤ a) → u.readMem a 1 = s.readMem a 1)) ∧
  ∀ (j now : Nat) (x : Stream) (s : State), s.eth.length = 2 → s.up = true → s.stream j = some x → x.isOpen = true → (s.ethPort x.port).paused = [] →
    ∃ u payload outs, exec (.credit j now) s = .next u ∧
      u = { s with counter := u.counter, wall := u.wall, regs := u.regs, eth := u.eth, cmp := { s.cmp with streams := u.cmp.streams }, out := s.out ++ outs } ∧
      goesOut s x.port true x.src (fun h => .udp x.port h x.src (BitVec.ofNat 16 (s.reg Reg.cmpIngestPort)) x.srcPort payload) (u.ethPort x.port) outs ∧
      u.ethPort x.port = { s.ethPort x.port with unresolved := (u.ethPort x.port).unresolved } ∧ (∀ q, q ≠ x.port → u.ethPort q = s.ethPort q) ∧
      payload.length = 40 ∧ u.stream j = some { x with
        limit := if s.power.state = .dormant then x.nextSample else s.streamLimit x, lastCredit := max s.counter now } ∧
      ∀ k, k ≠ j → u.stream k = s.stream k

/-- A stored word that sending a frame does not count in. -/
def Sys2Proof.Machine.quietKey (key : Nat) : Prop := key ≠ Reg.ethTxFrames ∧ key ≠ Reg.ethTxFrames + 0x100 ∧ key ≠ Reg.jnlRefused

/-- The register window (R474), the link command (R512) and the rate registers (R589).
The model's own readings and choices that it rests on: log 25. -/
def Obligations.RegisterWindowReadsAndWrites : Prop :=
  (∀ (i : Nat) (reqId : W64) (params : List Byte) (s : State), params.length = 10 →
    let block := leAt params 0 1
    let off := leAt params 4 4
    let n := leAt params 8 2
    canAnswer i (8 + 8 * n) s →
    ∃ u, exec (.regRead i reqId params) s = .next u ∧ u = { sendFrame_ s u with jnl := u.jnl } ∧
      (windowOk block off n = true → u.jnl.last = s.jnl.last + 1 ∧
        answered i reqId .ok (leBytes 8 (s.jnl.last + 1) ++ (List.range n).flatMap fun k => leBytes 8 (s.readReg block (off + 8 * k))) u ∧
        ∀ key, quietKey key → u.reg key = if (∃ k < n, key = regKey block (off + 8 * k)) ∧ isRc block (key - regKey block 0) = true then 0 else s.reg key) ∧
      (windowOk block off n = false → u.jnl = s.jnl ∧ answered i reqId .regRange [] u ∧ ∀ key, quietKey key → u.reg key = s.reg key)) ∧
  (∀ (i block off : Nat) (reqId v : W64) (row : RegRow) (s : State), canAnswer i 12 s → block < 256 → off < 2 ^ 24 → off % 8 = 0 →
    regRow block off = some row → row.access = .rw → block ≠ 0x07 →
    (∀ e, regKey block off ≠ Reg.evtRateOverride + 8 * e) →
    ((List.range 32).map fun j => (regGet s.regs (Reg.evtRateOverride + 8 * j)).toNat).all (· == 0) = true →
    ∃ u, exec (.regWrite i reqId (writeParams (regKey block off) v)) s = .next u ∧
      (if regInRange (regKey block off) v.toNat = true then
        u = { sendFrame_ (s.beforeWrite block) u with jnl := u.jnl } ∧ answered i reqId .ok (leBytes 8 (s.jnl.last + 1) ++ leBytes 4 1) u ∧
        ∀ key, quietKey key → u.reg key = if key = regKey block off then v.toNat &&& row.mask else (s.beforeWrite block).reg key
       else u = sendFrame_ s u ∧ answered i reqId .regValue [] u ∧ ∀ key, quietKey key → u.reg key = s.reg key)) ∧
  (∀ (i : Nat) (reqId v : W64) (s : State), canAnswer i 12 s → s.links.axes.length = 4 →
    ((List.range 32).map fun j => (regGet s.regs (Reg.evtRateOverride + 8 * j)).toNat).all (· == 0) = true →
    ∃ u, exec (.lnkHold i reqId v) s = .next u ∧ u = { sendFrame_ s u with jnl := u.jnl, links := u.links } ∧
      answered i reqId .ok (leBytes 8 (s.jnl.last + 1) ++ leBytes 4 1) u ∧
      (∀ a < 4, u.axis a = if v.toNat.testBit a = true ∧ (s.axis a).held = true ∧ s.axisTiles a = true then { s.axis a with held := false, through := true } else s.axis a) ∧
      ∀ key, quietKey key → u.reg key = s.reg key) ∧
  ∀ (i : Nat) (reqId v : W64) (s : State), canAnswer i 12 s →
    ((List.range 32).map fun j => (regGet s.regs (Reg.evtRateOverride + 8 * j)).toNat).all (· == 0) = true →
    ∀ c key, ((c = .evtRateWindow i reqId v ∧ key = Reg.evtRateWindow ∧ 1 ≤ v.toNat ∧ v.toNat ≤ 60000) ∨
        (c = .evtRateDefault i reqId v ∧ key = Reg.evtRateDefault ∧ v.toNat ≤ 65535) ∨
        (∃ e : Fin 32, c = .evtRateOverride i reqId e v ∧ key = Reg.evtRateOverride + 8 * e.val ∧ v.toNat < 2 ^ 32)) →
    ∃ u, exec c s = .next u ∧ u = { sendFrame_ s.closeRate u with jnl := u.jnl } ∧
      answered i reqId .ok (leBytes 8 (s.jnl.last + 1) ++ leBytes 4 1) u ∧
      ∀ k, quietKey k → u.reg k = if k = key then v.toNat else s.closeRate.reg k

/-- SESS_LIST, SESS_END (R446, R472) and ATTEST (R613).
The model's own readings and choices that it rests on: log 12, 25, 26. -/
def Obligations.SessionsAreListedEndedAndAttested : Prop :=
  (∀ (i : Nat) (reqId : W64) (s : State), s.netUp = true → s.boot.phase ≠ .recovery → (s.session i).isOpen = true → s.cmp.sessions.length = 16 →
    ∃ (u v : State) (body : List Byte), exec (.sessList i reqId []) s = .next u ∧ u = v.respond i reqId .ok body ∧
      v = { s with jnl := v.jnl } ∧ v.jnl.last = s.jnl.last + 1 ∧
      body = leBytes 8 (s.jnl.last + 1) ++ (List.range 16).flatMap fun k => leBytes 64 ((s.session k).word k)) ∧
  (∀ (i k : Nat) (reqId : W64) (s : State), canAnswer i 8 s → k < 16 → s.cmp.sessions.length = 16 →
    ∃ u, exec (.sessEnd i reqId (leBytes 1 k)) s = .next u ∧
      (k = i → answered i reqId .badCommand [] u ∧ u.jnl = s.jnl) ∧
      (k ≠ i → (s.session k).isOpen = true → (s.session k).slot = (s.session i).slot →
        u.session k = Session.reset ∧ answered i reqId .ok (leBytes 8 (s.jnl.last + 1)) u ∧ u.jnl.last = s.jnl.last + 1) ∧
      (k ≠ i → ¬((s.session k).isOpen = true ∧ (s.session k).slot = (s.session i).slot) →
        u.session k = s.session k ∧ answered i reqId .sessionStale (leBytes 8 (s.jnl.last + 1)) u) ∧
      ∀ j, j ≠ i → j ≠ k → u.session j = s.session j) ∧
  ∀ (i : Nat) (reqId : W64) (nonce : List Byte) (s : State), s.netUp = true → s.boot.phase ≠ .recovery → (s.session i).isOpen = true → nonce.length = 32 →
    s.sec.serial.length ≤ 16 →
    ∃ (u v : State) (body sig : List Byte), exec (.attest i reqId nonce) s = .next u ∧ u = v.respond i reqId .ok (leBytes 8 (s.jnl.last + 1) ++ body ++ sig) ∧
      v = { s with jnl := v.jnl, freeCtr := s.freeCtr + 8, regs := regAdd s.regs Reg.secAttests 1 } ∧ v.jnl.last = s.jnl.last + 1 ∧
      (∃ a b, body = a ++ nonce ++ b ∧ a.length = 72) ∧ sig = pssSign s.sec.modulus s.sec.privExp (sha512 body) (s.freeBytes 0 64)

/-- JNL_READ, JNL_OUTSTANDING, JNL_RESULT (R489 to R492), EVT_CURSOR and EVT_READ (R583 to R586).
The model's own readings and choices that it rests on: log 51, 52. -/
def Obligations.JournalAndEventsAreRead : Prop :=
  (∀ (i : Nat) (reqId : W64) (params : List Byte) (s : State), canAnswer i 48 s → params.length = 10 →
    let j := leAt params 0 8
    let n := leAt params 8 2
    ∃ u, exec (.jnlRead i reqId params) s = .next u ∧ u = { sendFrame_ s u with jnl := u.jnl, tansy := u.tansy, flash0 := u.flash0 } ∧
      (n = 0 ∨ 1000 < n → answered i reqId .badCommand [] u ∧ u.jnl = s.jnl) ∧
      (1 ≤ n → n ≤ 1000 → ¬(j / 2 ^ 44 < s.jnl.era / 2 ^ 44) → j < s.jnl.first → answered i reqId .journalGone (leBytes 8 (s.jnl.last + 1) ++ leBytes 8 s.jnl.first) u) ∧
      (1 ≤ n → n ≤ 1000 → j / 2 ^ 44 < s.jnl.era / 2 ^ 44 → ∃ w : W256, answered i reqId .journalEra (leBytes 8 (s.jnl.last + 1) ++ leBytes 32 w.toNat) u) ∧
      (n = 1 → ¬(j / 2 ^ 44 < s.jnl.era / 2 ^ 44) → s.jnl.first ≤ j → j ≤ s.jnl.last → ∀ w, s.jnl.readSlot (j % ringSlots) = (some w, 0) →
        answered i reqId .ok (leBytes 8 (s.jnl.last + 1) ++ leBytes 32 w.toNat) u)) ∧
  (∀ (i : Nat) (reqId : W64) (s : State), s.netUp = true → s.boot.phase ≠ .recovery → (s.session i).isOpen = true →
    ∃ (u v : State), exec (.jnlOutstanding i reqId []) s = .next u ∧ v = { s with jnl := v.jnl } ∧ v.jnl.last = s.jnl.last + 1 ∧
      u = v.respond i reqId .ok (leBytes 8 (s.jnl.last + 1) ++ s.jnl.outstanding.flatMap fun (e : Nat × W256) => leBytes 32 e.2.toNat)) ∧
  (∀ (i k : Nat) (reqId : W64) (s : State), s.netUp = true → s.boot.phase ≠ .recovery → (s.session i).isOpen = true → k < 2 ^ 64 →
    ∃ (u v : State), exec (.jnlResult i reqId (leBytes 8 k)) s = .next u ∧ v = { s with jnl := v.jnl } ∧ v.jnl.last = s.jnl.last + 1 ∧
      match s.allResults.find? fun (r : Nat × List Byte) => r.1 == k with
      | some r => u = v.respond i reqId .ok (leBytes 8 (s.jnl.last + 1) ++ r.2)
      | none => u = v.respond i reqId .resultGone (leBytes 8 (s.jnl.last + 1))) ∧
  (∀ (i q : Nat) (spill : Bool) (reqId : W64) (s : State), canAnswer i 24 s → q < 2 ^ 64 → i < s.cmp.sessions.length →
    let lo := (s.evtBounds spill).1
    let hi := (s.evtBounds spill).2
    let to_ := if q = 0 then lo else if q = 2 ^ 64 - 1 then hi else q
    ∃ u, exec (.evtCursor i reqId (leBytes 8 (b2n spill) ++ leBytes 8 q)) s = .next u ∧ u = { sendFrame_ s u with jnl := u.jnl } ∧
      (∀ j, j ≠ i → u.session j = s.session j) ∧
      (u.session i).cursor (!spill) = (s.session i).cursor (!spill) ∧
      if to_ < lo then answered i reqId .eventGone [] u ∧ (u.session i).cursor spill = (s.session i).cursor spill
      else if hi < to_ then answered i reqId .eventCursor [] u ∧ (u.session i).cursor spill = (s.session i).cursor spill
      else answered i reqId .ok (leBytes 8 (s.jnl.last + 1) ++ leBytes 8 lo ++ leBytes 8 hi) u ∧ (u.session i).cursor spill = to_) ∧
  ∀ (i room : Nat) (spill : Bool) (reqId : W64) (s : State), canAnswer i (40 + room) s → 32 ≤ room → room ≤ 65504 → i < s.cmp.sessions.length →
    let cur := (s.session i).cursor spill
    ∃ u, exec (.evtRead i reqId (leBytes 4 (b2n spill) ++ leBytes 4 room)) s = .next u ∧ (∀ j, j ≠ i → u.session j = s.session j) ∧
      u = { sendFrame_ s u with jnl := u.jnl, tansy := { s.tansy with ring := u.tansy.ring }, pins := u.pins } ∧
      (cur < (s.evtBounds spill).1 → answered i reqId .eventGone (leBytes 8 (s.jnl.last + 1)) u ∧ u.tansy = s.tansy ∧ (u.session i).cursor spill = cur) ∧
      ((s.evtBounds spill).1 ≤ cur → ∃ rs : List Byte, answered i reqId .ok (leBytes 8 (s.jnl.last + 1) ++ rs) u ∧ cur ≤ (u.session i).cursor spill ∧
        (spill = true → u.tansy = s.tansy) ∧
        ∀ (k : Nat) (r : Rec), u.tansy.ring[k]? = some r → ∃ r0 : Rec, s.tansy.ring[k]? = some r0 ∧ r = { r0 with read := r.read } ∧ (r0.read = true → r.read = true))

/-- The buffers that a load descriptor makes, as address ranges. -/
def Sys2Proof.Machine.LoadDesc.ranges (d : LoadDesc) : List (Nat × Nat) :=
  d.pools.map fun p => (if p.2.2.2.1 then tileStoreAddr p.1 p.2.2.2.2.2.1 else dramAddr p.1 p.2.2.2.2.2.1, poolBytes p)

/-- LOAD_PARTITION (R475, R477) and LOAD_WRITE (R472).
The model's own readings and choices that it rests on: log 9, 25, 39, 47. -/
def Obligations.PartitionsLoadAndAreWritten : Prop :=
  (∀ (jseq : Nat) (c : Cmd) (s : State), s.storesOk → s.up = true → s.parts.length = 8 → s.runnable 0x02 0x01 jseq = some c → c.mgmt = true →
    let waits := (s.partition (bitsOf (leNat (c.params.take 64)) 511 509)).state ≠ .empty
    (waits → exec (.loadPartition jseq) s = .next s) ∧
    (¬waits → (∀ d kind, parseLoad c.params = some d → kindOf d.kind = some kind → s.loadOk d kind = false) →
      ∃ t, exec (.loadPartition jseq) s = .next t ∧ completes s t c .jobConfig ∧ t = queueFrame s t ∧ t.parts = s.parts) ∧
    (¬waits → ∀ d kind, parseLoad c.params = some d → kindOf d.kind = some kind → s.loadOk d kind = true →
      (∀ (x : Nat × Nat) (st : Status), d.vetch s.vetch = .error (x.1, x.2, st) → ∃ t, exec (.loadPartition jseq) s = .next t ∧ completes s t c st ∧
        t = { queueFrame s t with tansy := t.tansy, flash0 := t.flash0 } ∧ t.parts = s.parts) ∧
      ∀ vs, d.vetch s.vetch = .ok vs →
        ∃ t, exec (.loadPartition jseq) s = .next t ∧ completes s t c .ok ∧
          t = { queueFrame s t with
            vetch := vs, mem := t.mem, keep := { s.keep with marks := t.keep.marks }, cores := t.cores, xpr := t.xpr
            bnt := { s.bnt with sealParts := modifyAt s.bnt.sealParts d.part fun _ => SealPart.reset } } ∧
          t.partition d.part = { Partition.reset with
            state := .loaded, kind, main := d.main, fwin := d.fwin, qmask := d.qmask, windows := d.windows
            watchdogUs := if d.watchdog = 0 then 1000000 else d.watchdog, lastSealed := d.baseStep, qpool := d.qpool
            view := (t.partition d.part).view } ∧
          (∀ q, q ≠ d.part → t.partition q = { s.partition q with view := (t.partition q).view }) ∧
          (∀ a, t.readMem a 1 = if (d.ranges ++ if kind.isMain then biasRanges else []).any (fun r => decide (r.1 ≤ a ∧ a < r.1 + r.2)) = true then [0]
            else s.readMem a 1) ∧
          (kind = .filler → (t.partition d.part).view = viewWord .filler d.fwin none ∧ t.cores = s.cores ∧ t.xpr = s.xpr) ∧
          (kind.isMain = true → t.xpr.genActive = 0 ∧ t.xpr.genPending = 0 ∧ t.xpr.genStaged = 0 ∧ t.xpr.place = .idle ∧ t.xpr.biasShadow = [] ∧
            t.xpr.active = Xpr.reset.active ∧ ∀ i, t.core i = { s.core i with side := Core.reset.side }))) ∧
  ∀ (jseq : Nat) (c : Cmd) (s : State), s.storesOk → s.up = true → s.runnable 0x02 0x03 jseq = some c →
    let a := leAt c.params 0 8
    let bs := c.params.drop 8
    ∃ t, exec (.loadWrite jseq) s = .next t ∧
      if s.addrOk c.part a bs.length true = true then
        completes s t c .ok ∧ t = { queueFrame s t with mem := t.mem, keep := { s.keep with marks := t.keep.marks } } ∧
        t.readMem a bs.length = bs ∧ ∀ x, x < a ∨ a + bs.length ≤ x → t.readMem x 1 = s.readMem x 1
      else completes s t c .addressFault ∧ t = queueFrame s t

/-- STREAM_OPEN, STREAM_CLOSE (R454, R455) and LOAD_FROM_STREAM (R472).
The model's own readings and choices that it rests on: log 27. -/
def Obligations.StreamsOpenFeedAndClose : Prop :=
  (∀ (jseq : Nat) (c : Cmd) (s : State), s.up = true → s.vetch.length = 10 → s.runnable 0x02 0x05 jseq = some c → c.notify = false →
    let w := leNat (c.params.take 64)
    let o := leAt c.params 64 16
    let j := bitsOf w 511 502
    let tile := bitsOf w 498 495
    let log := bitsOf w 223 220
    let base := bitsOf w 271 224
    let bad := (s.stream j).any (·.isOpen) = true ∨ bitsOf w 335 272 = 0 ∨ log < 4 ∨ 15 < log ∨ bitsOf w 501 499 ≠ c.part ∨ 9 < tile ∨ base % 16 ≠ 0 ∨
      s.jobMemOk c.part tile base (16 * 2 ^ log) = false
    let ow : Owner := ⟨.stream, c.part, bitsOf o 121 116, bitsOf o 115 113, bitsOf o 111 90, bitsOf o 89 68, BitVec.ofNat 32 j⟩
    ∃ t, exec (.streamOpen jseq) s = .next t ∧
      t = { queueFrame s t with cmp := { s.cmp with streams := t.cmp.streams }, vetch := t.vetch, tansy := t.tansy, flash0 := t.flash0 } ∧
      (bad → completes s t c .streamConfig ∧ t.cmp = s.cmp ∧ t.vetch = s.vetch ∧ t.tansy = s.tansy ∧ t.flash0 = s.flash0) ∧
      (¬bad → ∀ st, (s.vetchOf tile).newOwner ow = .error st → completes s t c st ∧ t.cmp = s.cmp ∧ t.vetch = s.vetch) ∧
      (¬bad → ∀ k, (s.vetchOf tile).newOwner ow = .ok k →
        completes s t c .ok ∧ t.tansy = s.tansy ∧ t.flash0 = s.flash0 ∧ t.vetchOf tile = (s.vetchOf tile).addOwner k ow ∧ (∀ n, n ≠ tile → t.vetchOf n = s.vetchOf n) ∧
        (∀ i, i ≠ j → t.stream i = s.stream i) ∧
        ∃ x, t.stream j = some x ∧ x =
          { isOpen := true, part := c.part, tile, src := ⟨bitOf w 493, BitVec.ofNat 128 (bitsOf w 463 336)⟩
            srcPort := BitVec.ofNat 16 (bitsOf w 479 464), token := BitVec.ofNat 64 (bitsOf w 335 272), ringBase := base, ringLog2 := log
            owner := k, nextSeq := 1, nextSample := bitsOf w 161 98, limit := t.streamLimit x, ce := 0, drops := 0, port := 0, cur := none
            heldSamples := [], lastCredit := s.counter })) ∧
  (∀ (jseq : Nat) (c : Cmd) (x : Stream) (s : State), s.storesOk → s.up = true → s.runnable 0x02 0x04 jseq = some c →
    s.stream (leAt c.params 0 2) = some x → x.isOpen = true → x.part = c.part → x.tile < s.vetch.length →
    let first := leAt c.params 2 8
    let count := leAt c.params 10 4
    let dest := leAt c.params 14 8
    (x.nextSample < first + count → exec (.loadFromStream jseq) s = .next (s.start c)) ∧
    (first + count ≤ x.nextSample → ∀ es, s.ringSamples x first count = some es →
      let src := es.filterMap fun (e : Nat × Nat × Bool) => if e.2.2 then none else (s.handleBuf x.tile e.1).map fun b => (b.1, e.2.1)
      let total := (src.map (·.2)).sum
      (total = 0 ∨ s.addrOk c.part dest total true = true) → (∀ r ∈ src, marked s.keep.marks r.1 r.2 = false) →
      ∃ t, exec (.loadFromStream jseq) s = .next t ∧ completes s t c .ok ∧
        t = { queueFrame s t with mem := t.mem, keep := { s.keep with marks := t.keep.marks }, vetch := t.vetch, tansy := t.tansy, flash0 := t.flash0 } ∧
        t.readMem dest total = src.flatMap (fun r => s.readMem r.1 r.2) ∧
        (∀ a, a < dest ∨ dest + total ≤ a → t.readMem a 1 = s.readMem a 1) ∧
        t.vetchOf x.tile = es.foldl (fun v e => if e.2.2 then v else (v.freeBuf x.tile x.owner e.1).1) (s.vetchOf x.tile) ∧
        ∀ n, n ≠ x.tile → t.vetchOf n = s.vetchOf n)) ∧
  ∀ (jseq : Nat) (c : Cmd) (s : State), s.up = true → s.runnable 0x02 0x06 jseq = some c →
    let j := leAt c.params 0 2
    ∃ t, exec (.streamClose jseq) s = .next t ∧ t = { queueFrame s t with vetch := t.vetch, tansy := t.tansy, flash0 := t.flash0 } ∧
      (∀ i, i ≠ j → t.stream i = s.stream i) ∧
      ((s.stream j).all (fun x => !(x.isOpen && x.part == c.part)) = true → completes s t c .streamConfig ∧ t.stream j = s.stream j ∧
        t.vetch = s.vetch ∧ t.tansy = s.tansy ∧ t.flash0 = s.flash0) ∧
      ∀ x, s.stream j = some x → x.isOpen = true → x.part = c.part → x.tile < s.vetch.length →
        completes s t c .ok ∧ t.stream j = none ∧ t.vetchOf x.tile = ((s.vetchOf x.tile).removeOwner x.tile x.owner).1 ∧
        ∀ n, n ≠ x.tile → t.vetchOf n = s.vetchOf n

/-- Every command stands in the queue it names. -/
def Sys2Proof.Machine.ownQueues (s : State) : Prop :=
  ∀ p k, ∀ d ∈ ((s.partition p).queues.getD k CmdQueue.reset).cmds, d.mgmt = false ∧ d.part = p ∧ d.queue = k

/-- JOB_START (R478), JOB_PAUSE, JOB_RESUME (R479), JOB_STOP and UNLOAD (R476). -/
def Obligations.JobsStartPauseAndStop : Prop :=
  (∀ (jseq : Nat) (c : Cmd) (s : State), s.up = true → s.runnable 0x03 0x01 jseq = some c →
    (∀ a < 4, 0 < extentOf s.extent a ∧ extentOf s.extent a ≤ 32) →
    let w := leNat (c.params.take 16)
    let origin := bitsOf w 127 96
    let extent := bitsOf w 95 64
    let x := s.partition c.part
    let coord : Nat → Int := fun a => ((coordOf s.coord a : Int) - coordOf origin a) % extentOf s.extent a
    let bad := x.state ≠ .loaded ∨ (∃ a < 4, (extentOf extent a : Int) ≤ coord a) ∨ (∃ a < 4, extentOf s.extent a < extentOf extent a) ∨
      (x.kind = .filler ∧ ∃ a < 4, extentOf extent a ≠ 1)
    ∃ t, exec (.jobStart jseq) s = .next t ∧ t = queueFrame s t ∧ (∀ q, q ≠ c.part → t.partition q = s.partition q) ∧
      (bad → completes s t c .jobConfig ∧ t.partition c.part = { x with queues := (t.partition c.part).queues }) ∧
      (¬bad → completes s t c .ok ∧
        t.partition c.part = { x with
          queues := (t.partition c.part).queues, state := .running, origin := BitVec.ofNat 32 origin, extent := BitVec.ofNat 32 extent
          coord := (t.partition c.part).coord } ∧
        ∀ a < 4, (coordOf (t.partition c.part).coord.toNat a : Int) = coord a)) ∧
  (∀ (jseq : Nat) (c : Cmd) (s : State), s.up = true → s.parts.length = 8 → c.mgmt = true →
    let p := leAt c.params 0 1
    p < 8 →
    (s.runnable 0x03 0x02 jseq = some c → (s.partition p).state = .running →
      (s.stepping p = true → exec (.jobPause jseq) s = .next (s.start c)) ∧
      (s.stepping p = false → ∃ t, exec (.jobPause jseq) s = .next t ∧ completes s t c .ok ∧
        t = { queueFrame s t with parts := modifyAt s.parts p fun x => { x with state := .paused } })) ∧
    (s.runnable 0x03 0x03 jseq = some c → (s.partition p).state = .paused →
      ∃ t, exec (.jobResume jseq) s = .next t ∧ completes s t c .ok ∧
        t = { queueFrame s t with parts := modifyAt s.parts p fun x => { x with state := .running } }) ∧
    (ownQueues s → (s.partition p).state ∈ [PartState.loaded, .running, .paused, .stopping] →
      (s.runnable 0x03 0x04 jseq = some c →
        (s.stepping p = true → exec (.jobStop jseq) s = .next ((s.start c).modPart p fun x => { x with state := .stopping })) ∧
        (s.stepping p = false → ∃ t, exec (.jobStop jseq) s = .next t ∧ completes s t c .ok ∧ t = queueFrame s t ∧
          (t.partition p).state = .loaded ∧ (t.partition p).coord = 0 ∧ (t.partition p).windows = (s.partition p).windows ∧
          (∀ q, q ≠ p → t.partition q = s.partition q) ∧
          ∀ k, ((t.partition p).queues.getD k CmdQueue.reset).cmds = [] ∧
            ∀ d ∈ ((s.partition p).queues.getD k CmdQueue.reset).cmds, t.isFinal d.jseq = true)) ∧
      (s.runnable 0x02 0x02 jseq = some c →
        (s.atBoundary p = false → exec (.unload jseq) s = .next ((s.start c).modPart p fun x => { x with state := .stopping })) ∧
        (s.atBoundary p = true → ∃ t, exec (.unload jseq) s = .next t ∧ completes s t c .ok ∧
          t = { queueFrame s t with vetch := t.vetch, bnt := t.bnt, tansy := t.tansy, flash0 := t.flash0 } ∧
          (t.partition p).state = .empty ∧ (∀ f, s.fillerOf p = some f → (t.partition f).state = .empty) ∧
          (∀ q, q ≠ p → s.fillerOf p ≠ some q → t.partition q = { s.partition q with view := (t.partition q).view }) ∧
          (∀ v ∈ t.vetch, ∀ e ∈ v.pools, e.2.part ≠ p) ∧ (∀ e ∈ t.cmp.streams, e.2.part ≠ p) ∧
          (∀ d ∈ t.bnt.defs, tagPart d.tag ≠ p) ∧
          ∀ k, ∀ d ∈ ((s.partition p).queues.getD k CmdQueue.reset).cmds, t.isFinal d.jseq = true))))

/-- The tile of an address of the populated regions. -/
def Sys2Proof.Machine.tileOfAddr (a : Nat) : Option Nat :=
  match regionOf a with
  | .dram t _ => some t
  | .tileStore t _ => some t
  | .clusterStore c _ => some (c / 8)
  | .reserved => none

/-- The power states that stop the compute dies (R525). -/
def Sys2Proof.Machine.coresLost (p : PowerState) : Prop := p = .park ∨ p = .dormant ∨ p = .off

/-- PWR_SET_STATE (R525 to R527), RESET_COLD, RESET_WARM (R429, R430), TILE_ISOLATE and the watchdogs (R431, R549, R561).
The model's own readings and choices that it rests on: log 24, 32, 39. -/
def Obligations.PowerStatesResetsAndIsolation : Prop :=
  (∀ (jseq : Nat) (c : Cmd) (s : State), s.storesOk → s.up = true → s.runnable 0x06 0x01 jseq = some c → c.mgmt = true →
    (powerOf (leAt c.params 0 1) = none →
      ∃ t, exec (.pwrSetState jseq) s = .next t ∧ completes s t c .powerStateRefused ∧ t = queueFrame s t ∧ t.parts = s.parts) ∧
    ∀ dest, powerOf (leAt c.params 0 1) = some dest →
      (dest = s.power.state → ∃ t, exec (.pwrSetState jseq) s = .next t ∧ completes s t c .ok ∧
        t = { queueFrame s t with parts := s.parts, power := { s.power with moving := false, target := dest } }) ∧
      (dest ≠ s.power.state → s.step.isSome = true →
        exec (.pwrSetState jseq) s = .next { s.start c with power := { s.power with moving := true, target := dest } }) ∧
      (dest ≠ s.power.state → s.step = none →
        ∃ t, exec (.pwrSetState jseq) s = .next t ∧ completes s t c .ok ∧ t.parts = s.parts ∧ t.upd = s.upd ∧
          t.boot = (if dest = .off then { s.boot with dramKept := false } else s.boot) ∧ t.power.state = dest ∧ t.power.moving = false ∧
          (dest ≠ .off → ∀ a < 0x00A000000000, t.readMem a 1 = s.readMem a 1) ∧
          (coresLost dest → ∀ r ∈ t.power.rails, r.tripI = false ∧ r.tripT = false) ∧
          ((s.power.state = .full ∨ s.power.state = .hold) → coresLost dest → t.cores = [] ∧ t.clusters = [] ∧ ∀ r ∈ t.power.rails, r.on = false) ∧
          (dest = .dormant ∨ s.power.state = .dormant → ∀ a, 0x00A000000000 ≤ a → t.readMem a 1 = [0]) ∧
          ((s.power.state = .park ∨ s.power.state = .dormant) → (dest = .full ∨ dest = .hold) →
            t.cores = [] ∧ t.clusters = [] ∧ ∀ a, 0x00B000000000 ≤ a → t.readMem a 1 = [0]) ∧
          (dest = .off → t.mem = [] ∧ t.xpr = Xpr.reset ∧ t.cmp.streams = [] ∧ ∀ i, (t.session i).isOpen = false) ∧
          (((s.power.state = .full ∧ dest = .hold) ∨ (s.power.state = .hold ∧ dest = .full)) → s.busyCores true = [] →
            t.cores = s.cores ∧ t.mem = s.mem ∧ t.links = s.links))) ∧
  (∀ (cause : Nat) (s : State), let t := s.coldReset cause
    t.mem = [] ∧ t.cores = [] ∧ t.parts = State.reset.parts ∧ t.boot.phase = .starting ∧ t.boot.cause = cause ∧ t.flash0 = s.flash0 ∧
      t.flash1 = s.flash1 ∧ t.part = s.part ∧ ∀ d ∈ s.allCmds, t.isFinal d.jseq = true) ∧
  (∀ (jseq : Nat) (c : Cmd) (s : State), s.up = true → s.runnable 0x06 0x02 jseq = some c →
    ∃ u : State, completes s u c .ok ∧ u = queueFrame s u ∧ exec (.resetCold jseq) s = .next (u.coldReset 2)) ∧
  (∀ (jseq : Nat) (c : Cmd) (s : State), s.storesOk → s.up = true → s.runnable 0x06 0x03 jseq = some c →
    ∃ u : State, completes s u c .ok ∧ u = queueFrame s u ∧ u.warmMadeCold = s.warmMadeCold ∧
      (s.warmMadeCold = true → exec (.resetWarm jseq) s = .next (u.coldReset 5)) ∧
      (s.warmMadeCold = false → ∃ t, exec (.resetWarm jseq) s = .next t ∧ t.boot.phase = .starting ∧ t.boot.cause = 4 ∧ t.cores = [] ∧
        (∀ a < 0x00A000000000, t.readMem a 1 = s.readMem a 1) ∧ (∀ a, 0x00A000000000 ≤ a → t.readMem a 1 = [0]) ∧ t.upd = s.upd ∧
        ((s.cmp.streams.all fun x => x.2.cur.isNone) = true → t.flash0 = s.flash0) ∧ t.flash1 = s.flash1 ∧
        t.parts.map (fun p => (p.state, p.kind, p.windows)) = s.parts.map (fun p => (p.state, p.kind, p.windows)))) ∧
  (∀ (n : Nat) (s : State), n < 10 → s.storesOk → s.vetch.length = 10 → s.power.rails.length = 10 → s.tileIn n = true →
    let t := s.isolateTile n
    t.tileIn n = false ∧ (∀ m, m ≠ n → t.tileIn m = s.tileIn m) ∧ t.vetchOf n = ⟨[], [], []⟩ ∧ (∀ m, m ≠ n → t.vetchOf m = s.vetchOf m) ∧
      (t.power.rails.getD n Rail.reset).on = false ∧ t.parts = s.parts ∧ (2 ≤ n → (t.axis ((n - 2) / 2)).through = false) ∧
      (∀ a, tileOfAddr a = some n → t.readMem a 1 = [0]) ∧ (∀ a, tileOfAddr a ≠ some n → t.readMem a 1 = s.readMem a 1) ∧
      (∀ i, t.core i = if i / 96 = n then Core.reset else s.core i) ∧
      ∀ r, s.step = some r → ∃ q, t.step = some q ∧ q.fail.isSome = true) ∧
  (∀ (jseq : Nat) (c : Cmd) (s : State), s.up = true → s.runnable 0x06 0x04 jseq = some c →
    let n := leAt c.params 0 1
    (10 ≤ n → ∃ t, exec (.tileIsolate jseq) s = .next t ∧ completes s t c .badCommand ∧ t = queueFrame s t) ∧
    (n < 10 → ∃ u : State, completes s u c .ok ∧ u = queueFrame ((s.start c).isolateTile n) u ∧
      exec (.tileIsolate jseq) s = .next u.endFailed.settle)) ∧
  (∀ (tile : Tile) (s : State), s.up = true → exec (.tileControllerWatchdog tile .oneCore) s = .next s ∧
    exec (.tileControllerWatchdog tile .bothCores) s = .next ((s.isolateTile tile.val).endFailed.settle) ∧
    (s.step = none → exec (.tileControllerWatchdog tile .internalState) s = .next s) ∧
    (∀ r, s.step = some r → exec (.tileControllerWatchdog tile .internalState) s =
      .next (if r.tileErrors.contains tile.val then (s.isolateTile tile.val).endFailed.settle
        else { s with step := some { r with tileErrors := tile.val :: r.tileErrors } })) ∧
    ∃ u, exec (.tileControllerWatchdog tile .network) s = .next u ∧ u.boot = { s.boot with phase := .halted } ∧
      (∀ r ∈ u.power.rails, r.on = false) ∧ (∀ a < 4, (u.axis a).through = false) ∧ u.mem = s.mem ∧ u.parts = s.parts ∧ u.jnl = s.jnl) ∧
  ∀ s : State, s.pins.pgood = true → s.boot.phase ≠ .off → exec .hubWatchdog s = .next (s.coldReset 6)

/-- STEP_RUN (R468, R481, R483) and PLACE_STAGE (R223).
The model's own readings and choices that it rests on: log 24, 40, 47. -/
def Obligations.StepsAndPlacementsAreTaken : Prop :=
  (∀ (jseq : Nat) (c : Cmd) (s : State), s.runnable 4 1 jseq = some c → s.stepMayStart c = false → exec (.stepRun jseq) s = .next s) ∧
  (∀ (jseq : Nat) (c : Cmd) (s : State), s.up = true → s.runnable 4 1 jseq = some c → s.stepMayStart c = true → c.params.length = 64 →
    let filler := (s.partition c.part).kind == .filler
    let step := bitsOf (leNat (c.params.take 64)) 511 448
    (∀ st, s.parseStep c.part jseq filler c.params = .error st →
      ∃ t, exec (.stepRun jseq) s = .next t ∧ t = queueFrame s t ∧ t.isFinal c.jseq = true ∧
        (t.queueOf c).cmds = ((s.queueOf c).cmds.filter fun d => d.jseq != c.jseq) ∧
        (t.queueOf c).results.head? = some (c.jseq, leBytes 64 (putBits 511 448 step + putBits 447 432 st.code + putBits 63 0 s.fp.toNat))) ∧
    (∀ r, s.parseStep c.part jseq filler c.params = .ok r →
      r.part = c.part ∧ r.jseq = jseq ∧ r.step = step ∧ r.nodes.length = bitsOf (leNat (c.params.take 64)) 399 380 + 1 ∧ r.fail = none ∧ r.replays = 0 ∧
      r.nodes.all (fun n => n.state == .waiting) = true ∧
      exec (.stepRun jseq) s = .next ((s.start c).beginStep filler r)) ∧
    (∀ r, s.parseStep c.part jseq filler c.params = .ok r → filler = false → r.nodes.all (fun n => n.kind == .item) = true →
      r.nodes.filterMap Node.tag = [] → (∀ n ∈ r.nodes, ∀ h, n.hdr = some h → r.dropsItem s.bnt.defs h = false) →
      ∃ (t : State) (q : StepRun), exec (.stepRun jseq) s = .next t ∧ t.step = some q ∧ t.filler = s.filler ∧
        q = { r with nodes := q.nodes, promoted := q.promoted, qfull := q.qfull, deferredFull := q.deferredFull } ∧
        q.nodes.map (fun n => (n.kind, n.tile, n.deps, n.hdr)) = r.nodes.map (fun n => (n.kind, n.tile, n.deps, n.hdr)) ∧
        t.isFinal c.jseq = s.isFinal c.jseq ∧ t.cores = s.cores ∧ t.mem = s.mem)) ∧
  ∀ (jseq : Nat) (c : Cmd) (s : State), s.up = true → s.runnable 0x05 0x03 jseq = some c → 10 < s.xpr.pending.length →
    let ws : List (Twin W32) := (List.range 256).map fun i =>
      ⟨BitVec.ofNat 32 (leAt c.params (8 * i) 4), ~~~ (BitVec.ofNat 32 (leAt c.params (8 * i + 4) 4))⟩
    ∃ t, exec (.placeStage jseq) s = .next t ∧ t = { queueFrame s t with xpr := t.xpr } ∧
      (ws.all twinOk = false → completes s t c .twinMismatch ∧ t.xpr = s.xpr) ∧
      (ws.all twinOk = true → completes s t c .ok ∧
        t.xpr = { s.xpr with pending := t.xpr.pending, genStaged := t.xpr.genStaged, genPending := t.xpr.genStaged, place := .building } ∧
        t.xpr.pending.getD 10 [] = ws ∧ s.xpr.genActive < t.xpr.genStaged ∧ s.xpr.genStaged < t.xpr.genStaged ∧
        (t.xpr.genStaged = s.xpr.genActive + 1 ∨ t.xpr.genStaged = s.xpr.genStaged + 1))

/-- Every byte of a flash device outside a range reads as before. -/
def Sys2Proof.Machine.flashKept (f g : List (Nat × Byte)) (a n : Nat) : Prop := ∀ x, x < a ∨ a + n ≤ x → flashRead g x 1 = flashRead f x 1

/-- The update commands (R605 to R609) and CFG_STAGE (R424).
The model's own readings and choices that it rests on: log 29. -/
def Obligations.UpdatesAndStagedRecords : Prop :=
  (∀ (jseq : Nat) (c : Cmd) (s : State), s.storesOk → s.up = true → s.runnable 0x09 0x01 jseq = some c →
    let target := !s.upd.runSlot
    let len := ceilDiv (leAt c.params 0x18 4) 65536 * 65536
    let st := checkHeader s.part s.sec.floor c.params
    ∃ t, exec (.updBegin jseq) s = .next t ∧ t = { queueFrame s t with flash0 := t.flash0, flash1 := t.flash1, upd := t.upd } ∧
      t.flash (!target) = s.flash (!target) ∧
      (s.upd.state ≠ .idle → completes s t c .updateState ∧ t.flash target = s.flash target ∧ t.upd = s.upd) ∧
      (s.upd.state = .idle → st ≠ .ok → completes s t c st ∧ t.flash target = s.flash target ∧ t.upd = s.upd) ∧
      (s.upd.state = .idle → st = .ok → completes s t c .ok ∧ flashKept (s.flash target) (t.flash target) flImage len ∧
        (∀ x < len, t.imageRead target x 1 = [0xFF]) ∧ t.imageValid target = false ∧
        t.upd = setSlotVer { s.upd with state := .receiving, owner := c.slot, header := c.params, units := [], target, bytes := 0, badPart := 0 } target 0)) ∧
  (∀ (jseq : Nat) (c : Cmd) (s : State), s.storesOk → s.up = true → s.runnable 0x09 0x04 jseq = some c →
    ∃ t, exec (.updAbort jseq) s = .next t ∧ t = { queueFrame s t with flash0 := t.flash0, flash1 := t.flash1, upd := t.upd } ∧
      t.flash (!s.upd.target) = s.flash (!s.upd.target) ∧
      (s.upd.state ≠ .idle → s.upd.owner ≠ c.slot → completes s t c .updateBusy ∧ t.flash s.upd.target = s.flash s.upd.target ∧ t.upd = s.upd) ∧
      ((s.upd.state = .idle ∨ (s.upd.owner = c.slot ∧ s.upd.state ≠ .receiving)) → completes s t c .updateState ∧ t.flash s.upd.target = s.flash s.upd.target ∧ t.upd = s.upd) ∧
      (s.upd.owner = c.slot → s.upd.state = .receiving → completes s t c .ok ∧ t.upd = { s.upd with state := .idle, header := [], units := [], bytes := 0 } ∧
        flashKept (s.flash s.upd.target) (t.flash s.upd.target) flImage 65536 ∧ ∀ x < 65536, t.imageRead s.upd.target x 1 = [0xFF])) ∧
  (∀ (jseq : Nat) (back : ReadBack) (c : Cmd) (s : State), s.storesOk → s.up = true → s.runnable 0x09 0x02 jseq = some c →
    let u := s.upd
    let off := leAt c.params 0 8
    let data := c.params.drop 8
    let conflict := ∃ i < data.length, ((off + i) / 16) ∈ u.units ∧ s.imageRead u.target (off + i) 1 ≠ [data.getD i 0]
    let kept : State → Prop := fun t => t.upd = u ∧ t.flash u.target = s.flash u.target
    ∃ t, exec (.updData jseq back) s = .next t ∧ t = { queueFrame s t with flash0 := t.flash0, flash1 := t.flash1, upd := t.upd } ∧
      t.flash (!u.target) = s.flash (!u.target) ∧
      (u.state ≠ .idle → u.owner ≠ c.slot → completes s t c .updateBusy ∧ kept t) ∧
      (u.owner = c.slot → u.state ≠ .receiving → completes s t c .updateState ∧ kept t) ∧
      (u.owner = c.slot → u.state = .receiving → inParts u.header off data.length = false → completes s t c .updateRange ∧ kept t) ∧
      (u.owner = c.slot → u.state = .receiving → inParts u.header off data.length = true →
        (conflict → completes s t c .updateConflict ∧ kept t) ∧
        (¬conflict → 3 ≤ back.fails → completes s t c .flashWrite ∧ t.upd = { u with units := t.upd.units, bytes := t.upd.bytes } ∧
          (∀ k ∈ u.units, k ∈ t.upd.units) ∧ (∀ k ∈ t.upd.units, k ∈ u.units ∨ ∃ i < data.length, k = (off + i) / 16) ∧
          flashKept (s.flash u.target) (t.flash u.target) (flImage + off) data.length ∧
          (∀ i < data.length, t.imageRead u.target (off + i) 1 =
            if (off + i) / 16 ∈ t.upd.units then [data.getD i 0] else s.imageRead u.target (off + i) 1) ∧
          (back.before = 0 → t.flash u.target = s.flash u.target ∧ t.upd.bytes = u.bytes)) ∧
        (¬conflict → back.fails < 3 → completes s t c .ok ∧ t.imageRead u.target off data.length = data ∧
          flashKept (s.flash u.target) (t.flash u.target) (flImage + off) data.length ∧
          t.upd = { u with units := t.upd.units, bytes := t.upd.bytes } ∧
          ∀ k, k ∈ t.upd.units ↔ k ∈ u.units ∨ ∃ i < data.length, k = (off + i) / 16))) ∧
  (∀ (jseq : Nat) (c : Cmd) (s : State), s.storesOk → s.up = true → s.runnable 0x09 0x03 jseq = some c → s.tansy.queue = [] → s.tansy.dropped = 0 →
    leAt c.params 0 1 ≤ 1 →
    let u := s.upd
    let revert := leAt c.params 0 1 == 1
    let img := if revert then !s.pointer.2 else u.target
    ∃ t, exec (.updActivate jseq) s = .next t ∧
      t = { queueFrame s t with flash0 := t.flash0, flash1 := t.flash1, upd := t.upd, tansy := t.tansy } ∧
      (u.state ≠ .idle → u.owner ≠ c.slot → completes s t c .updateBusy ∧ t.upd = u ∧ t.flash0 = s.flash0 ∧ t.flash1 = s.flash1) ∧
      (u.owner = c.slot → (if revert = true then u.state = .receiving ∨ s.imageValid img = false else u.state ≠ .receiving) →
        completes s t c .updateState ∧ t.upd = u ∧ t.flash0 = s.flash0 ∧ t.flash1 = s.flash1) ∧
      (u.owner = c.slot → revert = false → u.state = .receiving → s.sec.floor ≤ headerVer u.header → (leAt c.params 1 1).testBit 0 = true →
        ∀ p, s.badPart img u.header = some p →
          completes s t c .imageDigest ∧ t.upd = { u with badPart := p } ∧ t.flash0 = s.flash0 ∧ t.flash1 = s.flash1) ∧
      ((u.state ≠ .idle → u.owner = c.slot) →
        (if revert = true then u.state ≠ .receiving ∧ s.imageValid img = true else u.state = .receiving) →
        let h := if revert then s.imageRead img 0 4096 else u.header
        s.sec.floor ≤ headerVer h → ((leAt c.params 1 1).testBit 0 = true ∨ ∀ r, s.nextRecord (headerRecVer h) = some r → r.ver ≤ headerRecVer h) →
        (revert = false → s.badPart img h = none) →
        checkHeader s.part s.sec.floor (flashRead (if revert then s.flash img else flashWrite (s.flash img) flImage h) flImage 4096) = .ok →
        completes s t c .ok ∧ t.upd.owner = c.slot ∧ t.upd.header = h ∧ t.upd.state = (if revert = true ∧ u.state = .activated then .idle else .activated) ∧
        flashRead t.flash0 flPointer 64 = flashRead t.flash1 flPointer 64 ∧
        flashRead t.flash0 flPointer 64 = pointerBytes (s.pointer.1 + 1) img (headerVer h))) ∧
  ∀ (jseq : Nat) (c : Cmd) (s : State), s.storesOk → s.up = true → s.runnable 0x08 0x01 jseq = some c →
    ∃ t, exec (.cfgStage jseq) s = .next t ∧ t = { queueFrame s t with flash0 := t.flash0 } ∧
      (c.params = [] → completes s t c .ok ∧ flashKept s.flash0 t.flash0 flStaged 65536 ∧ ∀ x < 65536, flashRead t.flash0 (flStaged + x) 1 = [0xFF]) ∧
      (c.params ≠ [] → ∀ st, s.checkStaged c.params = .error st → completes s t c st ∧ t.flash0 = s.flash0) ∧
      (c.params ≠ [] → ∀ r, s.checkStaged c.params = .ok r → completes s t c .ok ∧
        flashRead t.flash0 flStaged (r.bytes s.sec.recKey).length = r.bytes s.sec.recKey)

/-- The fields of a link packet lie in their widths (R504). -/
def Sys2Proof.Machine.LinkPacket.fits (p : LinkPacket) : Prop :=
  p.vc < 4 ∧ p.dtile < 16 ∧ p.offset < 2 ^ 48 ∧ p.payload.length % 16 = 0 ∧ p.payload.length ≤ 8192

/-- R504: a packet's bytes decode to the packet.
The model's own readings and choices that it rests on: log 35. -/
def Obligations.LinkPacketsRoundTrip : Prop :=
  ∀ (p : LinkPacket) (rest : List Byte), p.fits →
    p.bytes.length = 48 + p.payload.length ∧ rxHead (p.bytes ++ rest) = .good p p.bytes.length

/-- What a port's traffic changes: the ports, what was sent, counters, free values, the clock, and the account of pace. -/
def Sys2Proof.Machine.linkFrame (s t : State) : State :=
  { s with links := t.links, out := t.out, regs := t.regs, freeCtr := t.freeCtr, counter := t.counter, wall := t.wall, power := t.power
           tansy := t.tansy, flash0 := t.flash0 }

/-- A packet opens no slot of a running step: it is not one of the pipeline's for this module, or what is whole with it is nothing (R212). -/
def Sys2Proof.Machine.opensNothing (s : State) (p : LinkPacket) : Prop :=
  p.vc = 2 → s.channelPort p.vc p.dst = none → s.step = none ∨ Config.pipelineArrival p.tag p.offset p.payload = none

/-- CODEWORD (R502 to R506) and LINK_PACKET (R500, R504, R507 to R509).
The model's own readings and choices that it rests on: log 35, 36, 62, 64. -/
def Obligations.CodewordsAreTakenInOrder : Prop :=
  (∀ (port : Fin 8) (cw : Codeword) (a b : Nat) (t : Nat) (s : State), (s.up = false ∨ (s.port port.val).state ≠ .up) →
    exec (.codeword port cw a b t) s = .next s ∧ ∀ p, exec (.linkPacket port p t) s = .next s) ∧
  (∀ (port : Fin 8) (cw : Codeword) (a b : Nat) (t : Nat) (s : State), s.up = true → s.links.ports.length = 8 → (s.port port.val).state = .up →
    let bytes := (s.port port.val).rxBytes ++ cw.payload.drop (s.port port.val).rxStart
    (∀ q ∈ (rxScan (bytes.length + 1) bytes).1, opensNothing s q) →
    ∃ u, exec (.codeword port cw a b t) s = .next u ∧ u = linkFrame s u ∧ u.counter = max s.counter t ∧ u.power.state = s.power.state) ∧
  (∀ (port : Fin 8) (cw : Codeword) (a b : Nat) (t : Nat) (s : State), s.up = true → s.links.ports.length = 8 → (s.port port.val).state = .up →
    15 < a + b →
    let p := s.port port.val
    let n := if p.reqSeq = p.rxNext % 4096 then p.reqCount + 1 else 1
    ∃ u, exec (.codeword port cw a b t) s = .next u ∧ (u.port port.val).rxNext = p.rxNext ∧ (u.port port.val).reqSeq = p.rxNext % 4096 ∧
      (u.port port.val).reqCount = n ∧ (u.port port.val).retrying = true ∧ (u.port port.val).ackLow = none ∧
      (u.port port.val).state = (if 8 ≤ n then .retraining else .up) ∧
      (u.port port.val).rxBytes = p.rxBytes ∧ ∀ o, o ≠ port.val → u.port o = s.port o) ∧
  (∀ (port : Fin 8) (cw : Codeword) (a b : Nat) (t : Nat) (s : State), s.up = true → s.links.ports.length = 8 → (s.port port.val).state = .up →
    a + b ≤ 15 → cw.ackPart = false → cw.retryReq = false →
    let p := s.port port.val
    cw.seq.toNat ≠ p.rxNext % 4096 →
    let n := if p.retrying then p.reqCount else if p.reqSeq = p.rxNext % 4096 then p.reqCount + 1 else 1
    ∃ u, exec (.codeword port cw a b t) s = .next u ∧ (u.port port.val).rxNext = p.rxNext ∧
      (u.port port.val).rxBytes = p.rxBytes ∧ (u.port port.val).retrying = true ∧ (u.port port.val).ackLow = some cw.ackBits ∧
      (u.port port.val).reqCount = n ∧ (u.port port.val).state = (if 8 ≤ n then .retraining else .up) ∧
      ∀ o, o ≠ port.val → u.port o = s.port o) ∧
  (∀ (port : Fin 8) (cw : Codeword) (a b : Nat) (t : Nat) (s : State), s.up = true → s.links.ports.length = 8 → (s.port port.val).state = .up →
    a + b ≤ 15 → cw.ackPart = false → cw.retryReq = false →
    let p := s.port port.val
    cw.seq.toNat = p.rxNext % 4096 → p.retryFrom = none →
    let bytes := p.rxBytes ++ cw.payload.drop p.rxStart
    (rxScan (bytes.length + 1) bytes).1 = [] → (rxScan (bytes.length + 1) bytes).2.2 = false →
    p.sendQ = [] → p.passQ = [] → p.replay.length < 2048 →
    let ack := if p.ackPart then p.ackHeld else (cw.seq.toNat + 1) % 4096
    ∃ (u : State) (out : Codeword), exec (.codeword port cw a b t) s = .next u ∧ (u.port port.val).rxNext = (cw.seq.toNat + 1) % 4096 ∧
      (u.port port.val).rxBytes = bytes ∧ (u.port port.val).rxStart = 0 ∧
      u.out = s.out ++ [.codeword port.val out p.lanes] ∧
      out = ⟨BitVec.ofNat 12 p.txSeq, p.ackPart, false, BitVec.ofNat 6 (if p.ackPart then ack / 64 else ack % 64), p.txBytes.take 640⟩ ∧
      (u.port port.val).txSeq = (p.txSeq + 1) % 4096 ∧ (u.port port.val).ackPart = !p.ackPart ∧ (u.port port.val).ackHeld = ack ∧
      (u.port port.val).replay = p.replay ++ [out] ∧ (u.port port.val).txBytes = p.txBytes.drop 640 ∧ ∀ o, o ≠ port.val → u.port o = s.port o) ∧
  ∀ (port : Fin 8) (p : LinkPacket) (t : Nat) (s : State), s.storesOk → s.up = true → s.links.ports.length = 8 → (s.port port.val).state = .up →
    opensNothing s p →
    ∃ u, exec (.linkPacket port p t) s = .next u ∧
      u = { s with links := { s.links with ports := u.links.ports, arrived := u.links.arrived }, regs := u.regs, freeCtr := u.freeCtr
                   counter := u.counter, wall := u.wall } ∧
      (∀ o, s.channelPort p.vc p.dst = some o → o ≠ port.val → o < 8 → (s.port o).state = .up → u.links.arrived = s.links.arrived ∧
        u.port o = { s.port o with passQ := (s.port o).passQ ++ [{ p with cls := s.dateline (port.val / 2) o p.cls }] }) ∧
      (s.channelPort p.vc p.dst = none → p.vc ≠ 3 →
        (∃ q, (u.port port.val).sendQ = (s.port port.val).sendQ ++ [q] ∧ q.vc = 3 ∧ q.dst = (s.port port.val).peer ∧ q.cls = s.wraps port.val) ∧
        (∀ e, p.vc = 2 → Config.pipelineArrival p.tag p.offset p.payload = some e → e ∈ u.links.arrived)) ∧
      (s.channelPort p.vc p.dst = none → p.vc = 3 →
        u = { s.at t with links := { s.links with ports := u.links.ports }, regs := u.regs, freeCtr := s.freeCtr + 8 })

/-- What a training of a RETRAINING or DOWN port ends with (R501, R511, R515): its own half of the identity exchange goes out. -/
def Sys2Proof.Machine.trainedTo (s u : State) (i : Nat) (tr : PortTrain) : Prop :=
  let p := s.port i
  let q := u.port i
  let good := (2 ^ 18 - 1 - p.laneFailed) &&& tr.lanes
  (tr.trained = false ∨ trainLanes good = none → q.state = (if p.state = .retraining then .retraining else .down) ∧ u.out = s.out) ∧
  (tr.trained = true → (trainLanes good).isSome = true →
    .identity i (dstWord s.coord) s.extent (padTo 16 s.sec.serial) (BitVec.ofNat 12 p.rxNext) ∈ u.out ∧
    q.peer = tr.coord ∧ q.peerSerial = tr.serial ∧ q.rate = (if tr.fast = true then 2 else 1) ∧ q.cable = tr.cable ∧
    (p.peerSerial ≠ [] → p.peerSerial ≠ tr.serial → q.replay = [])) ∧
  (tr.trained = true → (trainLanes good).isSome = true → s.identityOk i tr = none → q.state = .miswired) ∧
  (tr.trained = true → ∀ ls b, trainLanes good = some ls → s.identityOk i tr = some b →
    q.state = .up ∧ q.skip = b ∧ q.rxNext = 0 ∧ q.lanes = bitsSet ls.1 18 ∧ q.laneSpare = ls.2.1 ∧ q.half = ls.2.2.2 ∧
    (p.peerSerial = tr.serial → q.replay = renumber 0 (p.takeAck tr.peerNext.toNat).replay ∧ q.rxBytes = p.rxBytes)) ∧
  ∀ o, o ≠ i → u.port o = s.port o

/-- Nothing of Burnet is in flight, and no running step has failed. -/
def Sys2Proof.Machine.noTraffic (s : State) : Prop :=
  s.bnt.runs = [] ∧ s.bnt.exchanges = [] ∧ s.bnt.gathers = [] ∧ (∀ r, s.step = some r → r.fail = none) ∧ ∀ r, s.filler = some r → r.fail = none

/-- ACK_STALL (R506), LINK_RETRAIN (R515), LINK_DOWN (R516), PORT_DOWN_RETRY (R513) and WEAK_LANE (R514).
The model's own readings and choices that it rests on: log 22, 35. -/
def Obligations.PortsRetrainAndGoDown : Prop :=
  ∀ (port : Fin 8) (tr : PortTrain) (t : Nat) (s : State), s.up = true → s.links.ports.length = 8 → regsWf s.regs = true →
    let i := port.val
    let p := s.port i
    let counts : State → Prop := fun u => u.reg (lnkReg Reg.lnkRetrains i) = (s.reg (lnkReg Reg.lnkRetrains i) + 1) % 2 ^ 64
    let retrains : State → Prop := fun u =>
      u.port i = { p with state := .retraining, retrainAt := max s.counter t, retryFrom := none } ∧ counts u ∧
      (∀ o, o ≠ i → u.port o = s.port o) ∧ u.parts = s.parts ∧ u.step = s.step ∧ u.mem = s.mem
    (∃ u, exec (.ackStall port t) s = .next u ∧
      (if p.state = .up ∧ p.replay ≠ [] ∧ p.ackAt + 20000 ≤ t then retrains u else u = s)) ∧
    (p.state = .up → ∃ u, exec (.linkRetrain port tr t) s = .next u ∧ retrains u) ∧
    (p.state = .retraining ∨ p.state = .training → noTraffic s →
      ∃ u, exec (.linkRetrain port tr t) s = .next u ∧ trainedTo s u i tr ∧ u.parts = s.parts ∧ u.step = s.step ∧ u.mem = s.mem) ∧
    (p.state = .retraining → p.retrainAt + s.reg Reg.lnkDownTimeout * 1000000 ≤ t → noTraffic s →
      ∃ u, exec (.linkDown port t) s = .next u ∧ u.port i = { p with state := .down, replay := [], acked := [], txBytes := [], retryFrom := none } ∧
        (∀ o, o ≠ i → u.port o = s.port o) ∧ u.parts = s.parts ∧ u.step = s.step ∧ u.mem = s.mem) ∧
    (p.state = .down → (s.axis (i / 2)).through = true → noTraffic s →
      ∃ u, exec (.portDownRetry port tr) s = .next u ∧ trainedTo s u i tr ∧ u.parts = s.parts ∧ u.mem = s.mem) ∧
    ∀ (lane : Fin 18) (n : Nat) (lost : Bool), p.state = .up → p.lanes.contains lane.val = true →
      ∃ u, exec (.weakLane port lane n lost t) s = .next u ∧ (∀ o, o ≠ i → u.port o = s.port o) ∧
        (lost = false → n ≤ s.reg Reg.lnkLaneThreshold → u = { s.at t with power := u.power, regs := u.regs }) ∧
        (lost = true → ∀ k, (bitsSet p.laneSpare 18).head? = some k →
          u.port i = { p with lanes := p.lanes.map (fun x => if x = lane.val then k else x), laneSpare := p.laneSpare - 2 ^ k
                              laneFailed := p.laneFailed ||| 2 ^ lane.val, spared := true }) ∧
        (lost = true → (bitsSet p.laneSpare 18).head? = none →
          (u.port i).state = .retraining ∧ (u.port i).laneFailed = p.laneFailed ||| 2 ^ lane.val ∧ (u.port i).spared = true)

/-- What a reading that trips nothing changes: rails, islands, stacks and pace, lifetime cycles, counters and events, the clock. -/
def Sys2Proof.Machine.powerFrame (s t : State) : State :=
  { s with power := t.power, lif := { s.lif with cycles := t.lif.cycles, lowT := t.lif.lowT }, regs := t.regs, freeCtr := t.freeCtr
           counter := t.counter, wall := t.wall, tansy := t.tansy, flash0 := t.flash0 }

/-- RAIL_SAMPLE (R530, R531, R536), ISLAND_SENSOR (R533 to R536), BOOST (R537), POWER_CEILING (R538), ENERGY_UPDATE (R542).
The model's own readings and choices that it rests on: log 37, 38, 63. -/
def Obligations.RailsIslandsAndTheCeiling : Prop :=
  (∀ (k : Tile) (amps mv t : Nat) (s : State), s.pins.pgood = true → s.power.rails.length = 10 → s.power.feeds.length = 32 →
    let r := s.power.rails.getD k.val Rail.reset
    let baseUp := s.power.state = .full ∨ s.power.state = .hold ∨ s.power.state = .park
    let kept : State → Prop := fun u => u = { s.paceTo t with power := { (s.paceTo t).power with
      feeds := modifyAt s.power.feeds k.val fun _ => ⟨amps, mv⟩ } }
    (r.on = true → r.point ≤ 5 → amps < 2000 → ∃ u, exec (.railSample (.core k) ⟨amps, mv⟩ t) s = .next u ∧
      u = { s with power := u.power, regs := u.regs, freeCtr := u.freeCtr, counter := u.counter, wall := u.wall } ∧
      (u.power.rails.getD k.val Rail.reset).samples = (amps :: r.samples).take 40 ∧ (u.power.rails.getD k.val Rail.reset).point = r.point ∧
      (u.power.rails.getD k.val Rail.reset).mv = mv ∧
      (s.reg Reg.pwrRailLimit ≤ (u.power.rails.getD k.val Rail.reset).mean → regsWf s.regs = true → 0 < (u.power.rails.getD k.val Rail.reset).stretchPct) ∧
      ((u.power.rails.getD k.val Rail.reset).mean < s.reg Reg.pwrRailLimit → regsWf s.regs = true → r.stretchPct = 0 →
        (u.power.rails.getD k.val Rail.reset).stretchPct = 0) ∧
      ∀ j, j ≠ k.val → u.power.rails.getD j Rail.reset = s.power.rails.getD j Rail.reset) ∧
    (r.on = true → 2000 ≤ amps → exec (.railSample (.core k) ⟨amps, mv⟩ t) s = .next ((s.paceTo t).tripTile k.val false)) ∧
    (r.on = false → exec (.railSample (.core k) ⟨amps, mv⟩ t) s = .next (s.paceTo t)) ∧
    (baseUp → r.tripI = false → r.tripT = false →
      ∃ u, kept u ∧ exec (.railSample (.base k) ⟨amps, mv⟩ t) s = .next (if 500 ≤ amps then u.tripTile k.val false else u)) ∧
    (baseUp → amps < 500 → ∃ u, kept u ∧ exec (.railSample (.base k) ⟨amps, mv⟩ t) s = .next u) ∧
    (¬baseUp → exec (.railSample (.base k) ⟨amps, mv⟩ t) s = .next (s.paceTo t))) ∧
  (∀ (amps mv t : Nat) (s : State), s.pins.pgood = true → s.power.feeds.length = 32 →
    (∀ k : Fin 20, exec (.railSample (.dram k) ⟨amps, mv⟩ t) s = .next (if s.power.state = .off then s.paceTo t else { s.paceTo t with
      power := { (s.paceTo t).power with feeds := modifyAt s.power.feeds (10 + k.val) fun _ => ⟨amps, mv⟩ } })) ∧
    exec (.railSample .auxiliary ⟨amps, mv⟩ t) s = .next { s.paceTo t with
      power := { (s.paceTo t).power with feeds := modifyAt s.power.feeds 31 fun _ => ⟨amps, mv⟩ } }) ∧
  (∀ (k : Nat) (s : State), s.power.rails.length = 10 → s.step = none → s.filler = none → s.power.tripLog = [] → k < 10 →
    let u : State := s.modRail k fun r => { r with on := false, samples := [], stretchPct := 0, tripI := true }
    ∃ v : State, s.tripTile k false = v.boundary ∧ v.pins.alertTrip = true ∧ v.power.rails = u.power.rails ∧ v.power.tripLog = [(k, s.powerOnNow)] ∧
      v.boot = s.boot ∧ v.parts = s.parts ∧ v.xpr.queues = modifyAt s.xpr.queues k (fun _ => []) ∧ ∀ e ∈ v.cores, e.1 / 96 ≠ k) ∧
  (∀ (amps mv t : Nat) (s : State), s.pins.pgood = true →
    (amps < 150 → exec (.railSample .hub ⟨amps, mv⟩ t) s = .next { s.paceTo t with
      power := { (s.paceTo t).power with feeds := modifyAt s.power.feeds 30 fun _ => ⟨amps, mv⟩ } }) ∧
    (150 ≤ amps → ∃ u, exec (.railSample .hub ⟨amps, mv⟩ t) s = .next u ∧ u.pins.pgood = false ∧ u.pins.lockout = true ∧ u.mem = [] ∧ u.cores = [] ∧
      u.flash1 = s.flash1 ∧ u.parts = State.reset.parts)) ∧
  (∀ (i : Fin 612) (temp : Int) (t : Nat) (s : State), s.pins.pgood = true → s.power.islands.length = 612 → temp < 115 * 16 →
    ∃ u, exec (.islandSensor (.island i) temp t) s = .next u ∧ u = powerFrame s u ∧ (u.power.islands.getD i.val Island.reset).temp = temp ∧
      (105 * 16 ≤ temp → (u.power.islands.getD i.val Island.reset).throttled = true) ∧
      (temp < 105 * 16 → (s.power.islands.getD i.val Island.reset).throttled = false → (u.power.islands.getD i.val Island.reset).throttled = false)) ∧
  (∀ (i : Fin 612) (temp : Int) (t : Nat) (s : State), s.pins.pgood = true → 115 * 16 ≤ temp → (600 ≤ i.val ∨ vitalIsland (i.val % 60) = true) →
    ∃ u, exec (.islandSensor (.island i) temp t) s = .next u ∧ u.pins.pgood = false ∧ u.pins.lockout = true ∧ u.mem = []) ∧
  (∀ (k : Fin 20) (temp : Int) (t : Nat) (s : State), s.pins.pgood = true → s.power.stackList.length = 20 → temp < 105 * 16 →
    ∃ u, exec (.islandSensor (.stack k) temp t) s = .next u ∧ u = powerFrame s u ∧ u.lif = s.lif ∧
      (u.power.stackList.getD k.val ⟨0, false, 0⟩).temp = temp ∧
      (u.power.stackList.getD k.val ⟨0, false, 0⟩).paced =
        (decide (95 * 16 < temp) || (decide (93 * 16 < temp) && (s.power.stackList.getD k.val ⟨0, false, 0⟩).paced)) ∧
      ∀ j, j ≠ k.val → u.power.stackList.getD j ⟨0, false, 0⟩ = s.power.stackList.getD j ⟨0, false, 0⟩) ∧
  (∀ (k : Tile) (t : Nat) (s : State), s.pins.pgood = true → s.power.rails.length = 10 → s.counter ≤ t →
    let r := s.power.rails.getD k.val Rail.reset
    ∃ u, exec (.boost k t) s = .next u ∧ u = { s with power := u.power, regs := u.regs, counter := t, wall := u.wall } ∧
      (∀ j, j ≠ k.val → u.power.rails.getD j Rail.reset = s.power.rails.getD j Rail.reset) ∧
      (5 ≤ r.point → r.point < 7 → 0 < r.boostSince → r.boostSince + 100000 ≤ t → (s.paceTo t).boostOk k.val (r.point + 1) = true →
        (u.power.rails.getD k.val Rail.reset).point = r.point + 1) ∧
      (r.point < (u.power.rails.getD k.val Rail.reset).point → 5 ≤ r.point ∧ (u.power.rails.getD k.val Rail.reset).point = r.point + 1 ∧
        (u.power.rails.getD k.val Rail.reset).point ≤ 7 ∧ 0 < r.boostSince ∧ r.boostSince + 100000 ≤ t ∧ (s.paceTo t).boostOk k.val (r.point + 1) = true)) ∧
  (∀ (x : Readings) (t : Nat) (s : State), s.pins.pgood = true →
    ∃ u, exec (.powerCeiling x t) s = .next u ∧ u.readings = x ∧
      u = { s with readings := x, power := u.power, regs := u.regs, counter := u.counter, wall := u.wall, tansy := u.tansy, flash0 := u.flash0 } ∧
      u.power.inputSamples = ((t, x.pinW) :: s.power.inputSamples).filter (fun e => decide (t < e.1 + 10000000)) ∧
      (regsWf s.regs = true → s.reg Reg.pwrCeiling < u.power.inputMean → s.power.ceilChanged + 1000000 ≤ t →
        u.power.rails.map (·.permitted) = s.power.rails.map fun r => r.permitted - 1) ∧
      (t < s.power.ceilChanged + 1000000 → u.power.rails.map (·.permitted) = s.power.rails.map (·.permitted))) ∧
  ∀ (e : EnergyUpdate) (t : Nat) (s : State), s.pins.pgood = true → e.queues.length = 64 →
    let b := s.power.energyAt e (max s.counter t)
    ((∃ a ∈ s.power.eLog, a.1 + 1000000000 ≤ b.1 ∧
        (51 * (b.2.1 - a.2.1) < 50 * (b.2.2 - a.2.2) ∨ 50 * (b.2.2 - a.2.2) < 49 * (b.2.1 - a.2.1))) →
      exec (.energyUpdate e t) s = .next (s.paceTo t)) ∧
    ((∀ a ∈ s.power.eLog, a.1 + 1000000000 ≤ b.1 →
        50 * (b.2.2 - a.2.2) ≤ 51 * (b.2.1 - a.2.1) ∧ 49 * (b.2.1 - a.2.1) ≤ 50 * (b.2.2 - a.2.2)) →
      ∃ u, exec (.energyUpdate e t) s = .next u ∧
        u = { s.paceTo t with power := { (s.paceTo t).power with
                eIn := s.power.eIn + BitVec.ofNat 64 e.input, eShared := s.power.eShared + BitVec.ofNat 64 e.shared
                eOverhead := s.power.eOverhead + BitVec.ofNat 64 e.overhead, eQueue := u.power.eQueue, eTime := max s.counter t
                eLog := u.power.eLog } } ∧
        u.power.eLog.head? = some b ∧ b.2.1 = (s.power.eLog.headD (0, 0, 0)).2.1 + e.input ∧
        b.2.2 = (s.power.eLog.headD (0, 0, 0)).2.2 + e.queues.sum + e.shared + e.overhead ∧
        u.power.eQueue.length = s.power.eQueue.length ∧
        ∀ k < s.power.eQueue.length, u.power.eQueue.getD k 0 = s.power.eQueue.getD k 0 + BitVec.ofNat 64 (e.queues.getD k 0))

/-- PATROL_SCRUB (R278, R280), DRAM_REFRESH (R282), STRESS_UPDATE (R565), LIFETIME_RECORD_WRITE (R568), BACKGROUND_REBUILD (R563, R564).
The model's own readings and choices that it rests on: log 32, 33. -/
def Obligations.ScrubRefreshStressAndRebuilds : Prop :=
  (∀ (a : Nat) (f : ScrubFound) (s : State), s.up = true → scrubWord a = true → s.tileIn (wordTile a) = true →
    ∃ u : State, exec (.patrolScrub a f) s = .next (if f = .uncorrectable ∧ firmwareWord a = true then u.isolateNow (wordTile a) else u) ∧
      u = { s with keep := u.keep, lif := u.lif, tansy := u.tansy, flash0 := u.flash0, regs := u.regs } ∧
      (a < 0x00A000000000 → u.keep.scrubDram = a + 64 ∧ u.keep.scrubStore = s.keep.scrubStore) ∧
      (0x00A000000000 ≤ a → u.keep.scrubStore = a + 8 ∧ u.keep.scrubDram = s.keep.scrubDram) ∧
      (f = .uncorrectable → ∀ w, w ∈ u.keep.marks ↔ w = a ∨ w ∈ s.keep.marks) ∧ (f ≠ .uncorrectable → u.keep.marks = s.keep.marks) ∧
      (f = .clean → u.lif = s.lif ∧ u.tansy = s.tansy)) ∧
  (∀ (k : Nat) (s : State), s.pins.pgood = true → k < s.power.stackList.length →
    ∃ u, exec (.dramRefresh k) s = .next u ∧ u = { s with power := { s.power with stackList := u.power.stackList } } ∧
      (u.power.stackList.getD k ⟨0, false, 0⟩) = { s.power.stackList.getD k ⟨0, false, 0⟩ with refreshes := (s.power.stackList.getD k ⟨0, false, 0⟩).refreshes + 1 } ∧
      ∀ j, j ≠ k → u.power.stackList[j]? = s.power.stackList[j]?) ∧
  (∀ (temps : List Int) (s : State), s.pins.pgood = true →
    ∃ u, exec (.stressUpdate temps) s = .next u ∧ u = { s with power := { s.power with islands := u.power.islands } } ∧
      u.power.islands.length = s.power.islands.length ∧
      ∀ k < s.power.islands.length, let i := s.power.islands.getD k Island.reset
        u.power.islands.getD k Island.reset =
          if k < temps.length then
            { i with stress := i.stress + stressHour (temps.getD k 0), wear := min 255 ((i.stress + stressHour (temps.getD k 0)) / (350 * 1024)) }
          else i) ∧
  (∀ (n : Nat) (s : State), s.storesOk → s.up = true →
    ∃ u, exec (.lifetimeRecordWrite n) s = .next u ∧ u.lif.writeSeq = s.lif.writeSeq + n + 1 ∧ u.lif.lastWrite = s.counter ∧
      u = { s with lif := { s.lif with powerOn := u.lif.powerOn, powerOnAt := u.lif.powerOnAt, writeSeq := u.lif.writeSeq, lastWrite := u.lif.lastWrite }
                   flash1 := u.flash1, tansy := u.tansy, flash0 := u.flash0, regs := u.regs } ∧
      u.powerOnNow = s.powerOnNow ∧
      (n = 0 → u.tansy = s.tansy ∧ u.flash0 = s.flash0 ∧ u.regs = s.regs) ∧
      ∃ body : List Byte, flashRead u.flash1 (flLifetime + 0x20000 * (u.lif.writeSeq % 128)) (body ++ hmac256 s.sec.recKey body).length
        = body ++ hmac256 s.sec.recKey body ∧ body.take 4 = leBytes 4 0x59574C46 ∧ slice body 8 8 = leBytes 8 u.lif.writeSeq) ∧
  ∀ s : State, s.up = true →
    ∃ u, exec .backgroundRebuild s = .next u ∧ u.parts = s.parts ∧ u.mem = s.mem ∧ u.fp = s.fp ∧ u.cores = s.cores ∧
      (s.mainRunning = true →
        u.lif = { s.lif with spareBuild := if s.lif.spareBuild = .building then .ready else s.lif.spareBuild
                             repairBuild := if s.lif.repairBuild = .building then .ready else s.lif.repairBuild }) ∧
      (s.mainRunning = false →
        u.lif.spareMap = (if s.lif.spareBuild = .idle then s.lif.spareMap else s.lif.pendingMap) ∧
        u.lif.spareGen = (if s.lif.spareBuild = .idle then s.lif.spareGen else s.lif.spareGen + 1) ∧
        u.lif.repairs = (if s.lif.repairBuild = .idle then s.lif.repairs else s.lif.pendingRepairs) ∧
        u.lif.repairGen = (if s.lif.repairBuild = .idle then s.lif.repairGen else s.lif.repairGen + 1) ∧
        u.lif.spareBuild = .idle ∧ u.lif.repairBuild = .idle)

/-- EVENT_RECORD (R581), EVENT_SUMMARY (R587 to R589), and what one record written does to the ring (R578, R579).
The model's own readings and choices that it rests on: log 34, 52. -/
def Obligations.EventsAreRecordedInOrder : Prop :=
  (∀ (e : Event) (s : State), ∃ u, exec (.eventRecord e) s = .next u ∧ u = { s with tansy := u.tansy, flash0 := u.flash0, regs := u.regs } ∧
      ((s.tansy.queue.all fun q => q.time == e.time) = true → s.tansy.queue.length < (if e.cls = .fatal then 4096 else 4032) ∨ e.cls = .fatal →
        u = { s with tansy := { s.tansy with queue := s.tansy.queue ++ [e] } }) ∧
      ((s.tansy.queue.all fun q => q.time == e.time) = true → e.cls ≠ .fatal → 4032 ≤ s.tansy.queue.length →
        u.tansy = { s.tansy with dropped := s.tansy.dropped + 1 } ∧
        (regsWf s.regs = true → u.reg Reg.evtLost = (s.reg Reg.evtLost + 1) % 2 ^ 64)) ∧
      ((s.tansy.queue.all fun q => q.time == e.time) = false → u.tansy.queue = [e] ∧ u.tansy.dropped = 0)) ∧
  (∀ (t : Nat) (s : State), s.tansy.queue = [] → s.tansy.dropped = 0 →
    let fin := s.tansy.winStart + s.tansy.winMs * 1000000
    let w := (regGet s.regs Reg.evtRateWindow).toNat
    let now := max s.counter t
    ∃ u, exec (.eventSummary t) s = .next u ∧
      (s.boot.step < 4 ∨ now < fin → u = s.at t) ∧
      (4 ≤ s.boot.step → fin ≤ now → regsWf s.regs = true → 0 < w →
        u = { s.at t with tansy := u.tansy, flash0 := u.flash0, regs := u.regs } ∧ u.flash0 = s.flash0 ∧ u.tansy.counts = [] ∧
        u.tansy.winMs = w ∧ u.tansy.winDefault = s.reg Reg.evtRateDefault ∧ u.tansy.winOver = rateOverrides s.regs ∧
        u.tansy.winStart ≤ now ∧ now < u.tansy.winStart + w * 1000000 ∧ fin ≤ u.tansy.winStart ∧ (u.tansy.winStart - fin) % (w * 1000000) = 0 ∧
        s.tansy.next + (s.tansy.counts.filter fun c => decide (0 < c.supp)).length ≤ u.tansy.next ∧
        ((s.tansy.counts.all fun c => c.supp == 0) = true → u.tansy.ring = s.tansy.ring ∧ u.tansy.next = s.tansy.next))) ∧
  (∀ (tn : Tansy) (boot code time : Nat) (cls : EvClass) (source : W32) (body : List Byte), body.length % 32 = 0 → body.length ≤ 992 →
    tn.wpos.val < ringSize → tn.wpos.val % 32 = 0 →
    let out := (tn.write boot code cls time source body).1
    let r := (tn.write boot code cls time source body).2.2
    ∃ x, out.ring.getLast? = some x ∧ x.bytes = r ∧ r.length = 32 + body.length ∧ x.valid = true ∧ x.read = false ∧ out.next = x.seq + 1 ∧
      tn.next ≤ x.seq ∧ x.off + r.length ≤ ringSize ∧ out.wpos = ⟨(x.off + r.length) % ringSize, (x.off + r.length) % ringSize⟩ ∧
      (∀ y ∈ out.ring, y ≠ x → y.off + y.bytes.length ≤ x.off ∨ x.off + r.length ≤ y.off) ∧
      (tn.wpos.val + 32 + body.length ≤ ringSize → x.off = tn.wpos.val ∧ x.seq = tn.next))
end

