-- ==== Sys2Proof/Laws/Crypto.lean ====
section
/-! SUPPORT. Sys2Proof/Laws/Crypto.lean: lengths of digests and MACs. -/

namespace Sys2Proof

theorem shaRound_length (w : Array Nat) (v : List Nat) (t : Nat) : (shaRound w v t).length = v.length := by
  unfold shaRound; split <;> simp

theorem shaRounds_length (w : Array Nat) (ts v : List Nat) : (ts.foldl (shaRound w) v).length = v.length := by
  induction ts generalizing v with
  | nil => rfl
  | cons t ts ih => simp [ih, shaRound_length]

theorem shaGo_length (n : Nat) (h : List Nat) (bs : List Byte) : (shaGo n h bs).length = h.length := by
  induction n generalizing h bs with
  | zero => rfl
  | succ n ih => simp [shaGo, ih, shaBlock, shaRounds_length]

theorem flatMap_beBytes_length (ws : List Nat) : (ws.flatMap (beBytes 8)).length = 8 * ws.length := by
  induction ws with
  | nil => rfl
  | cons w ws ih => simp [List.flatMap_cons, ih]; omega

theorem shaWith_length (iv : List Nat) (m : List Byte) : (shaWith iv m).length = 8 * iv.length := by
  unfold shaWith; rw [flatMap_beBytes_length, shaGo_length]

theorem hmac256_length (k m : List Byte) : (hmac256 k m).length = 32 := by
  unfold hmac256 hmacWith sha512t256; rw [List.length_take, shaWith_length]; rfl

@[simp] theorem sha512_length (m : List Byte) : (sha512 m).length = 64 := by unfold sha512; rw [shaWith_length]; rfl

end Sys2Proof
end

