-- ==== Sys2Proof/Laws/Memory.lean ====
section
/-! SUPPORT. Sys2Proof/Laws/Memory.lean: the canonical form of the sparse maps (memory, flash, local stores, register words, cores, clusters): every
operation keeps it, a read after a write gives what was written, and every other key reads as before. -/

namespace Sys2Proof

/-! Sparse maps. -/

theorem Sparse.wf_iff {α : Type} [DecidableEq α] (d : α) (m : List (Nat × α)) :
    Sparse.wf d m = true ↔ (∀ e ∈ m, e.2 ≠ d) ∧ m.Pairwise fun a b => a.1 < b.1 := by
  simp [Sparse.wf, List.all_eq_true]

theorem Sparse.wf_cons {α : Type} [DecidableEq α] (d : α) (e : Nat × α) (m : List (Nat × α)) :
    Sparse.wf d (e :: m) = true ↔ e.2 ≠ d ∧ (∀ x ∈ m, e.1 < x.1) ∧ Sparse.wf d m = true := by
  simp only [Sparse.wf_iff, List.mem_cons, forall_eq_or_imp, List.pairwise_cons]
  constructor
  · rintro ⟨⟨h1, h2⟩, h3, h4⟩; exact ⟨h1, h3, h2, h4⟩
  · rintro ⟨h1, h3, h2, h4⟩; exact ⟨⟨h1, h2⟩, h3, h4⟩

@[simp] theorem Sparse.wf_nil {α : Type} [DecidableEq α] (d : α) : Sparse.wf d ([] : List (Nat × α)) = true := rfl

/-- A key below every entry reads as the default. -/
theorem Sparse.get_of_lt {α : Type} (d : α) (m : List (Nat × α)) (k : Nat) (h : ∀ e ∈ m, k < e.1) : Sparse.get d m k = d := by
  induction m with
  | nil => rfl
  | cons e m ih =>
    have he := h e (List.mem_cons_self ..)
    simp only [Sparse.get]
    rw [if_neg (by omega), ih fun x hx => h x (List.mem_cons_of_mem _ hx)]

/-- What is read after a write: the value written, and elsewhere what was there. -/
theorem Sparse.get_set {α : Type} [DecidableEq α] (d : α) (m : List (Nat × α)) (k j : Nat) (v : α) (hm : Sparse.wf d m = true) :
    Sparse.get d (Sparse.set d m k v) j = if j = k then v else Sparse.get d m j := by
  induction m with
  | nil => by_cases hv : v = d <;> by_cases hj : j = k <;> simp [Sparse.set, Sparse.get, hv, hj]
  | cons e m ih =>
    obtain ⟨k', v'⟩ := e
    obtain ⟨_, hlt, hm'⟩ := (Sparse.wf_cons d _ m).mp hm
    simp only [Sparse.set]
    split
    · by_cases hv : v = d
      · by_cases hj : j = k
        · subst hj; subst hv
          simp only [if_true]
          exact Sparse.get_of_lt _ _ _ fun x hx => by
            rcases List.mem_cons.mp hx with rfl | hx
            · assumption
            · exact Nat.lt_trans (by assumption) (hlt x hx)
        · simp [hv, hj]
      · simp [hv, Sparse.get]
    · split
      · subst k
        by_cases hv : v = d
        · by_cases hj : j = k'
          · subst hj; subst hv
            simp only [if_true]
            exact Sparse.get_of_lt _ _ _ hlt
          · simp [hv, hj, Sparse.get]
        · by_cases hj : j = k' <;> simp [hv, hj, Sparse.get]
      · simp only [Sparse.get]
        by_cases hj : j = k'
        · subst hj; rw [if_pos rfl, if_pos rfl, if_neg (by omega)]
        · rw [if_neg hj, if_neg hj, ih hm']

/-- The keys of a map after a write: the old ones and the one written. -/
theorem Sparse.keys_set {α : Type} [DecidableEq α] (d : α) (m : List (Nat × α)) (k : Nat) (v : α) :
    ∀ e ∈ Sparse.set d m k v, e.1 = k ∨ ∃ x ∈ m, x.1 = e.1 := by
  induction m with
  | nil => intro e he; by_cases hv : v = d <;> simp_all [Sparse.set]
  | cons x m ih =>
    obtain ⟨k', v'⟩ := x
    intro e he
    simp only [Sparse.set] at he
    split at he
    · split at he
      · exact .inr ⟨e, he, rfl⟩
      · rcases List.mem_cons.mp he with rfl | he
        · exact .inl rfl
        · exact .inr ⟨e, he, rfl⟩
    · split at he
      · split at he
        · exact .inr ⟨e, List.mem_cons_of_mem _ he, rfl⟩
        · rcases List.mem_cons.mp he with rfl | he
          · exact .inl rfl
          · exact .inr ⟨e, List.mem_cons_of_mem _ he, rfl⟩
      · rcases List.mem_cons.mp he with rfl | he
        · exact .inr ⟨_, List.mem_cons_self .., rfl⟩
        · rcases ih e he with h | ⟨x, hx, h⟩
          · exact .inl h
          · exact .inr ⟨x, List.mem_cons_of_mem _ hx, h⟩

/-- A write keeps the canonical form. -/
theorem Sparse.wf_set {α : Type} [DecidableEq α] (d : α) (m : List (Nat × α)) (k : Nat) (v : α) (hm : Sparse.wf d m = true) :
    Sparse.wf d (Sparse.set d m k v) = true := by
  induction m with
  | nil => by_cases hv : v = d <;> simp [Sparse.set, hv, Sparse.wf]
  | cons e m ih =>
    obtain ⟨k', v'⟩ := e
    have h := (Sparse.wf_cons d _ m).mp hm
    simp only [Sparse.set]
    split
    · rename_i hk
      split
      · exact hm
      · exact (Sparse.wf_cons ..).mpr ⟨by assumption, fun x hx => by
          rcases List.mem_cons.mp hx with rfl | hx
          · exact hk
          · exact Nat.lt_trans hk (h.2.1 x hx), hm⟩
    · split
      · rename_i hk
        subst hk
        split
        · exact h.2.2
        · exact (Sparse.wf_cons ..).mpr ⟨by assumption, h.2.1, h.2.2⟩
      · refine (Sparse.wf_cons ..).mpr ⟨h.1, fun x hx => ?_, ih h.2.2⟩
        rcases Sparse.keys_set d m k v x hx with hx | ⟨y, hy, hx⟩
        · show k' < x.1; omega
        · rw [← hx]; exact h.2.1 y hy

/-- Entries taken out keep the canonical form. -/
theorem Sparse.wf_filter {α : Type} [DecidableEq α] (d : α) (m : List (Nat × α)) (p : Nat × α → Bool) (hm : Sparse.wf d m = true) :
    Sparse.wf d (m.filter p) = true := by
  rw [Sparse.wf_iff] at hm ⊢
  exact ⟨fun e he => hm.1 e (List.mem_filter.mp he).1, hm.2.sublist List.filter_sublist⟩

/-- What is read after entries are taken out by their keys. -/
theorem Sparse.get_filter {α : Type} (d : α) (m : List (Nat × α)) (p : Nat → Bool) (k : Nat) :
    Sparse.get d (m.filter fun e => p e.1) k = if p k = true then Sparse.get d m k else d := by
  induction m with
  | nil => simp [Sparse.get]
  | cons e m ih =>
    obtain ⟨k', v'⟩ := e
    by_cases hp : p k' = true
    · rw [List.filter_cons_of_pos (by simpa using hp)]
      simp only [Sparse.get, ih]
      by_cases hk : k = k'
      · subst hk; simp [hp]
      · simp [hk]
    · rw [List.filter_cons_of_neg (by simpa using hp), ih]
      simp only [Sparse.get]
      by_cases hk : k = k'
      · subst hk; simp [hp]
      · simp [hk]

/-! Register words. -/

theorem regsWf_cons (e : Nat × W64) (m : List (Nat × W64)) :
    regsWf (e :: m) = true ↔ e.2 ≠ regReset e.1 ∧ (∀ x ∈ m, e.1 < x.1) ∧ regsWf m = true := by
  simp only [regsWf, Bool.and_eq_true, List.all_eq_true, decide_eq_true_eq, List.mem_cons, forall_eq_or_imp, List.pairwise_cons]
  constructor
  · rintro ⟨⟨h1, h2⟩, h3, h4⟩; exact ⟨h1, h3, h2, h4⟩
  · rintro ⟨h1, h3, h2, h4⟩; exact ⟨⟨h1, h2⟩, h3, h4⟩

theorem regSet_wf (m : List (Nat × W64)) (k : Nat) (v : W64) (hm : regsWf m = true) : regsWf (regSet m k v) = true := by
  unfold regSet
  induction m with
  | nil => by_cases hv : v = regReset k <;> simp [Sparse.set, hv, regsWf]
  | cons e m ih =>
    obtain ⟨k', v'⟩ := e
    have h := (regsWf_cons _ m).mp hm
    simp only [Sparse.set]
    split
    · rename_i hk
      split
      · exact hm
      · exact (regsWf_cons ..).mpr ⟨by assumption, fun x hx => by
          rcases List.mem_cons.mp hx with rfl | hx
          · exact hk
          · exact Nat.lt_trans hk (h.2.1 x hx), hm⟩
    · split
      · rename_i hk
        subst hk
        split
        · exact h.2.2
        · exact (regsWf_cons ..).mpr ⟨by assumption, h.2.1, h.2.2⟩
      · refine (regsWf_cons ..).mpr ⟨h.1, fun x hx => ?_, ih h.2.2⟩
        rcases Sparse.keys_set _ m k v x hx with hx | ⟨y, hy, hx⟩
        · show k' < x.1; omega
        · rw [← hx]; exact h.2.1 y hy

theorem regAdd_wf (m : List (Nat × W64)) (k n : Nat) (hm : regsWf m = true) : regsWf (regAdd m k n) = true := regSet_wf m k _ hm

/-- Keys below every entry read their reset values. -/
theorem regGet_of_lt (m : List (Nat × W64)) (k : Nat) (h : ∀ e ∈ m, k < e.1) : regGet m k = regReset k := Sparse.get_of_lt _ _ _ h

theorem regGet_regSet (m : List (Nat × W64)) (k j : Nat) (v : W64) (hm : regsWf m = true) :
    regGet (regSet m k v) j = if j = k then v else regGet m j := by
  unfold regGet regSet
  induction m with
  | nil => by_cases hv : v = regReset k <;> by_cases hj : j = k <;> simp [Sparse.set, Sparse.get, hv, hj]
  | cons e m ih =>
    obtain ⟨k', v'⟩ := e
    obtain ⟨_, hlt, hm'⟩ := (regsWf_cons _ m).mp hm
    simp only [Sparse.set]
    split
    · by_cases hv : v = regReset k
      · by_cases hj : j = k
        · subst hj; subst hv
          simp only [if_true]
          exact Sparse.get_of_lt _ _ _ fun x hx => by
            rcases List.mem_cons.mp hx with rfl | hx
            · assumption
            · exact Nat.lt_trans (by assumption) (hlt x hx)
        · simp [hv, hj]
      · simp [hv, Sparse.get]
    · split
      · subst k
        by_cases hv : v = regReset k'
        · by_cases hj : j = k'
          · subst hj; subst hv
            simp only [if_true]
            exact Sparse.get_of_lt _ _ _ hlt
          · simp [hv, hj, Sparse.get]
        · by_cases hj : j = k' <;> simp [hv, hj, Sparse.get]
      · simp only [Sparse.get]
        by_cases hj : j = k'
        · subst hj; rw [if_pos rfl, if_pos rfl, if_neg (by omega)]
        · rw [if_neg hj, if_neg hj, ih hm']

theorem regGet_regAdd (m : List (Nat × W64)) (k j n : Nat) (hm : regsWf m = true) :
    regGet (regAdd m k n) j = if j = k then regGet m k + BitVec.ofNat 64 n else regGet m j := regGet_regSet m k j _ hm

/-! Byte maps. -/

namespace Machine

theorem byteEntries_keys (d : Byte) (bs : List Byte) (a : Nat) : ∀ e ∈ byteEntries d a bs, a ≤ e.1 ∧ e.1 < a + bs.length := by
  induction bs generalizing a with
  | nil => simp [byteEntries]
  | cons b bs ih =>
    intro e he
    simp only [byteEntries] at he
    have ih := ih (a + 1) e
    split at he
    · have := ih he; simp; omega
    · rcases List.mem_cons.mp he with rfl | he
      · simp
      · have := ih he; simp; omega

theorem byteEntries_wf (d : Byte) (bs : List Byte) (a : Nat) : Sparse.wf d (byteEntries d a bs) = true := by
  induction bs generalizing a with
  | nil => rfl
  | cons b bs ih =>
    simp only [byteEntries]
    split
    · exact ih _
    · exact (Sparse.wf_cons ..).mpr ⟨by assumption, fun x hx => by have := byteEntries_keys d bs (a + 1) x hx; show a < x.1; omega, ih _⟩

/-- Two maps, every key of the first below every key of the second. -/
theorem wf_append {α : Type} [DecidableEq α] (d : α) (m n : List (Nat × α)) (hm : Sparse.wf d m = true) (hn : Sparse.wf d n = true)
    (h : ∀ x ∈ m, ∀ y ∈ n, x.1 < y.1) : Sparse.wf d (m ++ n) = true := by
  rw [Sparse.wf_iff] at *
  refine ⟨fun e he => ?_, List.pairwise_append.mpr ⟨hm.2, hn.2, h⟩⟩
  rcases List.mem_append.mp he with he | he
  · exact hm.1 e he
  · exact hn.1 e he

/-- Bytes written keep the canonical form. -/
theorem bytesPut_wf (d : Byte) (m : List (Nat × Byte)) (a : Nat) (bs : List Byte) (hm : Sparse.wf d m = true) :
    Sparse.wf d (bytesPut d m a bs) = true := by
  unfold bytesPut
  refine wf_append d _ _ (wf_append d _ _ (Sparse.wf_filter d m _ hm) (byteEntries_wf d bs a) ?_) (Sparse.wf_filter d m _ hm) ?_
  · intro x hx y hy
    have h1 := (List.mem_filter.mp hx).2
    have h2 := byteEntries_keys d bs a y hy
    simp at h1; omega
  · intro x hx y hy
    have h1 := (List.mem_filter.mp hy).2
    simp at h1
    rcases List.mem_append.mp hx with hx | hx
    · have h2 := (List.mem_filter.mp hx).2
      simp at h2; omega
    · have h2 := byteEntries_keys d bs a x hx; omega

theorem flashWrite_wf (f : List (Nat × Byte)) (a : Nat) (bs : List Byte) (hf : Sparse.wf 0xFF f = true) : Sparse.wf 0xFF (flashWrite f a bs) = true :=
  bytesPut_wf _ f a bs hf

theorem flashErase_wf (f : List (Nat × Byte)) (a n : Nat) (hf : Sparse.wf 0xFF f = true) : Sparse.wf 0xFF (flashErase f a n) = true :=
  Sparse.wf_filter _ f _ hf

theorem get_append {α : Type} (d : α) (m n : List (Nat × α)) (k : Nat) (h : ∀ e ∈ m, e.1 ≠ k) : Sparse.get d (m ++ n) k = Sparse.get d n k := by
  induction m with
  | nil => rfl
  | cons e m ih =>
    have he := h e (List.mem_cons_self ..)
    show Sparse.get d (e :: (m ++ n)) k = _
    simp only [Sparse.get]
    rw [if_neg (fun hk => he hk.symm), ih fun x hx => h x (List.mem_cons_of_mem _ hx)]

theorem get_append_left {α : Type} (d : α) (m n : List (Nat × α)) (k : Nat) (h : ∀ e ∈ n, e.1 ≠ k) : Sparse.get d (m ++ n) k = Sparse.get d m k := by
  induction m with
  | nil =>
    induction n with
    | nil => rfl
    | cons e n ih =>
      have he := h e (List.mem_cons_self ..)
      have := ih fun x hx => h x (List.mem_cons_of_mem _ hx)
      simp only [List.nil_append] at this ⊢
      simp only [Sparse.get]
      rw [if_neg (fun hk => he hk.symm), this]; rfl
  | cons e m ih =>
    show Sparse.get d (e :: (m ++ n)) k = _
    simp only [Sparse.get, ih]

theorem get_byteEntries (d : Byte) (bs : List Byte) (a k : Nat) :
    Sparse.get d (byteEntries d a bs) k = if a ≤ k ∧ k < a + bs.length then bs.getD (k - a) d else d := by
  induction bs generalizing a with
  | nil => simp only [byteEntries, Sparse.get, List.length_nil]; rw [if_neg (by omega)]
  | cons b bs ih =>
    have step : (if a + 1 ≤ k ∧ k < a + 1 + bs.length then bs.getD (k - (a + 1)) d else d) =
        if k = a then d else if a ≤ k ∧ k < a + (b :: bs).length then (b :: bs).getD (k - a) d else d := by
      by_cases hk : k = a
      · subst hk; rw [if_neg (by omega), if_pos rfl]
      · rw [if_neg hk]
        by_cases h : a + 1 ≤ k ∧ k < a + 1 + bs.length
        · rw [if_pos h, if_pos (by simp; omega)]
          obtain ⟨j, rfl⟩ : ∃ j, k = a + 1 + j := ⟨k - (a + 1), by omega⟩
          have e1 : a + 1 + j - (a + 1) = j := by omega
          have e2 : a + 1 + j - a = j + 1 := by omega
          rw [e1, e2, List.getD_cons_succ]
        · rw [if_neg h, if_neg (by simp; omega)]
    simp only [byteEntries]
    split
    · rename_i hb
      rw [ih, step]
      split
      · subst k; subst hb; rw [if_pos (by simp)]; simp
      · rfl
    · simp only [Sparse.get]
      split
      · subst k; rw [if_pos (by simp)]; simp
      · rw [ih, step, if_neg (by assumption)]

/-- What is read after bytes are written: those bytes in their range, and elsewhere what was there. -/
theorem get_bytesPut (d : Byte) (m : List (Nat × Byte)) (a : Nat) (bs : List Byte) (k : Nat) :
    Sparse.get d (bytesPut d m a bs) k = if a ≤ k ∧ k < a + bs.length then bs.getD (k - a) d else Sparse.get d m k := by
  have lo : Sparse.get d (m.filter fun e => decide (e.1 < a)) k = if k < a then Sparse.get d m k else d := by
    simpa using Sparse.get_filter d m (fun x => decide (x < a)) k
  have hi : Sparse.get d (m.filter fun e => decide (a + bs.length ≤ e.1)) k = if a + bs.length ≤ k then Sparse.get d m k else d := by
    simpa using Sparse.get_filter d m (fun x => decide (a + bs.length ≤ x)) k
  have klo : ∀ e ∈ m.filter (fun e => decide (e.1 < a)), e.1 < a := fun e he => by simpa using (List.mem_filter.mp he).2
  have khi : ∀ e ∈ m.filter (fun e => decide (a + bs.length ≤ e.1)), a + bs.length ≤ e.1 := fun e he => by simpa using (List.mem_filter.mp he).2
  have kmid := byteEntries_keys d bs a
  unfold bytesPut
  by_cases h1 : k < a
  · rw [get_append_left _ _ _ _ (fun e he => by have := khi e he; omega), get_append_left _ _ _ _ (fun e he => by have := kmid e he; omega), lo, if_pos h1,
      if_neg (by omega)]
  · by_cases h2 : k < a + bs.length
    · have h3 : a ≤ k ∧ k < a + bs.length := ⟨by omega, h2⟩
      rw [get_append_left _ _ _ _ (fun e he => by have := khi e he; omega), get_append _ _ _ _ (fun e he => by have := klo e he; omega), get_byteEntries,
        if_pos h3, if_pos h3]
    · rw [List.append_assoc, get_append _ _ _ _ (fun e he => by have := klo e he; omega), get_append _ _ _ _ (fun e he => by have := kmid e he; omega), hi,
        if_pos (by omega), if_neg (by omega)]

@[simp] theorem bytesFrom_nil (d : Byte) (a n : Nat) : bytesFrom d [] a n = List.replicate n d := by cases n <;> rfl

theorem bytesFrom_eq (d : Byte) (n : Nat) (m : List (Nat × Byte)) (a : Nat) (hm : Sparse.wf d m = true) (h : ∀ e ∈ m, a ≤ e.1) :
    bytesFrom d m a n = (List.range n).map fun i => Sparse.get d m (a + i) := by
  induction n generalizing m a with
  | zero => cases m <;> rfl
  | succ n ih =>
    cases m with
    | nil =>
      rw [bytesFrom_nil]
      apply List.ext_getElem <;> simp [Sparse.get]
    | cons e m =>
      obtain ⟨k, v⟩ := e
      have hw := (Sparse.wf_cons d _ m).mp hm
      have hk : a ≤ k := h (k, v) (List.mem_cons_self ..)
      rw [List.range_succ_eq_map]
      simp only [bytesFrom, List.map_cons, List.map_map, Nat.add_zero]
      split
      · subst k
        rw [ih m (a + 1) hw.2.2 (fun x hx => hw.2.1 x hx)]
        simp only [Sparse.get, if_true, List.cons.injEq, true_and]
        refine List.map_congr_left fun i _ => ?_
        simp only [Function.comp, Nat.succ_eq_add_one]
        rw [if_neg (by omega), Nat.add_right_comm, Nat.add_assoc]
      · rename_i hka
        rw [ih ((k, v) :: m) (a + 1) hm (fun x hx => by
          rcases List.mem_cons.mp hx with rfl | hx
          · show a + 1 ≤ k; omega
          · have := hw.2.1 x hx; simp at this; omega)]
        have h0 : Sparse.get d ((k, v) :: m) a = d := Sparse.get_of_lt d _ a fun x hx => by
          rcases List.mem_cons.mp hx with rfl | hx
          · show a < k; omega
          · have := hw.2.1 x hx; simp at this; omega
        rw [h0]
        congr 1
        refine List.map_congr_left fun i _ => ?_
        simp only [Function.comp, Nat.succ_eq_add_one]
        rw [Nat.add_right_comm, Nat.add_assoc]

theorem get_dropWhile {α : Type} (d : α) (m : List (Nat × α)) (a k : Nat) (h : a ≤ k) :
    Sparse.get d (m.dropWhile fun e => decide (e.1 < a)) k = Sparse.get d m k := by
  induction m with
  | nil => rfl
  | cons e m ih =>
    rw [List.dropWhile_cons]
    split
    · rename_i he
      simp at he
      rw [ih]
      simp only [Sparse.get]
      rw [if_neg (by omega)]
    · rfl

/-- A byte map in canonical form reads, byte by byte, as its keys say. -/
theorem bytesAt_eq (d : Byte) (m : List (Nat × Byte)) (a n : Nat) (hm : Sparse.wf d m = true) :
    bytesAt d m a n = (List.range n).map fun i => Sparse.get d m (a + i) := by
  unfold bytesAt
  have sub : (m.dropWhile fun e => decide (e.1 < a)).Sublist m := List.dropWhile_sublist _
  have hw : Sparse.wf d (m.dropWhile fun e => decide (e.1 < a)) = true := by
    rw [Sparse.wf_iff] at hm ⊢
    exact ⟨fun e he => hm.1 e (sub.subset he), hm.2.sublist sub⟩
  have hge : ∀ e ∈ m.dropWhile fun e => decide (e.1 < a), a ≤ e.1 := by
    clear hw sub
    induction m with
    | nil => simp
    | cons x m ih =>
      have hx := (Sparse.wf_cons d x m).mp hm
      rw [List.dropWhile_cons]
      split
      · exact ih hx.2.2
      · rename_i hna
        simp at hna
        intro e he
        rcases List.mem_cons.mp he with rfl | he
        · exact hna
        · have := hx.2.1 e he; omega
  rw [bytesFrom_eq d n _ a hw hge]
  exact List.map_congr_left fun i _ => get_dropWhile d m a (a + i) (Nat.le_add_right ..)

theorem bytesFrom_length (d : Byte) (m : List (Nat × Byte)) (a n : Nat) : (bytesFrom d m a n).length = n := by
  induction n generalizing m a with
  | zero => cases m <;> rfl
  | succ n ih =>
    cases m with
    | nil => simp
    | cons e m => simp only [bytesFrom]; split <;> simp [ih]

@[simp] theorem bytesAt_length (d : Byte) (m : List (Nat × Byte)) (a n : Nat) : (bytesAt d m a n).length = n := bytesFrom_length ..

/-- Bytes read back after they are written. -/
theorem bytesAt_bytesPut (d : Byte) (m : List (Nat × Byte)) (a : Nat) (bs : List Byte) (hm : Sparse.wf d m = true) :
    bytesAt d (bytesPut d m a bs) a bs.length = bs := by
  rw [bytesAt_eq d _ a _ (bytesPut_wf d m a bs hm)]
  apply List.ext_getElem
  · simp
  · intro i h1 h2
    simp only [List.getElem_map, List.getElem_range]
    rw [get_bytesPut, if_pos ⟨Nat.le_add_right .., by omega⟩, Nat.add_sub_cancel_left, List.getD_eq_getElem?_getD, List.getElem?_eq_getElem h2, Option.getD_some]

/-! Memory. -/

theorem State.reset_mem_wf : Memory.wf State.reset.mem = true := rfl

theorem State.writeMem_wf (s : State) (a : Nat) (bs : List Byte) (h : Memory.wf s.mem = true) : Memory.wf (s.writeMem a bs).mem = true :=
  bytesPut_wf 0 s.mem a bs h

theorem State.writeAll_wf (s : State) (ws : List (Nat × List Byte)) (h : Memory.wf s.mem = true) : Memory.wf (s.writeAll ws).mem = true := by
  show Sparse.wf 0 (ws.foldl (fun m w => bytesPut 0 m w.1 w.2) s.mem) = true
  have : Sparse.wf 0 s.mem = true := h
  revert this
  generalize s.mem = m
  induction ws generalizing m with
  | nil => exact id
  | cons w ws ih => exact fun hm => ih _ (bytesPut_wf 0 m w.1 w.2 hm)

/-- Memory with entries taken out, as a reset or a lost store leaves it. -/
theorem Memory.wf_filter (m : List (Nat × Byte)) (p : Nat × Byte → Bool) (h : Memory.wf m = true) : Memory.wf (m.filter p) = true :=
  Sparse.wf_filter 0 m p h

theorem Core.write_ls_wf (c : Core) (a : Nat) (bs : List Byte) (h : Sparse.wf 0 c.ls = true) : Sparse.wf 0 (c.write a bs).ls = true :=
  bytesPut_wf 0 c.ls a bs h

/-- Every byte after a write: the bytes written, and elsewhere what was there. -/
theorem State.readMem_writeMem (s : State) (a : Nat) (bs : List Byte) (h : Memory.wf s.mem = true) : (s.writeMem a bs).readMem a bs.length = bs :=
  bytesAt_bytesPut 0 s.mem a bs h

theorem State.readMem_writeMem_ne (s : State) (a x n : Nat) (bs : List Byte) (h : Memory.wf s.mem = true) (hx : x + n ≤ a ∨ a + bs.length ≤ x) :
    (s.writeMem a bs).readMem x n = s.readMem x n := by
  show bytesAt 0 (bytesPut 0 s.mem a bs) x n = bytesAt 0 s.mem x n
  rw [bytesAt_eq 0 _ x n (bytesPut_wf 0 s.mem a bs h), bytesAt_eq 0 s.mem x n h]
  refine List.map_congr_left fun i hi => ?_
  have := List.mem_range.mp hi
  rw [get_bytesPut, if_neg (by omega)]

@[simp] theorem State.readMem_length (s : State) (a n : Nat) : (s.readMem a n).length = n := bytesAt_length ..

/-! Cores, clusters and register words of a state. -/

theorem State.core_setCore (s : State) (i j : Nat) (c : Core) (h : Sparse.wf Core.reset s.cores = true) :
    (s.setCore i c).core j = if j = i then c else s.core j := Sparse.get_set _ s.cores i j c h

theorem State.setCore_wf (s : State) (i : Nat) (c : Core) (h : Sparse.wf Core.reset s.cores = true) :
    Sparse.wf Core.reset (s.setCore i c).cores = true := Sparse.wf_set _ s.cores i c h

theorem State.cluster_setCluster (s : State) (i j : Nat) (c : ClusterSt) (h : Sparse.wf ⟨[], []⟩ s.clusters = true) :
    (s.setCluster i c).cluster j = if j = i then c else s.cluster j := Sparse.get_set _ s.clusters i j c h

theorem State.setCluster_wf (s : State) (i : Nat) (c : ClusterSt) (h : Sparse.wf ⟨[], []⟩ s.clusters = true) :
    Sparse.wf ⟨[], []⟩ (s.setCluster i c).clusters = true := Sparse.wf_set _ s.clusters i c h

theorem State.reg_setReg (s : State) (k j v : Nat) (h : regsWf s.regs = true) : (s.setReg k v).reg j = if j = k then v % 2 ^ 64 else s.reg j := by
  show (regGet (regSet s.regs k (BitVec.ofNat 64 v)) j).toNat = _
  rw [regGet_regSet _ _ _ _ h]
  split <;> simp [State.reg]

theorem State.reg_count (s : State) (k j n : Nat) (h : regsWf s.regs = true) :
    (s.count k n).reg j = if j = k then (s.reg k + n) % 2 ^ 64 else s.reg j := by
  show (regGet (regAdd s.regs k n) j).toNat = _
  rw [regGet_regAdd _ _ _ _ h]
  split <;> simp [State.reg, BitVec.toNat_add]

end Machine

end Sys2Proof
end

