-- ==== Sys2Proof/Laws/State.lean ====
section
/-! SUPPORT. Sys2Proof/Laws/State.lean: what each named update of State leaves in each field, so that no proof unfolds a record update. -/

namespace Sys2Proof.Machine

open Sys2Proof

/-! setReg -/

@[simp] theorem State.setReg_part (s : State) (key v : Nat) : (s.setReg key v).part = s.part := rfl
@[simp] theorem State.setReg_pins (s : State) (key v : Nat) : (s.setReg key v).pins = s.pins := rfl
@[simp] theorem State.setReg_readings (s : State) (key v : Nat) : (s.setReg key v).readings = s.readings := rfl
@[simp] theorem State.setReg_smb (s : State) (key v : Nat) : (s.setReg key v).smb = s.smb := rfl
@[simp] theorem State.setReg_tap (s : State) (key v : Nat) : (s.setReg key v).tap = s.tap := rfl
@[simp] theorem State.setReg_counter (s : State) (key v : Nat) : (s.setReg key v).counter = s.counter := rfl
@[simp] theorem State.setReg_wall (s : State) (key v : Nat) : (s.setReg key v).wall = s.wall := rfl
@[simp] theorem State.setReg_boot (s : State) (key v : Nat) : (s.setReg key v).boot = s.boot := rfl
@[simp] theorem State.setReg_flash0 (s : State) (key v : Nat) : (s.setReg key v).flash0 = s.flash0 := rfl
@[simp] theorem State.setReg_flash1 (s : State) (key v : Nat) : (s.setReg key v).flash1 = s.flash1 := rfl
@[simp] theorem State.setReg_regs (s : State) (key v : Nat) : (s.setReg key v).regs = regSet s.regs key (BitVec.ofNat 64 v) := rfl
@[simp] theorem State.setReg_tansy (s : State) (key v : Nat) : (s.setReg key v).tansy = s.tansy := rfl
@[simp] theorem State.setReg_jnl (s : State) (key v : Nat) : (s.setReg key v).jnl = s.jnl := rfl
@[simp] theorem State.setReg_mgmt (s : State) (key v : Nat) : (s.setReg key v).mgmt = s.mgmt := rfl
@[simp] theorem State.setReg_eth (s : State) (key v : Nat) : (s.setReg key v).eth = s.eth := rfl
@[simp] theorem State.setReg_cmp (s : State) (key v : Nat) : (s.setReg key v).cmp = s.cmp := rfl
@[simp] theorem State.setReg_parts (s : State) (key v : Nat) : (s.setReg key v).parts = s.parts := rfl
@[simp] theorem State.setReg_step (s : State) (key v : Nat) : (s.setReg key v).step = s.step := rfl
@[simp] theorem State.setReg_filler (s : State) (key v : Nat) : (s.setReg key v).filler = s.filler := rfl
@[simp] theorem State.setReg_deferred (s : State) (key v : Nat) : (s.setReg key v).deferred = s.deferred := rfl
@[simp] theorem State.setReg_cores (s : State) (key v : Nat) : (s.setReg key v).cores = s.cores := rfl
@[simp] theorem State.setReg_clusters (s : State) (key v : Nat) : (s.setReg key v).clusters = s.clusters := rfl
@[simp] theorem State.setReg_mem (s : State) (key v : Nat) : (s.setReg key v).mem = s.mem := rfl
@[simp] theorem State.setReg_keep (s : State) (key v : Nat) : (s.setReg key v).keep = s.keep := rfl
@[simp] theorem State.setReg_vetch (s : State) (key v : Nat) : (s.setReg key v).vetch = s.vetch := rfl
@[simp] theorem State.setReg_xpr (s : State) (key v : Nat) : (s.setReg key v).xpr = s.xpr := rfl
@[simp] theorem State.setReg_bnt (s : State) (key v : Nat) : (s.setReg key v).bnt = s.bnt := rfl
@[simp] theorem State.setReg_links (s : State) (key v : Nat) : (s.setReg key v).links = s.links := rfl
@[simp] theorem State.setReg_power (s : State) (key v : Nat) : (s.setReg key v).power = s.power := rfl
@[simp] theorem State.setReg_lif (s : State) (key v : Nat) : (s.setReg key v).lif = s.lif := rfl
@[simp] theorem State.setReg_fp (s : State) (key v : Nat) : (s.setReg key v).fp = s.fp := rfl
@[simp] theorem State.setReg_fpInput (s : State) (key v : Nat) : (s.setReg key v).fpInput = s.fpInput := rfl
@[simp] theorem State.setReg_sec (s : State) (key v : Nat) : (s.setReg key v).sec = s.sec := rfl
@[simp] theorem State.setReg_upd (s : State) (key v : Nat) : (s.setReg key v).upd = s.upd := rfl
@[simp] theorem State.setReg_out (s : State) (key v : Nat) : (s.setReg key v).out = s.out := rfl
@[simp] theorem State.setReg_freeCtr (s : State) (key v : Nat) : (s.setReg key v).freeCtr = s.freeCtr := rfl
@[simp] theorem State.setReg_pending (s : State) (key v : Nat) : (s.setReg key v).pending = s.pending := rfl

/-! count -/

@[simp] theorem State.count_part (s : State) (key n : Nat) : (s.count key n).part = s.part := rfl
@[simp] theorem State.count_pins (s : State) (key n : Nat) : (s.count key n).pins = s.pins := rfl
@[simp] theorem State.count_readings (s : State) (key n : Nat) : (s.count key n).readings = s.readings := rfl
@[simp] theorem State.count_smb (s : State) (key n : Nat) : (s.count key n).smb = s.smb := rfl
@[simp] theorem State.count_tap (s : State) (key n : Nat) : (s.count key n).tap = s.tap := rfl
@[simp] theorem State.count_counter (s : State) (key n : Nat) : (s.count key n).counter = s.counter := rfl
@[simp] theorem State.count_wall (s : State) (key n : Nat) : (s.count key n).wall = s.wall := rfl
@[simp] theorem State.count_boot (s : State) (key n : Nat) : (s.count key n).boot = s.boot := rfl
@[simp] theorem State.count_flash0 (s : State) (key n : Nat) : (s.count key n).flash0 = s.flash0 := rfl
@[simp] theorem State.count_flash1 (s : State) (key n : Nat) : (s.count key n).flash1 = s.flash1 := rfl
@[simp] theorem State.count_regs (s : State) (key n : Nat) : (s.count key n).regs = regAdd s.regs key n := rfl
@[simp] theorem State.count_tansy (s : State) (key n : Nat) : (s.count key n).tansy = s.tansy := rfl
@[simp] theorem State.count_jnl (s : State) (key n : Nat) : (s.count key n).jnl = s.jnl := rfl
@[simp] theorem State.count_mgmt (s : State) (key n : Nat) : (s.count key n).mgmt = s.mgmt := rfl
@[simp] theorem State.count_eth (s : State) (key n : Nat) : (s.count key n).eth = s.eth := rfl
@[simp] theorem State.count_cmp (s : State) (key n : Nat) : (s.count key n).cmp = s.cmp := rfl
@[simp] theorem State.count_parts (s : State) (key n : Nat) : (s.count key n).parts = s.parts := rfl
@[simp] theorem State.count_step (s : State) (key n : Nat) : (s.count key n).step = s.step := rfl
@[simp] theorem State.count_filler (s : State) (key n : Nat) : (s.count key n).filler = s.filler := rfl
@[simp] theorem State.count_deferred (s : State) (key n : Nat) : (s.count key n).deferred = s.deferred := rfl
@[simp] theorem State.count_cores (s : State) (key n : Nat) : (s.count key n).cores = s.cores := rfl
@[simp] theorem State.count_clusters (s : State) (key n : Nat) : (s.count key n).clusters = s.clusters := rfl
@[simp] theorem State.count_mem (s : State) (key n : Nat) : (s.count key n).mem = s.mem := rfl
@[simp] theorem State.count_keep (s : State) (key n : Nat) : (s.count key n).keep = s.keep := rfl
@[simp] theorem State.count_vetch (s : State) (key n : Nat) : (s.count key n).vetch = s.vetch := rfl
@[simp] theorem State.count_xpr (s : State) (key n : Nat) : (s.count key n).xpr = s.xpr := rfl
@[simp] theorem State.count_bnt (s : State) (key n : Nat) : (s.count key n).bnt = s.bnt := rfl
@[simp] theorem State.count_links (s : State) (key n : Nat) : (s.count key n).links = s.links := rfl
@[simp] theorem State.count_power (s : State) (key n : Nat) : (s.count key n).power = s.power := rfl
@[simp] theorem State.count_lif (s : State) (key n : Nat) : (s.count key n).lif = s.lif := rfl
@[simp] theorem State.count_fp (s : State) (key n : Nat) : (s.count key n).fp = s.fp := rfl
@[simp] theorem State.count_fpInput (s : State) (key n : Nat) : (s.count key n).fpInput = s.fpInput := rfl
@[simp] theorem State.count_sec (s : State) (key n : Nat) : (s.count key n).sec = s.sec := rfl
@[simp] theorem State.count_upd (s : State) (key n : Nat) : (s.count key n).upd = s.upd := rfl
@[simp] theorem State.count_out (s : State) (key n : Nat) : (s.count key n).out = s.out := rfl
@[simp] theorem State.count_freeCtr (s : State) (key n : Nat) : (s.count key n).freeCtr = s.freeCtr := rfl
@[simp] theorem State.count_pending (s : State) (key n : Nat) : (s.count key n).pending = s.pending := rfl

/-! at -/

@[simp] theorem State.at_part (s : State) (t : Nat) : (s.at t).part = s.part := rfl
@[simp] theorem State.at_pins (s : State) (t : Nat) : (s.at t).pins = s.pins := rfl
@[simp] theorem State.at_readings (s : State) (t : Nat) : (s.at t).readings = s.readings := rfl
@[simp] theorem State.at_smb (s : State) (t : Nat) : (s.at t).smb = s.smb := rfl
@[simp] theorem State.at_tap (s : State) (t : Nat) : (s.at t).tap = s.tap := rfl
@[simp] theorem State.at_counter (s : State) (t : Nat) : (s.at t).counter = max s.counter t := rfl
@[simp] theorem State.at_wall (s : State) (t : Nat) : (s.at t).wall = s.wall + (t - s.counter) := rfl
@[simp] theorem State.at_boot (s : State) (t : Nat) : (s.at t).boot = s.boot := rfl
@[simp] theorem State.at_flash0 (s : State) (t : Nat) : (s.at t).flash0 = s.flash0 := rfl
@[simp] theorem State.at_flash1 (s : State) (t : Nat) : (s.at t).flash1 = s.flash1 := rfl
@[simp] theorem State.at_regs (s : State) (t : Nat) : (s.at t).regs = s.regs := rfl
@[simp] theorem State.at_tansy (s : State) (t : Nat) : (s.at t).tansy = s.tansy := rfl
@[simp] theorem State.at_jnl (s : State) (t : Nat) : (s.at t).jnl = s.jnl := rfl
@[simp] theorem State.at_mgmt (s : State) (t : Nat) : (s.at t).mgmt = s.mgmt := rfl
@[simp] theorem State.at_eth (s : State) (t : Nat) : (s.at t).eth = s.eth := rfl
@[simp] theorem State.at_cmp (s : State) (t : Nat) : (s.at t).cmp = s.cmp := rfl
@[simp] theorem State.at_parts (s : State) (t : Nat) : (s.at t).parts = s.parts := rfl
@[simp] theorem State.at_step (s : State) (t : Nat) : (s.at t).step = s.step := rfl
@[simp] theorem State.at_filler (s : State) (t : Nat) : (s.at t).filler = s.filler := rfl
@[simp] theorem State.at_deferred (s : State) (t : Nat) : (s.at t).deferred = s.deferred := rfl
@[simp] theorem State.at_cores (s : State) (t : Nat) : (s.at t).cores = s.cores := rfl
@[simp] theorem State.at_clusters (s : State) (t : Nat) : (s.at t).clusters = s.clusters := rfl
@[simp] theorem State.at_mem (s : State) (t : Nat) : (s.at t).mem = s.mem := rfl
@[simp] theorem State.at_keep (s : State) (t : Nat) : (s.at t).keep = s.keep := rfl
@[simp] theorem State.at_vetch (s : State) (t : Nat) : (s.at t).vetch = s.vetch := rfl
@[simp] theorem State.at_xpr (s : State) (t : Nat) : (s.at t).xpr = s.xpr := rfl
@[simp] theorem State.at_bnt (s : State) (t : Nat) : (s.at t).bnt = s.bnt := rfl
@[simp] theorem State.at_links (s : State) (t : Nat) : (s.at t).links = s.links := rfl
@[simp] theorem State.at_power (s : State) (t : Nat) : (s.at t).power = s.power := rfl
@[simp] theorem State.at_lif (s : State) (t : Nat) : (s.at t).lif = s.lif := rfl
@[simp] theorem State.at_fp (s : State) (t : Nat) : (s.at t).fp = s.fp := rfl
@[simp] theorem State.at_fpInput (s : State) (t : Nat) : (s.at t).fpInput = s.fpInput := rfl
@[simp] theorem State.at_sec (s : State) (t : Nat) : (s.at t).sec = s.sec := rfl
@[simp] theorem State.at_upd (s : State) (t : Nat) : (s.at t).upd = s.upd := rfl
@[simp] theorem State.at_out (s : State) (t : Nat) : (s.at t).out = s.out := rfl
@[simp] theorem State.at_freeCtr (s : State) (t : Nat) : (s.at t).freeCtr = s.freeCtr := rfl
@[simp] theorem State.at_pending (s : State) (t : Nat) : (s.at t).pending = s.pending := rfl

/-! atWall -/

@[simp] theorem State.atWall_part (s : State) (t : Nat) : (s.atWall t).part = s.part := rfl
@[simp] theorem State.atWall_pins (s : State) (t : Nat) : (s.atWall t).pins = s.pins := rfl
@[simp] theorem State.atWall_readings (s : State) (t : Nat) : (s.atWall t).readings = s.readings := rfl
@[simp] theorem State.atWall_smb (s : State) (t : Nat) : (s.atWall t).smb = s.smb := rfl
@[simp] theorem State.atWall_tap (s : State) (t : Nat) : (s.atWall t).tap = s.tap := rfl
@[simp] theorem State.atWall_counter (s : State) (t : Nat) : (s.atWall t).counter = s.counter + (t - s.wall) := rfl
@[simp] theorem State.atWall_wall (s : State) (t : Nat) : (s.atWall t).wall = max s.wall t := rfl
@[simp] theorem State.atWall_boot (s : State) (t : Nat) : (s.atWall t).boot = s.boot := rfl
@[simp] theorem State.atWall_flash0 (s : State) (t : Nat) : (s.atWall t).flash0 = s.flash0 := rfl
@[simp] theorem State.atWall_flash1 (s : State) (t : Nat) : (s.atWall t).flash1 = s.flash1 := rfl
@[simp] theorem State.atWall_regs (s : State) (t : Nat) : (s.atWall t).regs = s.regs := rfl
@[simp] theorem State.atWall_tansy (s : State) (t : Nat) : (s.atWall t).tansy = s.tansy := rfl
@[simp] theorem State.atWall_jnl (s : State) (t : Nat) : (s.atWall t).jnl = s.jnl := rfl
@[simp] theorem State.atWall_mgmt (s : State) (t : Nat) : (s.atWall t).mgmt = s.mgmt := rfl
@[simp] theorem State.atWall_eth (s : State) (t : Nat) : (s.atWall t).eth = s.eth := rfl
@[simp] theorem State.atWall_cmp (s : State) (t : Nat) : (s.atWall t).cmp = s.cmp := rfl
@[simp] theorem State.atWall_parts (s : State) (t : Nat) : (s.atWall t).parts = s.parts := rfl
@[simp] theorem State.atWall_step (s : State) (t : Nat) : (s.atWall t).step = s.step := rfl
@[simp] theorem State.atWall_filler (s : State) (t : Nat) : (s.atWall t).filler = s.filler := rfl
@[simp] theorem State.atWall_deferred (s : State) (t : Nat) : (s.atWall t).deferred = s.deferred := rfl
@[simp] theorem State.atWall_cores (s : State) (t : Nat) : (s.atWall t).cores = s.cores := rfl
@[simp] theorem State.atWall_clusters (s : State) (t : Nat) : (s.atWall t).clusters = s.clusters := rfl
@[simp] theorem State.atWall_mem (s : State) (t : Nat) : (s.atWall t).mem = s.mem := rfl
@[simp] theorem State.atWall_keep (s : State) (t : Nat) : (s.atWall t).keep = s.keep := rfl
@[simp] theorem State.atWall_vetch (s : State) (t : Nat) : (s.atWall t).vetch = s.vetch := rfl
@[simp] theorem State.atWall_xpr (s : State) (t : Nat) : (s.atWall t).xpr = s.xpr := rfl
@[simp] theorem State.atWall_bnt (s : State) (t : Nat) : (s.atWall t).bnt = s.bnt := rfl
@[simp] theorem State.atWall_links (s : State) (t : Nat) : (s.atWall t).links = s.links := rfl
@[simp] theorem State.atWall_power (s : State) (t : Nat) : (s.atWall t).power = s.power := rfl
@[simp] theorem State.atWall_lif (s : State) (t : Nat) : (s.atWall t).lif = s.lif := rfl
@[simp] theorem State.atWall_fp (s : State) (t : Nat) : (s.atWall t).fp = s.fp := rfl
@[simp] theorem State.atWall_fpInput (s : State) (t : Nat) : (s.atWall t).fpInput = s.fpInput := rfl
@[simp] theorem State.atWall_sec (s : State) (t : Nat) : (s.atWall t).sec = s.sec := rfl
@[simp] theorem State.atWall_upd (s : State) (t : Nat) : (s.atWall t).upd = s.upd := rfl
@[simp] theorem State.atWall_out (s : State) (t : Nat) : (s.atWall t).out = s.out := rfl
@[simp] theorem State.atWall_freeCtr (s : State) (t : Nat) : (s.atWall t).freeCtr = s.freeCtr := rfl
@[simp] theorem State.atWall_pending (s : State) (t : Nat) : (s.atWall t).pending = s.pending := rfl

/-! idle -/

@[simp] theorem State.idle_part (s : State) : s.idle.part = s.part := rfl
@[simp] theorem State.idle_pins (s : State) : s.idle.pins = s.pins := rfl
@[simp] theorem State.idle_readings (s : State) : s.idle.readings = s.readings := rfl
@[simp] theorem State.idle_smb (s : State) : s.idle.smb = s.smb := rfl
@[simp] theorem State.idle_tap (s : State) : s.idle.tap = s.tap := rfl
@[simp] theorem State.idle_counter (s : State) : s.idle.counter = s.counter + 1 := rfl
@[simp] theorem State.idle_wall (s : State) : s.idle.wall = s.wall + 1 := rfl
@[simp] theorem State.idle_boot (s : State) : s.idle.boot = s.boot := rfl
@[simp] theorem State.idle_flash0 (s : State) : s.idle.flash0 = s.flash0 := rfl
@[simp] theorem State.idle_flash1 (s : State) : s.idle.flash1 = s.flash1 := rfl
@[simp] theorem State.idle_tansy (s : State) : s.idle.tansy = s.tansy := rfl
@[simp] theorem State.idle_jnl (s : State) : s.idle.jnl = s.jnl := rfl
@[simp] theorem State.idle_mgmt (s : State) : s.idle.mgmt = s.mgmt := rfl
@[simp] theorem State.idle_cmp (s : State) : s.idle.cmp = s.cmp := rfl
@[simp] theorem State.idle_parts (s : State) : s.idle.parts = s.parts := rfl
@[simp] theorem State.idle_step (s : State) : s.idle.step = s.step := rfl
@[simp] theorem State.idle_filler (s : State) : s.idle.filler = s.filler := rfl
@[simp] theorem State.idle_deferred (s : State) : s.idle.deferred = s.deferred := rfl
@[simp] theorem State.idle_cores (s : State) : s.idle.cores = s.cores := rfl
@[simp] theorem State.idle_clusters (s : State) : s.idle.clusters = s.clusters := rfl
@[simp] theorem State.idle_mem (s : State) : s.idle.mem = s.mem := rfl
@[simp] theorem State.idle_keep (s : State) : s.idle.keep = s.keep := rfl
@[simp] theorem State.idle_vetch (s : State) : s.idle.vetch = s.vetch := rfl
@[simp] theorem State.idle_xpr (s : State) : s.idle.xpr = s.xpr := rfl
@[simp] theorem State.idle_bnt (s : State) : s.idle.bnt = s.bnt := rfl
@[simp] theorem State.idle_links (s : State) : s.idle.links = s.links := rfl
@[simp] theorem State.idle_power (s : State) : s.idle.power = s.power := rfl
@[simp] theorem State.idle_lif (s : State) : s.idle.lif = s.lif := rfl
@[simp] theorem State.idle_fp (s : State) : s.idle.fp = s.fp := rfl
@[simp] theorem State.idle_fpInput (s : State) : s.idle.fpInput = s.fpInput := rfl
@[simp] theorem State.idle_sec (s : State) : s.idle.sec = s.sec := rfl
@[simp] theorem State.idle_upd (s : State) : s.idle.upd = s.upd := rfl
@[simp] theorem State.idle_freeCtr (s : State) : s.idle.freeCtr = s.freeCtr := rfl
@[simp] theorem State.idle_pending (s : State) : s.idle.pending = s.pending := rfl

/-! drew -/

@[simp] theorem State.drew_part (s : State) (n : Nat) : (s.drew n).part = s.part := rfl
@[simp] theorem State.drew_pins (s : State) (n : Nat) : (s.drew n).pins = s.pins := rfl
@[simp] theorem State.drew_readings (s : State) (n : Nat) : (s.drew n).readings = s.readings := rfl
@[simp] theorem State.drew_smb (s : State) (n : Nat) : (s.drew n).smb = s.smb := rfl
@[simp] theorem State.drew_tap (s : State) (n : Nat) : (s.drew n).tap = s.tap := rfl
@[simp] theorem State.drew_counter (s : State) (n : Nat) : (s.drew n).counter = s.counter := rfl
@[simp] theorem State.drew_wall (s : State) (n : Nat) : (s.drew n).wall = s.wall := rfl
@[simp] theorem State.drew_boot (s : State) (n : Nat) : (s.drew n).boot = s.boot := rfl
@[simp] theorem State.drew_flash0 (s : State) (n : Nat) : (s.drew n).flash0 = s.flash0 := rfl
@[simp] theorem State.drew_flash1 (s : State) (n : Nat) : (s.drew n).flash1 = s.flash1 := rfl
@[simp] theorem State.drew_regs (s : State) (n : Nat) : (s.drew n).regs = s.regs := rfl
@[simp] theorem State.drew_tansy (s : State) (n : Nat) : (s.drew n).tansy = s.tansy := rfl
@[simp] theorem State.drew_jnl (s : State) (n : Nat) : (s.drew n).jnl = s.jnl := rfl
@[simp] theorem State.drew_mgmt (s : State) (n : Nat) : (s.drew n).mgmt = s.mgmt := rfl
@[simp] theorem State.drew_eth (s : State) (n : Nat) : (s.drew n).eth = s.eth := rfl
@[simp] theorem State.drew_cmp (s : State) (n : Nat) : (s.drew n).cmp = s.cmp := rfl
@[simp] theorem State.drew_parts (s : State) (n : Nat) : (s.drew n).parts = s.parts := rfl
@[simp] theorem State.drew_step (s : State) (n : Nat) : (s.drew n).step = s.step := rfl
@[simp] theorem State.drew_filler (s : State) (n : Nat) : (s.drew n).filler = s.filler := rfl
@[simp] theorem State.drew_deferred (s : State) (n : Nat) : (s.drew n).deferred = s.deferred := rfl
@[simp] theorem State.drew_cores (s : State) (n : Nat) : (s.drew n).cores = s.cores := rfl
@[simp] theorem State.drew_clusters (s : State) (n : Nat) : (s.drew n).clusters = s.clusters := rfl
@[simp] theorem State.drew_mem (s : State) (n : Nat) : (s.drew n).mem = s.mem := rfl
@[simp] theorem State.drew_keep (s : State) (n : Nat) : (s.drew n).keep = s.keep := rfl
@[simp] theorem State.drew_vetch (s : State) (n : Nat) : (s.drew n).vetch = s.vetch := rfl
@[simp] theorem State.drew_xpr (s : State) (n : Nat) : (s.drew n).xpr = s.xpr := rfl
@[simp] theorem State.drew_bnt (s : State) (n : Nat) : (s.drew n).bnt = s.bnt := rfl
@[simp] theorem State.drew_links (s : State) (n : Nat) : (s.drew n).links = s.links := rfl
@[simp] theorem State.drew_power (s : State) (n : Nat) : (s.drew n).power = s.power := rfl
@[simp] theorem State.drew_lif (s : State) (n : Nat) : (s.drew n).lif = s.lif := rfl
@[simp] theorem State.drew_fp (s : State) (n : Nat) : (s.drew n).fp = s.fp := rfl
@[simp] theorem State.drew_fpInput (s : State) (n : Nat) : (s.drew n).fpInput = s.fpInput := rfl
@[simp] theorem State.drew_sec (s : State) (n : Nat) : (s.drew n).sec = s.sec := rfl
@[simp] theorem State.drew_upd (s : State) (n : Nat) : (s.drew n).upd = s.upd := rfl
@[simp] theorem State.drew_out (s : State) (n : Nat) : (s.drew n).out = s.out := rfl
@[simp] theorem State.drew_freeCtr (s : State) (n : Nat) : (s.drew n).freeCtr = s.freeCtr + n := rfl
@[simp] theorem State.drew_pending (s : State) (n : Nat) : (s.drew n).pending = s.pending := rfl

/-! setTansy -/

@[simp] theorem State.setTansy_part (s : State) (o : TansyOut) : (s.setTansy o).part = s.part := rfl
@[simp] theorem State.setTansy_pins (s : State) (o : TansyOut) : (s.setTansy o).pins = s.pins := rfl
@[simp] theorem State.setTansy_readings (s : State) (o : TansyOut) : (s.setTansy o).readings = s.readings := rfl
@[simp] theorem State.setTansy_smb (s : State) (o : TansyOut) : (s.setTansy o).smb = s.smb := rfl
@[simp] theorem State.setTansy_tap (s : State) (o : TansyOut) : (s.setTansy o).tap = s.tap := rfl
@[simp] theorem State.setTansy_counter (s : State) (o : TansyOut) : (s.setTansy o).counter = s.counter := rfl
@[simp] theorem State.setTansy_wall (s : State) (o : TansyOut) : (s.setTansy o).wall = s.wall := rfl
@[simp] theorem State.setTansy_boot (s : State) (o : TansyOut) : (s.setTansy o).boot = s.boot := rfl
@[simp] theorem State.setTansy_flash0 (s : State) (o : TansyOut) : (s.setTansy o).flash0 = o.flash := rfl
@[simp] theorem State.setTansy_flash1 (s : State) (o : TansyOut) : (s.setTansy o).flash1 = s.flash1 := rfl
@[simp] theorem State.setTansy_regs (s : State) (o : TansyOut) : (s.setTansy o).regs = o.regs := rfl
@[simp] theorem State.setTansy_tansy (s : State) (o : TansyOut) : (s.setTansy o).tansy = o.tansy := rfl
@[simp] theorem State.setTansy_jnl (s : State) (o : TansyOut) : (s.setTansy o).jnl = s.jnl := rfl
@[simp] theorem State.setTansy_mgmt (s : State) (o : TansyOut) : (s.setTansy o).mgmt = s.mgmt := rfl
@[simp] theorem State.setTansy_eth (s : State) (o : TansyOut) : (s.setTansy o).eth = s.eth := rfl
@[simp] theorem State.setTansy_cmp (s : State) (o : TansyOut) : (s.setTansy o).cmp = s.cmp := rfl
@[simp] theorem State.setTansy_parts (s : State) (o : TansyOut) : (s.setTansy o).parts = s.parts := rfl
@[simp] theorem State.setTansy_step (s : State) (o : TansyOut) : (s.setTansy o).step = s.step := rfl
@[simp] theorem State.setTansy_filler (s : State) (o : TansyOut) : (s.setTansy o).filler = s.filler := rfl
@[simp] theorem State.setTansy_deferred (s : State) (o : TansyOut) : (s.setTansy o).deferred = s.deferred := rfl
@[simp] theorem State.setTansy_cores (s : State) (o : TansyOut) : (s.setTansy o).cores = s.cores := rfl
@[simp] theorem State.setTansy_clusters (s : State) (o : TansyOut) : (s.setTansy o).clusters = s.clusters := rfl
@[simp] theorem State.setTansy_mem (s : State) (o : TansyOut) : (s.setTansy o).mem = s.mem := rfl
@[simp] theorem State.setTansy_keep (s : State) (o : TansyOut) : (s.setTansy o).keep = s.keep := rfl
@[simp] theorem State.setTansy_vetch (s : State) (o : TansyOut) : (s.setTansy o).vetch = s.vetch := rfl
@[simp] theorem State.setTansy_xpr (s : State) (o : TansyOut) : (s.setTansy o).xpr = s.xpr := rfl
@[simp] theorem State.setTansy_bnt (s : State) (o : TansyOut) : (s.setTansy o).bnt = s.bnt := rfl
@[simp] theorem State.setTansy_links (s : State) (o : TansyOut) : (s.setTansy o).links = s.links := rfl
@[simp] theorem State.setTansy_power (s : State) (o : TansyOut) : (s.setTansy o).power = s.power := rfl
@[simp] theorem State.setTansy_lif (s : State) (o : TansyOut) : (s.setTansy o).lif = s.lif := rfl
@[simp] theorem State.setTansy_fp (s : State) (o : TansyOut) : (s.setTansy o).fp = s.fp := rfl
@[simp] theorem State.setTansy_fpInput (s : State) (o : TansyOut) : (s.setTansy o).fpInput = s.fpInput := rfl
@[simp] theorem State.setTansy_sec (s : State) (o : TansyOut) : (s.setTansy o).sec = s.sec := rfl
@[simp] theorem State.setTansy_upd (s : State) (o : TansyOut) : (s.setTansy o).upd = s.upd := rfl
@[simp] theorem State.setTansy_out (s : State) (o : TansyOut) : (s.setTansy o).out = s.out := rfl
@[simp] theorem State.setTansy_freeCtr (s : State) (o : TansyOut) : (s.setTansy o).freeCtr = s.freeCtr := rfl
@[simp] theorem State.setTansy_pending (s : State) (o : TansyOut) : (s.setTansy o).pending = s.pending := rfl

/-! writeMem -/

@[simp] theorem State.writeMem_part (s : State) (a : Nat) (bs : List Byte) : (s.writeMem a bs).part = s.part := rfl
@[simp] theorem State.writeMem_pins (s : State) (a : Nat) (bs : List Byte) : (s.writeMem a bs).pins = s.pins := rfl
@[simp] theorem State.writeMem_readings (s : State) (a : Nat) (bs : List Byte) : (s.writeMem a bs).readings = s.readings := rfl
@[simp] theorem State.writeMem_smb (s : State) (a : Nat) (bs : List Byte) : (s.writeMem a bs).smb = s.smb := rfl
@[simp] theorem State.writeMem_tap (s : State) (a : Nat) (bs : List Byte) : (s.writeMem a bs).tap = s.tap := rfl
@[simp] theorem State.writeMem_counter (s : State) (a : Nat) (bs : List Byte) : (s.writeMem a bs).counter = s.counter := rfl
@[simp] theorem State.writeMem_wall (s : State) (a : Nat) (bs : List Byte) : (s.writeMem a bs).wall = s.wall := rfl
@[simp] theorem State.writeMem_boot (s : State) (a : Nat) (bs : List Byte) : (s.writeMem a bs).boot = s.boot := rfl
@[simp] theorem State.writeMem_flash0 (s : State) (a : Nat) (bs : List Byte) : (s.writeMem a bs).flash0 = s.flash0 := rfl
@[simp] theorem State.writeMem_flash1 (s : State) (a : Nat) (bs : List Byte) : (s.writeMem a bs).flash1 = s.flash1 := rfl
@[simp] theorem State.writeMem_regs (s : State) (a : Nat) (bs : List Byte) : (s.writeMem a bs).regs = s.regs := rfl
@[simp] theorem State.writeMem_tansy (s : State) (a : Nat) (bs : List Byte) : (s.writeMem a bs).tansy = s.tansy := rfl
@[simp] theorem State.writeMem_jnl (s : State) (a : Nat) (bs : List Byte) : (s.writeMem a bs).jnl = s.jnl := rfl
@[simp] theorem State.writeMem_mgmt (s : State) (a : Nat) (bs : List Byte) : (s.writeMem a bs).mgmt = s.mgmt := rfl
@[simp] theorem State.writeMem_eth (s : State) (a : Nat) (bs : List Byte) : (s.writeMem a bs).eth = s.eth := rfl
@[simp] theorem State.writeMem_cmp (s : State) (a : Nat) (bs : List Byte) : (s.writeMem a bs).cmp = s.cmp := rfl
@[simp] theorem State.writeMem_parts (s : State) (a : Nat) (bs : List Byte) : (s.writeMem a bs).parts = s.parts := rfl
@[simp] theorem State.writeMem_step (s : State) (a : Nat) (bs : List Byte) : (s.writeMem a bs).step = s.step := rfl
@[simp] theorem State.writeMem_filler (s : State) (a : Nat) (bs : List Byte) : (s.writeMem a bs).filler = s.filler := rfl
@[simp] theorem State.writeMem_deferred (s : State) (a : Nat) (bs : List Byte) : (s.writeMem a bs).deferred = s.deferred := rfl
@[simp] theorem State.writeMem_cores (s : State) (a : Nat) (bs : List Byte) : (s.writeMem a bs).cores = s.cores := rfl
@[simp] theorem State.writeMem_clusters (s : State) (a : Nat) (bs : List Byte) : (s.writeMem a bs).clusters = s.clusters := rfl
@[simp] theorem State.writeMem_mem (s : State) (a : Nat) (bs : List Byte) : (s.writeMem a bs).mem = bytesPut 0 s.mem a bs := rfl
@[simp] theorem State.writeMem_keep (s : State) (a : Nat) (bs : List Byte) : (s.writeMem a bs).keep = { s.keep with marks := clearMarks s.keep.marks a bs.length } := rfl
@[simp] theorem State.writeMem_vetch (s : State) (a : Nat) (bs : List Byte) : (s.writeMem a bs).vetch = s.vetch := rfl
@[simp] theorem State.writeMem_xpr (s : State) (a : Nat) (bs : List Byte) : (s.writeMem a bs).xpr = s.xpr := rfl
@[simp] theorem State.writeMem_bnt (s : State) (a : Nat) (bs : List Byte) : (s.writeMem a bs).bnt = s.bnt := rfl
@[simp] theorem State.writeMem_links (s : State) (a : Nat) (bs : List Byte) : (s.writeMem a bs).links = s.links := rfl
@[simp] theorem State.writeMem_power (s : State) (a : Nat) (bs : List Byte) : (s.writeMem a bs).power = s.power := rfl
@[simp] theorem State.writeMem_lif (s : State) (a : Nat) (bs : List Byte) : (s.writeMem a bs).lif = s.lif := rfl
@[simp] theorem State.writeMem_fp (s : State) (a : Nat) (bs : List Byte) : (s.writeMem a bs).fp = s.fp := rfl
@[simp] theorem State.writeMem_fpInput (s : State) (a : Nat) (bs : List Byte) : (s.writeMem a bs).fpInput = s.fpInput := rfl
@[simp] theorem State.writeMem_sec (s : State) (a : Nat) (bs : List Byte) : (s.writeMem a bs).sec = s.sec := rfl
@[simp] theorem State.writeMem_upd (s : State) (a : Nat) (bs : List Byte) : (s.writeMem a bs).upd = s.upd := rfl
@[simp] theorem State.writeMem_out (s : State) (a : Nat) (bs : List Byte) : (s.writeMem a bs).out = s.out := rfl
@[simp] theorem State.writeMem_freeCtr (s : State) (a : Nat) (bs : List Byte) : (s.writeMem a bs).freeCtr = s.freeCtr := rfl
@[simp] theorem State.writeMem_pending (s : State) (a : Nat) (bs : List Byte) : (s.writeMem a bs).pending = s.pending := rfl

/-! writeAll -/

@[simp] theorem State.writeAll_part (s : State) (ws : List (Nat × List Byte)) : (s.writeAll ws).part = s.part := rfl
@[simp] theorem State.writeAll_pins (s : State) (ws : List (Nat × List Byte)) : (s.writeAll ws).pins = s.pins := rfl
@[simp] theorem State.writeAll_readings (s : State) (ws : List (Nat × List Byte)) : (s.writeAll ws).readings = s.readings := rfl
@[simp] theorem State.writeAll_smb (s : State) (ws : List (Nat × List Byte)) : (s.writeAll ws).smb = s.smb := rfl
@[simp] theorem State.writeAll_tap (s : State) (ws : List (Nat × List Byte)) : (s.writeAll ws).tap = s.tap := rfl
@[simp] theorem State.writeAll_counter (s : State) (ws : List (Nat × List Byte)) : (s.writeAll ws).counter = s.counter := rfl
@[simp] theorem State.writeAll_wall (s : State) (ws : List (Nat × List Byte)) : (s.writeAll ws).wall = s.wall := rfl
@[simp] theorem State.writeAll_boot (s : State) (ws : List (Nat × List Byte)) : (s.writeAll ws).boot = s.boot := rfl
@[simp] theorem State.writeAll_flash0 (s : State) (ws : List (Nat × List Byte)) : (s.writeAll ws).flash0 = s.flash0 := rfl
@[simp] theorem State.writeAll_flash1 (s : State) (ws : List (Nat × List Byte)) : (s.writeAll ws).flash1 = s.flash1 := rfl
@[simp] theorem State.writeAll_regs (s : State) (ws : List (Nat × List Byte)) : (s.writeAll ws).regs = s.regs := rfl
@[simp] theorem State.writeAll_tansy (s : State) (ws : List (Nat × List Byte)) : (s.writeAll ws).tansy = s.tansy := rfl
@[simp] theorem State.writeAll_jnl (s : State) (ws : List (Nat × List Byte)) : (s.writeAll ws).jnl = s.jnl := rfl
@[simp] theorem State.writeAll_mgmt (s : State) (ws : List (Nat × List Byte)) : (s.writeAll ws).mgmt = s.mgmt := rfl
@[simp] theorem State.writeAll_eth (s : State) (ws : List (Nat × List Byte)) : (s.writeAll ws).eth = s.eth := rfl
@[simp] theorem State.writeAll_cmp (s : State) (ws : List (Nat × List Byte)) : (s.writeAll ws).cmp = s.cmp := rfl
@[simp] theorem State.writeAll_parts (s : State) (ws : List (Nat × List Byte)) : (s.writeAll ws).parts = s.parts := rfl
@[simp] theorem State.writeAll_step (s : State) (ws : List (Nat × List Byte)) : (s.writeAll ws).step = s.step := rfl
@[simp] theorem State.writeAll_filler (s : State) (ws : List (Nat × List Byte)) : (s.writeAll ws).filler = s.filler := rfl
@[simp] theorem State.writeAll_deferred (s : State) (ws : List (Nat × List Byte)) : (s.writeAll ws).deferred = s.deferred := rfl
@[simp] theorem State.writeAll_cores (s : State) (ws : List (Nat × List Byte)) : (s.writeAll ws).cores = s.cores := rfl
@[simp] theorem State.writeAll_clusters (s : State) (ws : List (Nat × List Byte)) : (s.writeAll ws).clusters = s.clusters := rfl
@[simp] theorem State.writeAll_mem (s : State) (ws : List (Nat × List Byte)) : (s.writeAll ws).mem = ws.foldl (fun m w => bytesPut 0 m w.1 w.2) s.mem := rfl
@[simp] theorem State.writeAll_keep (s : State) (ws : List (Nat × List Byte)) : (s.writeAll ws).keep = { s.keep with marks := ws.foldl (fun k w => clearMarks k w.1 w.2.length) s.keep.marks } := rfl
@[simp] theorem State.writeAll_vetch (s : State) (ws : List (Nat × List Byte)) : (s.writeAll ws).vetch = s.vetch := rfl
@[simp] theorem State.writeAll_xpr (s : State) (ws : List (Nat × List Byte)) : (s.writeAll ws).xpr = s.xpr := rfl
@[simp] theorem State.writeAll_bnt (s : State) (ws : List (Nat × List Byte)) : (s.writeAll ws).bnt = s.bnt := rfl
@[simp] theorem State.writeAll_links (s : State) (ws : List (Nat × List Byte)) : (s.writeAll ws).links = s.links := rfl
@[simp] theorem State.writeAll_power (s : State) (ws : List (Nat × List Byte)) : (s.writeAll ws).power = s.power := rfl
@[simp] theorem State.writeAll_lif (s : State) (ws : List (Nat × List Byte)) : (s.writeAll ws).lif = s.lif := rfl
@[simp] theorem State.writeAll_fp (s : State) (ws : List (Nat × List Byte)) : (s.writeAll ws).fp = s.fp := rfl
@[simp] theorem State.writeAll_fpInput (s : State) (ws : List (Nat × List Byte)) : (s.writeAll ws).fpInput = s.fpInput := rfl
@[simp] theorem State.writeAll_sec (s : State) (ws : List (Nat × List Byte)) : (s.writeAll ws).sec = s.sec := rfl
@[simp] theorem State.writeAll_upd (s : State) (ws : List (Nat × List Byte)) : (s.writeAll ws).upd = s.upd := rfl
@[simp] theorem State.writeAll_out (s : State) (ws : List (Nat × List Byte)) : (s.writeAll ws).out = s.out := rfl
@[simp] theorem State.writeAll_freeCtr (s : State) (ws : List (Nat × List Byte)) : (s.writeAll ws).freeCtr = s.freeCtr := rfl
@[simp] theorem State.writeAll_pending (s : State) (ws : List (Nat × List Byte)) : (s.writeAll ws).pending = s.pending := rfl

/-! mark -/

@[simp] theorem State.mark_part (s : State) (ws : List Nat) : (s.mark ws).part = s.part := rfl
@[simp] theorem State.mark_pins (s : State) (ws : List Nat) : (s.mark ws).pins = s.pins := rfl
@[simp] theorem State.mark_readings (s : State) (ws : List Nat) : (s.mark ws).readings = s.readings := rfl
@[simp] theorem State.mark_smb (s : State) (ws : List Nat) : (s.mark ws).smb = s.smb := rfl
@[simp] theorem State.mark_tap (s : State) (ws : List Nat) : (s.mark ws).tap = s.tap := rfl
@[simp] theorem State.mark_counter (s : State) (ws : List Nat) : (s.mark ws).counter = s.counter := rfl
@[simp] theorem State.mark_wall (s : State) (ws : List Nat) : (s.mark ws).wall = s.wall := rfl
@[simp] theorem State.mark_boot (s : State) (ws : List Nat) : (s.mark ws).boot = s.boot := rfl
@[simp] theorem State.mark_flash0 (s : State) (ws : List Nat) : (s.mark ws).flash0 = s.flash0 := rfl
@[simp] theorem State.mark_flash1 (s : State) (ws : List Nat) : (s.mark ws).flash1 = s.flash1 := rfl
@[simp] theorem State.mark_regs (s : State) (ws : List Nat) : (s.mark ws).regs = s.regs := rfl
@[simp] theorem State.mark_tansy (s : State) (ws : List Nat) : (s.mark ws).tansy = s.tansy := rfl
@[simp] theorem State.mark_jnl (s : State) (ws : List Nat) : (s.mark ws).jnl = s.jnl := rfl
@[simp] theorem State.mark_mgmt (s : State) (ws : List Nat) : (s.mark ws).mgmt = s.mgmt := rfl
@[simp] theorem State.mark_eth (s : State) (ws : List Nat) : (s.mark ws).eth = s.eth := rfl
@[simp] theorem State.mark_cmp (s : State) (ws : List Nat) : (s.mark ws).cmp = s.cmp := rfl
@[simp] theorem State.mark_parts (s : State) (ws : List Nat) : (s.mark ws).parts = s.parts := rfl
@[simp] theorem State.mark_step (s : State) (ws : List Nat) : (s.mark ws).step = s.step := rfl
@[simp] theorem State.mark_filler (s : State) (ws : List Nat) : (s.mark ws).filler = s.filler := rfl
@[simp] theorem State.mark_deferred (s : State) (ws : List Nat) : (s.mark ws).deferred = s.deferred := rfl
@[simp] theorem State.mark_cores (s : State) (ws : List Nat) : (s.mark ws).cores = s.cores := rfl
@[simp] theorem State.mark_clusters (s : State) (ws : List Nat) : (s.mark ws).clusters = s.clusters := rfl
@[simp] theorem State.mark_mem (s : State) (ws : List Nat) : (s.mark ws).mem = s.mem := rfl
@[simp] theorem State.mark_vetch (s : State) (ws : List Nat) : (s.mark ws).vetch = s.vetch := rfl
@[simp] theorem State.mark_xpr (s : State) (ws : List Nat) : (s.mark ws).xpr = s.xpr := rfl
@[simp] theorem State.mark_bnt (s : State) (ws : List Nat) : (s.mark ws).bnt = s.bnt := rfl
@[simp] theorem State.mark_links (s : State) (ws : List Nat) : (s.mark ws).links = s.links := rfl
@[simp] theorem State.mark_power (s : State) (ws : List Nat) : (s.mark ws).power = s.power := rfl
@[simp] theorem State.mark_lif (s : State) (ws : List Nat) : (s.mark ws).lif = s.lif := rfl
@[simp] theorem State.mark_fp (s : State) (ws : List Nat) : (s.mark ws).fp = s.fp := rfl
@[simp] theorem State.mark_fpInput (s : State) (ws : List Nat) : (s.mark ws).fpInput = s.fpInput := rfl
@[simp] theorem State.mark_sec (s : State) (ws : List Nat) : (s.mark ws).sec = s.sec := rfl
@[simp] theorem State.mark_upd (s : State) (ws : List Nat) : (s.mark ws).upd = s.upd := rfl
@[simp] theorem State.mark_out (s : State) (ws : List Nat) : (s.mark ws).out = s.out := rfl
@[simp] theorem State.mark_freeCtr (s : State) (ws : List Nat) : (s.mark ws).freeCtr = s.freeCtr := rfl
@[simp] theorem State.mark_pending (s : State) (ws : List Nat) : (s.mark ws).pending = s.pending := rfl

/-! setCore -/

@[simp] theorem State.setCore_part (s : State) (i : Nat) (c : Core) : (s.setCore i c).part = s.part := rfl
@[simp] theorem State.setCore_pins (s : State) (i : Nat) (c : Core) : (s.setCore i c).pins = s.pins := rfl
@[simp] theorem State.setCore_readings (s : State) (i : Nat) (c : Core) : (s.setCore i c).readings = s.readings := rfl
@[simp] theorem State.setCore_smb (s : State) (i : Nat) (c : Core) : (s.setCore i c).smb = s.smb := rfl
@[simp] theorem State.setCore_tap (s : State) (i : Nat) (c : Core) : (s.setCore i c).tap = s.tap := rfl
@[simp] theorem State.setCore_counter (s : State) (i : Nat) (c : Core) : (s.setCore i c).counter = s.counter := rfl
@[simp] theorem State.setCore_wall (s : State) (i : Nat) (c : Core) : (s.setCore i c).wall = s.wall := rfl
@[simp] theorem State.setCore_boot (s : State) (i : Nat) (c : Core) : (s.setCore i c).boot = s.boot := rfl
@[simp] theorem State.setCore_flash0 (s : State) (i : Nat) (c : Core) : (s.setCore i c).flash0 = s.flash0 := rfl
@[simp] theorem State.setCore_flash1 (s : State) (i : Nat) (c : Core) : (s.setCore i c).flash1 = s.flash1 := rfl
@[simp] theorem State.setCore_regs (s : State) (i : Nat) (c : Core) : (s.setCore i c).regs = s.regs := rfl
@[simp] theorem State.setCore_tansy (s : State) (i : Nat) (c : Core) : (s.setCore i c).tansy = s.tansy := rfl
@[simp] theorem State.setCore_jnl (s : State) (i : Nat) (c : Core) : (s.setCore i c).jnl = s.jnl := rfl
@[simp] theorem State.setCore_mgmt (s : State) (i : Nat) (c : Core) : (s.setCore i c).mgmt = s.mgmt := rfl
@[simp] theorem State.setCore_eth (s : State) (i : Nat) (c : Core) : (s.setCore i c).eth = s.eth := rfl
@[simp] theorem State.setCore_cmp (s : State) (i : Nat) (c : Core) : (s.setCore i c).cmp = s.cmp := rfl
@[simp] theorem State.setCore_parts (s : State) (i : Nat) (c : Core) : (s.setCore i c).parts = s.parts := rfl
@[simp] theorem State.setCore_step (s : State) (i : Nat) (c : Core) : (s.setCore i c).step = s.step := rfl
@[simp] theorem State.setCore_filler (s : State) (i : Nat) (c : Core) : (s.setCore i c).filler = s.filler := rfl
@[simp] theorem State.setCore_deferred (s : State) (i : Nat) (c : Core) : (s.setCore i c).deferred = s.deferred := rfl
@[simp] theorem State.setCore_cores (s : State) (i : Nat) (c : Core) : (s.setCore i c).cores = Sparse.set Core.reset s.cores i c := rfl
@[simp] theorem State.setCore_clusters (s : State) (i : Nat) (c : Core) : (s.setCore i c).clusters = s.clusters := rfl
@[simp] theorem State.setCore_mem (s : State) (i : Nat) (c : Core) : (s.setCore i c).mem = s.mem := rfl
@[simp] theorem State.setCore_keep (s : State) (i : Nat) (c : Core) : (s.setCore i c).keep = s.keep := rfl
@[simp] theorem State.setCore_vetch (s : State) (i : Nat) (c : Core) : (s.setCore i c).vetch = s.vetch := rfl
@[simp] theorem State.setCore_xpr (s : State) (i : Nat) (c : Core) : (s.setCore i c).xpr = s.xpr := rfl
@[simp] theorem State.setCore_bnt (s : State) (i : Nat) (c : Core) : (s.setCore i c).bnt = s.bnt := rfl
@[simp] theorem State.setCore_links (s : State) (i : Nat) (c : Core) : (s.setCore i c).links = s.links := rfl
@[simp] theorem State.setCore_power (s : State) (i : Nat) (c : Core) : (s.setCore i c).power = s.power := rfl
@[simp] theorem State.setCore_lif (s : State) (i : Nat) (c : Core) : (s.setCore i c).lif = s.lif := rfl
@[simp] theorem State.setCore_fp (s : State) (i : Nat) (c : Core) : (s.setCore i c).fp = s.fp := rfl
@[simp] theorem State.setCore_fpInput (s : State) (i : Nat) (c : Core) : (s.setCore i c).fpInput = s.fpInput := rfl
@[simp] theorem State.setCore_sec (s : State) (i : Nat) (c : Core) : (s.setCore i c).sec = s.sec := rfl
@[simp] theorem State.setCore_upd (s : State) (i : Nat) (c : Core) : (s.setCore i c).upd = s.upd := rfl
@[simp] theorem State.setCore_out (s : State) (i : Nat) (c : Core) : (s.setCore i c).out = s.out := rfl
@[simp] theorem State.setCore_freeCtr (s : State) (i : Nat) (c : Core) : (s.setCore i c).freeCtr = s.freeCtr := rfl
@[simp] theorem State.setCore_pending (s : State) (i : Nat) (c : Core) : (s.setCore i c).pending = s.pending := rfl

/-! setCluster -/

@[simp] theorem State.setCluster_part (s : State) (i : Nat) (c : ClusterSt) : (s.setCluster i c).part = s.part := rfl
@[simp] theorem State.setCluster_pins (s : State) (i : Nat) (c : ClusterSt) : (s.setCluster i c).pins = s.pins := rfl
@[simp] theorem State.setCluster_readings (s : State) (i : Nat) (c : ClusterSt) : (s.setCluster i c).readings = s.readings := rfl
@[simp] theorem State.setCluster_smb (s : State) (i : Nat) (c : ClusterSt) : (s.setCluster i c).smb = s.smb := rfl
@[simp] theorem State.setCluster_tap (s : State) (i : Nat) (c : ClusterSt) : (s.setCluster i c).tap = s.tap := rfl
@[simp] theorem State.setCluster_counter (s : State) (i : Nat) (c : ClusterSt) : (s.setCluster i c).counter = s.counter := rfl
@[simp] theorem State.setCluster_wall (s : State) (i : Nat) (c : ClusterSt) : (s.setCluster i c).wall = s.wall := rfl
@[simp] theorem State.setCluster_boot (s : State) (i : Nat) (c : ClusterSt) : (s.setCluster i c).boot = s.boot := rfl
@[simp] theorem State.setCluster_flash0 (s : State) (i : Nat) (c : ClusterSt) : (s.setCluster i c).flash0 = s.flash0 := rfl
@[simp] theorem State.setCluster_flash1 (s : State) (i : Nat) (c : ClusterSt) : (s.setCluster i c).flash1 = s.flash1 := rfl
@[simp] theorem State.setCluster_regs (s : State) (i : Nat) (c : ClusterSt) : (s.setCluster i c).regs = s.regs := rfl
@[simp] theorem State.setCluster_tansy (s : State) (i : Nat) (c : ClusterSt) : (s.setCluster i c).tansy = s.tansy := rfl
@[simp] theorem State.setCluster_jnl (s : State) (i : Nat) (c : ClusterSt) : (s.setCluster i c).jnl = s.jnl := rfl
@[simp] theorem State.setCluster_mgmt (s : State) (i : Nat) (c : ClusterSt) : (s.setCluster i c).mgmt = s.mgmt := rfl
@[simp] theorem State.setCluster_eth (s : State) (i : Nat) (c : ClusterSt) : (s.setCluster i c).eth = s.eth := rfl
@[simp] theorem State.setCluster_cmp (s : State) (i : Nat) (c : ClusterSt) : (s.setCluster i c).cmp = s.cmp := rfl
@[simp] theorem State.setCluster_parts (s : State) (i : Nat) (c : ClusterSt) : (s.setCluster i c).parts = s.parts := rfl
@[simp] theorem State.setCluster_step (s : State) (i : Nat) (c : ClusterSt) : (s.setCluster i c).step = s.step := rfl
@[simp] theorem State.setCluster_filler (s : State) (i : Nat) (c : ClusterSt) : (s.setCluster i c).filler = s.filler := rfl
@[simp] theorem State.setCluster_deferred (s : State) (i : Nat) (c : ClusterSt) : (s.setCluster i c).deferred = s.deferred := rfl
@[simp] theorem State.setCluster_cores (s : State) (i : Nat) (c : ClusterSt) : (s.setCluster i c).cores = s.cores := rfl
@[simp] theorem State.setCluster_clusters (s : State) (i : Nat) (c : ClusterSt) : (s.setCluster i c).clusters = Sparse.set ⟨[], []⟩ s.clusters i c := rfl
@[simp] theorem State.setCluster_mem (s : State) (i : Nat) (c : ClusterSt) : (s.setCluster i c).mem = s.mem := rfl
@[simp] theorem State.setCluster_keep (s : State) (i : Nat) (c : ClusterSt) : (s.setCluster i c).keep = s.keep := rfl
@[simp] theorem State.setCluster_vetch (s : State) (i : Nat) (c : ClusterSt) : (s.setCluster i c).vetch = s.vetch := rfl
@[simp] theorem State.setCluster_xpr (s : State) (i : Nat) (c : ClusterSt) : (s.setCluster i c).xpr = s.xpr := rfl
@[simp] theorem State.setCluster_bnt (s : State) (i : Nat) (c : ClusterSt) : (s.setCluster i c).bnt = s.bnt := rfl
@[simp] theorem State.setCluster_links (s : State) (i : Nat) (c : ClusterSt) : (s.setCluster i c).links = s.links := rfl
@[simp] theorem State.setCluster_power (s : State) (i : Nat) (c : ClusterSt) : (s.setCluster i c).power = s.power := rfl
@[simp] theorem State.setCluster_lif (s : State) (i : Nat) (c : ClusterSt) : (s.setCluster i c).lif = s.lif := rfl
@[simp] theorem State.setCluster_fp (s : State) (i : Nat) (c : ClusterSt) : (s.setCluster i c).fp = s.fp := rfl
@[simp] theorem State.setCluster_fpInput (s : State) (i : Nat) (c : ClusterSt) : (s.setCluster i c).fpInput = s.fpInput := rfl
@[simp] theorem State.setCluster_sec (s : State) (i : Nat) (c : ClusterSt) : (s.setCluster i c).sec = s.sec := rfl
@[simp] theorem State.setCluster_upd (s : State) (i : Nat) (c : ClusterSt) : (s.setCluster i c).upd = s.upd := rfl
@[simp] theorem State.setCluster_out (s : State) (i : Nat) (c : ClusterSt) : (s.setCluster i c).out = s.out := rfl
@[simp] theorem State.setCluster_freeCtr (s : State) (i : Nat) (c : ClusterSt) : (s.setCluster i c).freeCtr = s.freeCtr := rfl
@[simp] theorem State.setCluster_pending (s : State) (i : Nat) (c : ClusterSt) : (s.setCluster i c).pending = s.pending := rfl

/-! modPart -/

@[simp] theorem State.modPart_part (s : State) (p : Nat) (f : Partition → Partition) : (s.modPart p f).part = s.part := rfl
@[simp] theorem State.modPart_pins (s : State) (p : Nat) (f : Partition → Partition) : (s.modPart p f).pins = s.pins := rfl
@[simp] theorem State.modPart_readings (s : State) (p : Nat) (f : Partition → Partition) : (s.modPart p f).readings = s.readings := rfl
@[simp] theorem State.modPart_smb (s : State) (p : Nat) (f : Partition → Partition) : (s.modPart p f).smb = s.smb := rfl
@[simp] theorem State.modPart_tap (s : State) (p : Nat) (f : Partition → Partition) : (s.modPart p f).tap = s.tap := rfl
@[simp] theorem State.modPart_counter (s : State) (p : Nat) (f : Partition → Partition) : (s.modPart p f).counter = s.counter := rfl
@[simp] theorem State.modPart_wall (s : State) (p : Nat) (f : Partition → Partition) : (s.modPart p f).wall = s.wall := rfl
@[simp] theorem State.modPart_boot (s : State) (p : Nat) (f : Partition → Partition) : (s.modPart p f).boot = s.boot := rfl
@[simp] theorem State.modPart_flash0 (s : State) (p : Nat) (f : Partition → Partition) : (s.modPart p f).flash0 = s.flash0 := rfl
@[simp] theorem State.modPart_flash1 (s : State) (p : Nat) (f : Partition → Partition) : (s.modPart p f).flash1 = s.flash1 := rfl
@[simp] theorem State.modPart_regs (s : State) (p : Nat) (f : Partition → Partition) : (s.modPart p f).regs = s.regs := rfl
@[simp] theorem State.modPart_tansy (s : State) (p : Nat) (f : Partition → Partition) : (s.modPart p f).tansy = s.tansy := rfl
@[simp] theorem State.modPart_jnl (s : State) (p : Nat) (f : Partition → Partition) : (s.modPart p f).jnl = s.jnl := rfl
@[simp] theorem State.modPart_mgmt (s : State) (p : Nat) (f : Partition → Partition) : (s.modPart p f).mgmt = s.mgmt := rfl
@[simp] theorem State.modPart_eth (s : State) (p : Nat) (f : Partition → Partition) : (s.modPart p f).eth = s.eth := rfl
@[simp] theorem State.modPart_cmp (s : State) (p : Nat) (f : Partition → Partition) : (s.modPart p f).cmp = s.cmp := rfl
@[simp] theorem State.modPart_parts (s : State) (p : Nat) (f : Partition → Partition) : (s.modPart p f).parts = modifyAt s.parts p f := rfl
@[simp] theorem State.modPart_step (s : State) (p : Nat) (f : Partition → Partition) : (s.modPart p f).step = s.step := rfl
@[simp] theorem State.modPart_filler (s : State) (p : Nat) (f : Partition → Partition) : (s.modPart p f).filler = s.filler := rfl
@[simp] theorem State.modPart_deferred (s : State) (p : Nat) (f : Partition → Partition) : (s.modPart p f).deferred = s.deferred := rfl
@[simp] theorem State.modPart_cores (s : State) (p : Nat) (f : Partition → Partition) : (s.modPart p f).cores = s.cores := rfl
@[simp] theorem State.modPart_clusters (s : State) (p : Nat) (f : Partition → Partition) : (s.modPart p f).clusters = s.clusters := rfl
@[simp] theorem State.modPart_mem (s : State) (p : Nat) (f : Partition → Partition) : (s.modPart p f).mem = s.mem := rfl
@[simp] theorem State.modPart_keep (s : State) (p : Nat) (f : Partition → Partition) : (s.modPart p f).keep = s.keep := rfl
@[simp] theorem State.modPart_vetch (s : State) (p : Nat) (f : Partition → Partition) : (s.modPart p f).vetch = s.vetch := rfl
@[simp] theorem State.modPart_xpr (s : State) (p : Nat) (f : Partition → Partition) : (s.modPart p f).xpr = s.xpr := rfl
@[simp] theorem State.modPart_bnt (s : State) (p : Nat) (f : Partition → Partition) : (s.modPart p f).bnt = s.bnt := rfl
@[simp] theorem State.modPart_links (s : State) (p : Nat) (f : Partition → Partition) : (s.modPart p f).links = s.links := rfl
@[simp] theorem State.modPart_power (s : State) (p : Nat) (f : Partition → Partition) : (s.modPart p f).power = s.power := rfl
@[simp] theorem State.modPart_lif (s : State) (p : Nat) (f : Partition → Partition) : (s.modPart p f).lif = s.lif := rfl
@[simp] theorem State.modPart_fp (s : State) (p : Nat) (f : Partition → Partition) : (s.modPart p f).fp = s.fp := rfl
@[simp] theorem State.modPart_fpInput (s : State) (p : Nat) (f : Partition → Partition) : (s.modPart p f).fpInput = s.fpInput := rfl
@[simp] theorem State.modPart_sec (s : State) (p : Nat) (f : Partition → Partition) : (s.modPart p f).sec = s.sec := rfl
@[simp] theorem State.modPart_upd (s : State) (p : Nat) (f : Partition → Partition) : (s.modPart p f).upd = s.upd := rfl
@[simp] theorem State.modPart_out (s : State) (p : Nat) (f : Partition → Partition) : (s.modPart p f).out = s.out := rfl
@[simp] theorem State.modPart_freeCtr (s : State) (p : Nat) (f : Partition → Partition) : (s.modPart p f).freeCtr = s.freeCtr := rfl
@[simp] theorem State.modPart_pending (s : State) (p : Nat) (f : Partition → Partition) : (s.modPart p f).pending = s.pending := rfl

/-! setPort -/

@[simp] theorem State.setPort_part (s : State) (i : Nat) (p : Port) : (s.setPort i p).part = s.part := rfl
@[simp] theorem State.setPort_pins (s : State) (i : Nat) (p : Port) : (s.setPort i p).pins = s.pins := rfl
@[simp] theorem State.setPort_readings (s : State) (i : Nat) (p : Port) : (s.setPort i p).readings = s.readings := rfl
@[simp] theorem State.setPort_smb (s : State) (i : Nat) (p : Port) : (s.setPort i p).smb = s.smb := rfl
@[simp] theorem State.setPort_tap (s : State) (i : Nat) (p : Port) : (s.setPort i p).tap = s.tap := rfl
@[simp] theorem State.setPort_counter (s : State) (i : Nat) (p : Port) : (s.setPort i p).counter = s.counter := rfl
@[simp] theorem State.setPort_wall (s : State) (i : Nat) (p : Port) : (s.setPort i p).wall = s.wall := rfl
@[simp] theorem State.setPort_boot (s : State) (i : Nat) (p : Port) : (s.setPort i p).boot = s.boot := rfl
@[simp] theorem State.setPort_flash0 (s : State) (i : Nat) (p : Port) : (s.setPort i p).flash0 = s.flash0 := rfl
@[simp] theorem State.setPort_flash1 (s : State) (i : Nat) (p : Port) : (s.setPort i p).flash1 = s.flash1 := rfl
@[simp] theorem State.setPort_regs (s : State) (i : Nat) (p : Port) : (s.setPort i p).regs = s.regs := rfl
@[simp] theorem State.setPort_tansy (s : State) (i : Nat) (p : Port) : (s.setPort i p).tansy = s.tansy := rfl
@[simp] theorem State.setPort_jnl (s : State) (i : Nat) (p : Port) : (s.setPort i p).jnl = s.jnl := rfl
@[simp] theorem State.setPort_mgmt (s : State) (i : Nat) (p : Port) : (s.setPort i p).mgmt = s.mgmt := rfl
@[simp] theorem State.setPort_eth (s : State) (i : Nat) (p : Port) : (s.setPort i p).eth = s.eth := rfl
@[simp] theorem State.setPort_cmp (s : State) (i : Nat) (p : Port) : (s.setPort i p).cmp = s.cmp := rfl
@[simp] theorem State.setPort_parts (s : State) (i : Nat) (p : Port) : (s.setPort i p).parts = s.parts := rfl
@[simp] theorem State.setPort_step (s : State) (i : Nat) (p : Port) : (s.setPort i p).step = s.step := rfl
@[simp] theorem State.setPort_filler (s : State) (i : Nat) (p : Port) : (s.setPort i p).filler = s.filler := rfl
@[simp] theorem State.setPort_deferred (s : State) (i : Nat) (p : Port) : (s.setPort i p).deferred = s.deferred := rfl
@[simp] theorem State.setPort_cores (s : State) (i : Nat) (p : Port) : (s.setPort i p).cores = s.cores := rfl
@[simp] theorem State.setPort_clusters (s : State) (i : Nat) (p : Port) : (s.setPort i p).clusters = s.clusters := rfl
@[simp] theorem State.setPort_mem (s : State) (i : Nat) (p : Port) : (s.setPort i p).mem = s.mem := rfl
@[simp] theorem State.setPort_keep (s : State) (i : Nat) (p : Port) : (s.setPort i p).keep = s.keep := rfl
@[simp] theorem State.setPort_vetch (s : State) (i : Nat) (p : Port) : (s.setPort i p).vetch = s.vetch := rfl
@[simp] theorem State.setPort_xpr (s : State) (i : Nat) (p : Port) : (s.setPort i p).xpr = s.xpr := rfl
@[simp] theorem State.setPort_bnt (s : State) (i : Nat) (p : Port) : (s.setPort i p).bnt = s.bnt := rfl
@[simp] theorem State.setPort_links (s : State) (i : Nat) (p : Port) : (s.setPort i p).links = { s.links with ports := modifyAt s.links.ports i fun _ => p } := rfl
@[simp] theorem State.setPort_power (s : State) (i : Nat) (p : Port) : (s.setPort i p).power = s.power := rfl
@[simp] theorem State.setPort_lif (s : State) (i : Nat) (p : Port) : (s.setPort i p).lif = s.lif := rfl
@[simp] theorem State.setPort_fp (s : State) (i : Nat) (p : Port) : (s.setPort i p).fp = s.fp := rfl
@[simp] theorem State.setPort_fpInput (s : State) (i : Nat) (p : Port) : (s.setPort i p).fpInput = s.fpInput := rfl
@[simp] theorem State.setPort_sec (s : State) (i : Nat) (p : Port) : (s.setPort i p).sec = s.sec := rfl
@[simp] theorem State.setPort_upd (s : State) (i : Nat) (p : Port) : (s.setPort i p).upd = s.upd := rfl
@[simp] theorem State.setPort_out (s : State) (i : Nat) (p : Port) : (s.setPort i p).out = s.out := rfl
@[simp] theorem State.setPort_freeCtr (s : State) (i : Nat) (p : Port) : (s.setPort i p).freeCtr = s.freeCtr := rfl
@[simp] theorem State.setPort_pending (s : State) (i : Nat) (p : Port) : (s.setPort i p).pending = s.pending := rfl

/-! setAxis -/

@[simp] theorem State.setAxis_part (s : State) (a : Nat) (x : Axis) : (s.setAxis a x).part = s.part := rfl
@[simp] theorem State.setAxis_pins (s : State) (a : Nat) (x : Axis) : (s.setAxis a x).pins = s.pins := rfl
@[simp] theorem State.setAxis_readings (s : State) (a : Nat) (x : Axis) : (s.setAxis a x).readings = s.readings := rfl
@[simp] theorem State.setAxis_smb (s : State) (a : Nat) (x : Axis) : (s.setAxis a x).smb = s.smb := rfl
@[simp] theorem State.setAxis_tap (s : State) (a : Nat) (x : Axis) : (s.setAxis a x).tap = s.tap := rfl
@[simp] theorem State.setAxis_counter (s : State) (a : Nat) (x : Axis) : (s.setAxis a x).counter = s.counter := rfl
@[simp] theorem State.setAxis_wall (s : State) (a : Nat) (x : Axis) : (s.setAxis a x).wall = s.wall := rfl
@[simp] theorem State.setAxis_boot (s : State) (a : Nat) (x : Axis) : (s.setAxis a x).boot = s.boot := rfl
@[simp] theorem State.setAxis_flash0 (s : State) (a : Nat) (x : Axis) : (s.setAxis a x).flash0 = s.flash0 := rfl
@[simp] theorem State.setAxis_flash1 (s : State) (a : Nat) (x : Axis) : (s.setAxis a x).flash1 = s.flash1 := rfl
@[simp] theorem State.setAxis_regs (s : State) (a : Nat) (x : Axis) : (s.setAxis a x).regs = s.regs := rfl
@[simp] theorem State.setAxis_tansy (s : State) (a : Nat) (x : Axis) : (s.setAxis a x).tansy = s.tansy := rfl
@[simp] theorem State.setAxis_jnl (s : State) (a : Nat) (x : Axis) : (s.setAxis a x).jnl = s.jnl := rfl
@[simp] theorem State.setAxis_mgmt (s : State) (a : Nat) (x : Axis) : (s.setAxis a x).mgmt = s.mgmt := rfl
@[simp] theorem State.setAxis_eth (s : State) (a : Nat) (x : Axis) : (s.setAxis a x).eth = s.eth := rfl
@[simp] theorem State.setAxis_cmp (s : State) (a : Nat) (x : Axis) : (s.setAxis a x).cmp = s.cmp := rfl
@[simp] theorem State.setAxis_parts (s : State) (a : Nat) (x : Axis) : (s.setAxis a x).parts = s.parts := rfl
@[simp] theorem State.setAxis_step (s : State) (a : Nat) (x : Axis) : (s.setAxis a x).step = s.step := rfl
@[simp] theorem State.setAxis_filler (s : State) (a : Nat) (x : Axis) : (s.setAxis a x).filler = s.filler := rfl
@[simp] theorem State.setAxis_deferred (s : State) (a : Nat) (x : Axis) : (s.setAxis a x).deferred = s.deferred := rfl
@[simp] theorem State.setAxis_cores (s : State) (a : Nat) (x : Axis) : (s.setAxis a x).cores = s.cores := rfl
@[simp] theorem State.setAxis_clusters (s : State) (a : Nat) (x : Axis) : (s.setAxis a x).clusters = s.clusters := rfl
@[simp] theorem State.setAxis_mem (s : State) (a : Nat) (x : Axis) : (s.setAxis a x).mem = s.mem := rfl
@[simp] theorem State.setAxis_keep (s : State) (a : Nat) (x : Axis) : (s.setAxis a x).keep = s.keep := rfl
@[simp] theorem State.setAxis_vetch (s : State) (a : Nat) (x : Axis) : (s.setAxis a x).vetch = s.vetch := rfl
@[simp] theorem State.setAxis_xpr (s : State) (a : Nat) (x : Axis) : (s.setAxis a x).xpr = s.xpr := rfl
@[simp] theorem State.setAxis_bnt (s : State) (a : Nat) (x : Axis) : (s.setAxis a x).bnt = s.bnt := rfl
@[simp] theorem State.setAxis_links (s : State) (a : Nat) (x : Axis) : (s.setAxis a x).links = { s.links with axes := modifyAt s.links.axes a fun _ => x } := rfl
@[simp] theorem State.setAxis_power (s : State) (a : Nat) (x : Axis) : (s.setAxis a x).power = s.power := rfl
@[simp] theorem State.setAxis_lif (s : State) (a : Nat) (x : Axis) : (s.setAxis a x).lif = s.lif := rfl
@[simp] theorem State.setAxis_fp (s : State) (a : Nat) (x : Axis) : (s.setAxis a x).fp = s.fp := rfl
@[simp] theorem State.setAxis_fpInput (s : State) (a : Nat) (x : Axis) : (s.setAxis a x).fpInput = s.fpInput := rfl
@[simp] theorem State.setAxis_sec (s : State) (a : Nat) (x : Axis) : (s.setAxis a x).sec = s.sec := rfl
@[simp] theorem State.setAxis_upd (s : State) (a : Nat) (x : Axis) : (s.setAxis a x).upd = s.upd := rfl
@[simp] theorem State.setAxis_out (s : State) (a : Nat) (x : Axis) : (s.setAxis a x).out = s.out := rfl
@[simp] theorem State.setAxis_freeCtr (s : State) (a : Nat) (x : Axis) : (s.setAxis a x).freeCtr = s.freeCtr := rfl
@[simp] theorem State.setAxis_pending (s : State) (a : Nat) (x : Axis) : (s.setAxis a x).pending = s.pending := rfl

/-! setSession -/

@[simp] theorem State.setSession_part (s : State) (i : Nat) (x : Session) : (s.setSession i x).part = s.part := rfl
@[simp] theorem State.setSession_pins (s : State) (i : Nat) (x : Session) : (s.setSession i x).pins = s.pins := rfl
@[simp] theorem State.setSession_readings (s : State) (i : Nat) (x : Session) : (s.setSession i x).readings = s.readings := rfl
@[simp] theorem State.setSession_smb (s : State) (i : Nat) (x : Session) : (s.setSession i x).smb = s.smb := rfl
@[simp] theorem State.setSession_tap (s : State) (i : Nat) (x : Session) : (s.setSession i x).tap = s.tap := rfl
@[simp] theorem State.setSession_counter (s : State) (i : Nat) (x : Session) : (s.setSession i x).counter = s.counter := rfl
@[simp] theorem State.setSession_wall (s : State) (i : Nat) (x : Session) : (s.setSession i x).wall = s.wall := rfl
@[simp] theorem State.setSession_boot (s : State) (i : Nat) (x : Session) : (s.setSession i x).boot = s.boot := rfl
@[simp] theorem State.setSession_flash0 (s : State) (i : Nat) (x : Session) : (s.setSession i x).flash0 = s.flash0 := rfl
@[simp] theorem State.setSession_flash1 (s : State) (i : Nat) (x : Session) : (s.setSession i x).flash1 = s.flash1 := rfl
@[simp] theorem State.setSession_regs (s : State) (i : Nat) (x : Session) : (s.setSession i x).regs = s.regs := rfl
@[simp] theorem State.setSession_tansy (s : State) (i : Nat) (x : Session) : (s.setSession i x).tansy = s.tansy := rfl
@[simp] theorem State.setSession_jnl (s : State) (i : Nat) (x : Session) : (s.setSession i x).jnl = s.jnl := rfl
@[simp] theorem State.setSession_mgmt (s : State) (i : Nat) (x : Session) : (s.setSession i x).mgmt = s.mgmt := rfl
@[simp] theorem State.setSession_eth (s : State) (i : Nat) (x : Session) : (s.setSession i x).eth = s.eth := rfl
@[simp] theorem State.setSession_cmp (s : State) (i : Nat) (x : Session) : (s.setSession i x).cmp = { s.cmp with sessions := modifyAt s.cmp.sessions i fun _ => x } := rfl
@[simp] theorem State.setSession_parts (s : State) (i : Nat) (x : Session) : (s.setSession i x).parts = s.parts := rfl
@[simp] theorem State.setSession_step (s : State) (i : Nat) (x : Session) : (s.setSession i x).step = s.step := rfl
@[simp] theorem State.setSession_filler (s : State) (i : Nat) (x : Session) : (s.setSession i x).filler = s.filler := rfl
@[simp] theorem State.setSession_deferred (s : State) (i : Nat) (x : Session) : (s.setSession i x).deferred = s.deferred := rfl
@[simp] theorem State.setSession_cores (s : State) (i : Nat) (x : Session) : (s.setSession i x).cores = s.cores := rfl
@[simp] theorem State.setSession_clusters (s : State) (i : Nat) (x : Session) : (s.setSession i x).clusters = s.clusters := rfl
@[simp] theorem State.setSession_mem (s : State) (i : Nat) (x : Session) : (s.setSession i x).mem = s.mem := rfl
@[simp] theorem State.setSession_keep (s : State) (i : Nat) (x : Session) : (s.setSession i x).keep = s.keep := rfl
@[simp] theorem State.setSession_vetch (s : State) (i : Nat) (x : Session) : (s.setSession i x).vetch = s.vetch := rfl
@[simp] theorem State.setSession_xpr (s : State) (i : Nat) (x : Session) : (s.setSession i x).xpr = s.xpr := rfl
@[simp] theorem State.setSession_bnt (s : State) (i : Nat) (x : Session) : (s.setSession i x).bnt = s.bnt := rfl
@[simp] theorem State.setSession_links (s : State) (i : Nat) (x : Session) : (s.setSession i x).links = s.links := rfl
@[simp] theorem State.setSession_power (s : State) (i : Nat) (x : Session) : (s.setSession i x).power = s.power := rfl
@[simp] theorem State.setSession_lif (s : State) (i : Nat) (x : Session) : (s.setSession i x).lif = s.lif := rfl
@[simp] theorem State.setSession_fp (s : State) (i : Nat) (x : Session) : (s.setSession i x).fp = s.fp := rfl
@[simp] theorem State.setSession_fpInput (s : State) (i : Nat) (x : Session) : (s.setSession i x).fpInput = s.fpInput := rfl
@[simp] theorem State.setSession_sec (s : State) (i : Nat) (x : Session) : (s.setSession i x).sec = s.sec := rfl
@[simp] theorem State.setSession_upd (s : State) (i : Nat) (x : Session) : (s.setSession i x).upd = s.upd := rfl
@[simp] theorem State.setSession_out (s : State) (i : Nat) (x : Session) : (s.setSession i x).out = s.out := rfl
@[simp] theorem State.setSession_freeCtr (s : State) (i : Nat) (x : Session) : (s.setSession i x).freeCtr = s.freeCtr := rfl
@[simp] theorem State.setSession_pending (s : State) (i : Nat) (x : Session) : (s.setSession i x).pending = s.pending := rfl

/-! setStream -/

@[simp] theorem State.setStream_part (s : State) (j : Nat) (x : Stream) : (s.setStream j x).part = s.part := rfl
@[simp] theorem State.setStream_pins (s : State) (j : Nat) (x : Stream) : (s.setStream j x).pins = s.pins := rfl
@[simp] theorem State.setStream_readings (s : State) (j : Nat) (x : Stream) : (s.setStream j x).readings = s.readings := rfl
@[simp] theorem State.setStream_smb (s : State) (j : Nat) (x : Stream) : (s.setStream j x).smb = s.smb := rfl
@[simp] theorem State.setStream_tap (s : State) (j : Nat) (x : Stream) : (s.setStream j x).tap = s.tap := rfl
@[simp] theorem State.setStream_counter (s : State) (j : Nat) (x : Stream) : (s.setStream j x).counter = s.counter := rfl
@[simp] theorem State.setStream_wall (s : State) (j : Nat) (x : Stream) : (s.setStream j x).wall = s.wall := rfl
@[simp] theorem State.setStream_boot (s : State) (j : Nat) (x : Stream) : (s.setStream j x).boot = s.boot := rfl
@[simp] theorem State.setStream_flash0 (s : State) (j : Nat) (x : Stream) : (s.setStream j x).flash0 = s.flash0 := rfl
@[simp] theorem State.setStream_flash1 (s : State) (j : Nat) (x : Stream) : (s.setStream j x).flash1 = s.flash1 := rfl
@[simp] theorem State.setStream_regs (s : State) (j : Nat) (x : Stream) : (s.setStream j x).regs = s.regs := rfl
@[simp] theorem State.setStream_tansy (s : State) (j : Nat) (x : Stream) : (s.setStream j x).tansy = s.tansy := rfl
@[simp] theorem State.setStream_jnl (s : State) (j : Nat) (x : Stream) : (s.setStream j x).jnl = s.jnl := rfl
@[simp] theorem State.setStream_mgmt (s : State) (j : Nat) (x : Stream) : (s.setStream j x).mgmt = s.mgmt := rfl
@[simp] theorem State.setStream_eth (s : State) (j : Nat) (x : Stream) : (s.setStream j x).eth = s.eth := rfl
@[simp] theorem State.setStream_cmp (s : State) (j : Nat) (x : Stream) : (s.setStream j x).cmp = { s.cmp with streams := setAssoc s.cmp.streams j x } := rfl
@[simp] theorem State.setStream_parts (s : State) (j : Nat) (x : Stream) : (s.setStream j x).parts = s.parts := rfl
@[simp] theorem State.setStream_step (s : State) (j : Nat) (x : Stream) : (s.setStream j x).step = s.step := rfl
@[simp] theorem State.setStream_filler (s : State) (j : Nat) (x : Stream) : (s.setStream j x).filler = s.filler := rfl
@[simp] theorem State.setStream_deferred (s : State) (j : Nat) (x : Stream) : (s.setStream j x).deferred = s.deferred := rfl
@[simp] theorem State.setStream_cores (s : State) (j : Nat) (x : Stream) : (s.setStream j x).cores = s.cores := rfl
@[simp] theorem State.setStream_clusters (s : State) (j : Nat) (x : Stream) : (s.setStream j x).clusters = s.clusters := rfl
@[simp] theorem State.setStream_mem (s : State) (j : Nat) (x : Stream) : (s.setStream j x).mem = s.mem := rfl
@[simp] theorem State.setStream_keep (s : State) (j : Nat) (x : Stream) : (s.setStream j x).keep = s.keep := rfl
@[simp] theorem State.setStream_vetch (s : State) (j : Nat) (x : Stream) : (s.setStream j x).vetch = s.vetch := rfl
@[simp] theorem State.setStream_xpr (s : State) (j : Nat) (x : Stream) : (s.setStream j x).xpr = s.xpr := rfl
@[simp] theorem State.setStream_bnt (s : State) (j : Nat) (x : Stream) : (s.setStream j x).bnt = s.bnt := rfl
@[simp] theorem State.setStream_links (s : State) (j : Nat) (x : Stream) : (s.setStream j x).links = s.links := rfl
@[simp] theorem State.setStream_power (s : State) (j : Nat) (x : Stream) : (s.setStream j x).power = s.power := rfl
@[simp] theorem State.setStream_lif (s : State) (j : Nat) (x : Stream) : (s.setStream j x).lif = s.lif := rfl
@[simp] theorem State.setStream_fp (s : State) (j : Nat) (x : Stream) : (s.setStream j x).fp = s.fp := rfl
@[simp] theorem State.setStream_fpInput (s : State) (j : Nat) (x : Stream) : (s.setStream j x).fpInput = s.fpInput := rfl
@[simp] theorem State.setStream_sec (s : State) (j : Nat) (x : Stream) : (s.setStream j x).sec = s.sec := rfl
@[simp] theorem State.setStream_upd (s : State) (j : Nat) (x : Stream) : (s.setStream j x).upd = s.upd := rfl
@[simp] theorem State.setStream_out (s : State) (j : Nat) (x : Stream) : (s.setStream j x).out = s.out := rfl
@[simp] theorem State.setStream_freeCtr (s : State) (j : Nat) (x : Stream) : (s.setStream j x).freeCtr = s.freeCtr := rfl
@[simp] theorem State.setStream_pending (s : State) (j : Nat) (x : Stream) : (s.setStream j x).pending = s.pending := rfl

/-! setEth -/

@[simp] theorem State.setEth_part (s : State) (p : Fin 2) (e : EthPort) : (s.setEth p e).part = s.part := rfl
@[simp] theorem State.setEth_pins (s : State) (p : Fin 2) (e : EthPort) : (s.setEth p e).pins = s.pins := rfl
@[simp] theorem State.setEth_readings (s : State) (p : Fin 2) (e : EthPort) : (s.setEth p e).readings = s.readings := rfl
@[simp] theorem State.setEth_smb (s : State) (p : Fin 2) (e : EthPort) : (s.setEth p e).smb = s.smb := rfl
@[simp] theorem State.setEth_tap (s : State) (p : Fin 2) (e : EthPort) : (s.setEth p e).tap = s.tap := rfl
@[simp] theorem State.setEth_counter (s : State) (p : Fin 2) (e : EthPort) : (s.setEth p e).counter = s.counter := rfl
@[simp] theorem State.setEth_wall (s : State) (p : Fin 2) (e : EthPort) : (s.setEth p e).wall = s.wall := rfl
@[simp] theorem State.setEth_boot (s : State) (p : Fin 2) (e : EthPort) : (s.setEth p e).boot = s.boot := rfl
@[simp] theorem State.setEth_flash0 (s : State) (p : Fin 2) (e : EthPort) : (s.setEth p e).flash0 = s.flash0 := rfl
@[simp] theorem State.setEth_flash1 (s : State) (p : Fin 2) (e : EthPort) : (s.setEth p e).flash1 = s.flash1 := rfl
@[simp] theorem State.setEth_regs (s : State) (p : Fin 2) (e : EthPort) : (s.setEth p e).regs = s.regs := rfl
@[simp] theorem State.setEth_tansy (s : State) (p : Fin 2) (e : EthPort) : (s.setEth p e).tansy = s.tansy := rfl
@[simp] theorem State.setEth_jnl (s : State) (p : Fin 2) (e : EthPort) : (s.setEth p e).jnl = s.jnl := rfl
@[simp] theorem State.setEth_mgmt (s : State) (p : Fin 2) (e : EthPort) : (s.setEth p e).mgmt = s.mgmt := rfl
@[simp] theorem State.setEth_eth (s : State) (p : Fin 2) (e : EthPort) : (s.setEth p e).eth = modifyAt s.eth p.val fun _ => e := rfl
@[simp] theorem State.setEth_cmp (s : State) (p : Fin 2) (e : EthPort) : (s.setEth p e).cmp = s.cmp := rfl
@[simp] theorem State.setEth_parts (s : State) (p : Fin 2) (e : EthPort) : (s.setEth p e).parts = s.parts := rfl
@[simp] theorem State.setEth_step (s : State) (p : Fin 2) (e : EthPort) : (s.setEth p e).step = s.step := rfl
@[simp] theorem State.setEth_filler (s : State) (p : Fin 2) (e : EthPort) : (s.setEth p e).filler = s.filler := rfl
@[simp] theorem State.setEth_deferred (s : State) (p : Fin 2) (e : EthPort) : (s.setEth p e).deferred = s.deferred := rfl
@[simp] theorem State.setEth_cores (s : State) (p : Fin 2) (e : EthPort) : (s.setEth p e).cores = s.cores := rfl
@[simp] theorem State.setEth_clusters (s : State) (p : Fin 2) (e : EthPort) : (s.setEth p e).clusters = s.clusters := rfl
@[simp] theorem State.setEth_mem (s : State) (p : Fin 2) (e : EthPort) : (s.setEth p e).mem = s.mem := rfl
@[simp] theorem State.setEth_keep (s : State) (p : Fin 2) (e : EthPort) : (s.setEth p e).keep = s.keep := rfl
@[simp] theorem State.setEth_vetch (s : State) (p : Fin 2) (e : EthPort) : (s.setEth p e).vetch = s.vetch := rfl
@[simp] theorem State.setEth_xpr (s : State) (p : Fin 2) (e : EthPort) : (s.setEth p e).xpr = s.xpr := rfl
@[simp] theorem State.setEth_bnt (s : State) (p : Fin 2) (e : EthPort) : (s.setEth p e).bnt = s.bnt := rfl
@[simp] theorem State.setEth_links (s : State) (p : Fin 2) (e : EthPort) : (s.setEth p e).links = s.links := rfl
@[simp] theorem State.setEth_power (s : State) (p : Fin 2) (e : EthPort) : (s.setEth p e).power = s.power := rfl
@[simp] theorem State.setEth_lif (s : State) (p : Fin 2) (e : EthPort) : (s.setEth p e).lif = s.lif := rfl
@[simp] theorem State.setEth_fp (s : State) (p : Fin 2) (e : EthPort) : (s.setEth p e).fp = s.fp := rfl
@[simp] theorem State.setEth_fpInput (s : State) (p : Fin 2) (e : EthPort) : (s.setEth p e).fpInput = s.fpInput := rfl
@[simp] theorem State.setEth_sec (s : State) (p : Fin 2) (e : EthPort) : (s.setEth p e).sec = s.sec := rfl
@[simp] theorem State.setEth_upd (s : State) (p : Fin 2) (e : EthPort) : (s.setEth p e).upd = s.upd := rfl
@[simp] theorem State.setEth_out (s : State) (p : Fin 2) (e : EthPort) : (s.setEth p e).out = s.out := rfl
@[simp] theorem State.setEth_freeCtr (s : State) (p : Fin 2) (e : EthPort) : (s.setEth p e).freeCtr = s.freeCtr := rfl
@[simp] theorem State.setEth_pending (s : State) (p : Fin 2) (e : EthPort) : (s.setEth p e).pending = s.pending := rfl

/-! setVetch -/

@[simp] theorem State.setVetch_part (s : State) (t : Nat) (v : VetchTile) : (s.setVetch t v).part = s.part := rfl
@[simp] theorem State.setVetch_pins (s : State) (t : Nat) (v : VetchTile) : (s.setVetch t v).pins = s.pins := rfl
@[simp] theorem State.setVetch_readings (s : State) (t : Nat) (v : VetchTile) : (s.setVetch t v).readings = s.readings := rfl
@[simp] theorem State.setVetch_smb (s : State) (t : Nat) (v : VetchTile) : (s.setVetch t v).smb = s.smb := rfl
@[simp] theorem State.setVetch_tap (s : State) (t : Nat) (v : VetchTile) : (s.setVetch t v).tap = s.tap := rfl
@[simp] theorem State.setVetch_counter (s : State) (t : Nat) (v : VetchTile) : (s.setVetch t v).counter = s.counter := rfl
@[simp] theorem State.setVetch_wall (s : State) (t : Nat) (v : VetchTile) : (s.setVetch t v).wall = s.wall := rfl
@[simp] theorem State.setVetch_boot (s : State) (t : Nat) (v : VetchTile) : (s.setVetch t v).boot = s.boot := rfl
@[simp] theorem State.setVetch_flash0 (s : State) (t : Nat) (v : VetchTile) : (s.setVetch t v).flash0 = s.flash0 := rfl
@[simp] theorem State.setVetch_flash1 (s : State) (t : Nat) (v : VetchTile) : (s.setVetch t v).flash1 = s.flash1 := rfl
@[simp] theorem State.setVetch_regs (s : State) (t : Nat) (v : VetchTile) : (s.setVetch t v).regs = s.regs := rfl
@[simp] theorem State.setVetch_tansy (s : State) (t : Nat) (v : VetchTile) : (s.setVetch t v).tansy = s.tansy := rfl
@[simp] theorem State.setVetch_jnl (s : State) (t : Nat) (v : VetchTile) : (s.setVetch t v).jnl = s.jnl := rfl
@[simp] theorem State.setVetch_mgmt (s : State) (t : Nat) (v : VetchTile) : (s.setVetch t v).mgmt = s.mgmt := rfl
@[simp] theorem State.setVetch_eth (s : State) (t : Nat) (v : VetchTile) : (s.setVetch t v).eth = s.eth := rfl
@[simp] theorem State.setVetch_cmp (s : State) (t : Nat) (v : VetchTile) : (s.setVetch t v).cmp = s.cmp := rfl
@[simp] theorem State.setVetch_parts (s : State) (t : Nat) (v : VetchTile) : (s.setVetch t v).parts = s.parts := rfl
@[simp] theorem State.setVetch_step (s : State) (t : Nat) (v : VetchTile) : (s.setVetch t v).step = s.step := rfl
@[simp] theorem State.setVetch_filler (s : State) (t : Nat) (v : VetchTile) : (s.setVetch t v).filler = s.filler := rfl
@[simp] theorem State.setVetch_deferred (s : State) (t : Nat) (v : VetchTile) : (s.setVetch t v).deferred = s.deferred := rfl
@[simp] theorem State.setVetch_cores (s : State) (t : Nat) (v : VetchTile) : (s.setVetch t v).cores = s.cores := rfl
@[simp] theorem State.setVetch_clusters (s : State) (t : Nat) (v : VetchTile) : (s.setVetch t v).clusters = s.clusters := rfl
@[simp] theorem State.setVetch_mem (s : State) (t : Nat) (v : VetchTile) : (s.setVetch t v).mem = s.mem := rfl
@[simp] theorem State.setVetch_keep (s : State) (t : Nat) (v : VetchTile) : (s.setVetch t v).keep = s.keep := rfl
@[simp] theorem State.setVetch_vetch (s : State) (t : Nat) (v : VetchTile) : (s.setVetch t v).vetch = modifyAt s.vetch t fun _ => v := rfl
@[simp] theorem State.setVetch_xpr (s : State) (t : Nat) (v : VetchTile) : (s.setVetch t v).xpr = s.xpr := rfl
@[simp] theorem State.setVetch_bnt (s : State) (t : Nat) (v : VetchTile) : (s.setVetch t v).bnt = s.bnt := rfl
@[simp] theorem State.setVetch_links (s : State) (t : Nat) (v : VetchTile) : (s.setVetch t v).links = s.links := rfl
@[simp] theorem State.setVetch_power (s : State) (t : Nat) (v : VetchTile) : (s.setVetch t v).power = s.power := rfl
@[simp] theorem State.setVetch_lif (s : State) (t : Nat) (v : VetchTile) : (s.setVetch t v).lif = s.lif := rfl
@[simp] theorem State.setVetch_fp (s : State) (t : Nat) (v : VetchTile) : (s.setVetch t v).fp = s.fp := rfl
@[simp] theorem State.setVetch_fpInput (s : State) (t : Nat) (v : VetchTile) : (s.setVetch t v).fpInput = s.fpInput := rfl
@[simp] theorem State.setVetch_sec (s : State) (t : Nat) (v : VetchTile) : (s.setVetch t v).sec = s.sec := rfl
@[simp] theorem State.setVetch_upd (s : State) (t : Nat) (v : VetchTile) : (s.setVetch t v).upd = s.upd := rfl
@[simp] theorem State.setVetch_out (s : State) (t : Nat) (v : VetchTile) : (s.setVetch t v).out = s.out := rfl
@[simp] theorem State.setVetch_freeCtr (s : State) (t : Nat) (v : VetchTile) : (s.setVetch t v).freeCtr = s.freeCtr := rfl
@[simp] theorem State.setVetch_pending (s : State) (t : Nat) (v : VetchTile) : (s.setVetch t v).pending = s.pending := rfl

/-! modRail -/

@[simp] theorem State.modRail_part (s : State) (t : Nat) (f : Rail → Rail) : (s.modRail t f).part = s.part := rfl
@[simp] theorem State.modRail_pins (s : State) (t : Nat) (f : Rail → Rail) : (s.modRail t f).pins = s.pins := rfl
@[simp] theorem State.modRail_readings (s : State) (t : Nat) (f : Rail → Rail) : (s.modRail t f).readings = s.readings := rfl
@[simp] theorem State.modRail_smb (s : State) (t : Nat) (f : Rail → Rail) : (s.modRail t f).smb = s.smb := rfl
@[simp] theorem State.modRail_tap (s : State) (t : Nat) (f : Rail → Rail) : (s.modRail t f).tap = s.tap := rfl
@[simp] theorem State.modRail_counter (s : State) (t : Nat) (f : Rail → Rail) : (s.modRail t f).counter = s.counter := rfl
@[simp] theorem State.modRail_wall (s : State) (t : Nat) (f : Rail → Rail) : (s.modRail t f).wall = s.wall := rfl
@[simp] theorem State.modRail_boot (s : State) (t : Nat) (f : Rail → Rail) : (s.modRail t f).boot = s.boot := rfl
@[simp] theorem State.modRail_flash0 (s : State) (t : Nat) (f : Rail → Rail) : (s.modRail t f).flash0 = s.flash0 := rfl
@[simp] theorem State.modRail_flash1 (s : State) (t : Nat) (f : Rail → Rail) : (s.modRail t f).flash1 = s.flash1 := rfl
@[simp] theorem State.modRail_regs (s : State) (t : Nat) (f : Rail → Rail) : (s.modRail t f).regs = s.regs := rfl
@[simp] theorem State.modRail_tansy (s : State) (t : Nat) (f : Rail → Rail) : (s.modRail t f).tansy = s.tansy := rfl
@[simp] theorem State.modRail_jnl (s : State) (t : Nat) (f : Rail → Rail) : (s.modRail t f).jnl = s.jnl := rfl
@[simp] theorem State.modRail_mgmt (s : State) (t : Nat) (f : Rail → Rail) : (s.modRail t f).mgmt = s.mgmt := rfl
@[simp] theorem State.modRail_eth (s : State) (t : Nat) (f : Rail → Rail) : (s.modRail t f).eth = s.eth := rfl
@[simp] theorem State.modRail_cmp (s : State) (t : Nat) (f : Rail → Rail) : (s.modRail t f).cmp = s.cmp := rfl
@[simp] theorem State.modRail_parts (s : State) (t : Nat) (f : Rail → Rail) : (s.modRail t f).parts = s.parts := rfl
@[simp] theorem State.modRail_step (s : State) (t : Nat) (f : Rail → Rail) : (s.modRail t f).step = s.step := rfl
@[simp] theorem State.modRail_filler (s : State) (t : Nat) (f : Rail → Rail) : (s.modRail t f).filler = s.filler := rfl
@[simp] theorem State.modRail_deferred (s : State) (t : Nat) (f : Rail → Rail) : (s.modRail t f).deferred = s.deferred := rfl
@[simp] theorem State.modRail_cores (s : State) (t : Nat) (f : Rail → Rail) : (s.modRail t f).cores = s.cores := rfl
@[simp] theorem State.modRail_clusters (s : State) (t : Nat) (f : Rail → Rail) : (s.modRail t f).clusters = s.clusters := rfl
@[simp] theorem State.modRail_mem (s : State) (t : Nat) (f : Rail → Rail) : (s.modRail t f).mem = s.mem := rfl
@[simp] theorem State.modRail_keep (s : State) (t : Nat) (f : Rail → Rail) : (s.modRail t f).keep = s.keep := rfl
@[simp] theorem State.modRail_vetch (s : State) (t : Nat) (f : Rail → Rail) : (s.modRail t f).vetch = s.vetch := rfl
@[simp] theorem State.modRail_xpr (s : State) (t : Nat) (f : Rail → Rail) : (s.modRail t f).xpr = s.xpr := rfl
@[simp] theorem State.modRail_bnt (s : State) (t : Nat) (f : Rail → Rail) : (s.modRail t f).bnt = s.bnt := rfl
@[simp] theorem State.modRail_links (s : State) (t : Nat) (f : Rail → Rail) : (s.modRail t f).links = s.links := rfl
@[simp] theorem State.modRail_power (s : State) (t : Nat) (f : Rail → Rail) : (s.modRail t f).power = { s.power with rails := modifyAt s.power.rails t f } := rfl
@[simp] theorem State.modRail_lif (s : State) (t : Nat) (f : Rail → Rail) : (s.modRail t f).lif = s.lif := rfl
@[simp] theorem State.modRail_fp (s : State) (t : Nat) (f : Rail → Rail) : (s.modRail t f).fp = s.fp := rfl
@[simp] theorem State.modRail_fpInput (s : State) (t : Nat) (f : Rail → Rail) : (s.modRail t f).fpInput = s.fpInput := rfl
@[simp] theorem State.modRail_sec (s : State) (t : Nat) (f : Rail → Rail) : (s.modRail t f).sec = s.sec := rfl
@[simp] theorem State.modRail_upd (s : State) (t : Nat) (f : Rail → Rail) : (s.modRail t f).upd = s.upd := rfl
@[simp] theorem State.modRail_out (s : State) (t : Nat) (f : Rail → Rail) : (s.modRail t f).out = s.out := rfl
@[simp] theorem State.modRail_freeCtr (s : State) (t : Nat) (f : Rail → Rail) : (s.modRail t f).freeCtr = s.freeCtr := rfl
@[simp] theorem State.modRail_pending (s : State) (t : Nat) (f : Rail → Rail) : (s.modRail t f).pending = s.pending := rfl

/-! mapRails -/

@[simp] theorem State.mapRails_part (s : State) (f : Nat → Rail → Rail) : (s.mapRails f).part = s.part := rfl
@[simp] theorem State.mapRails_pins (s : State) (f : Nat → Rail → Rail) : (s.mapRails f).pins = s.pins := rfl
@[simp] theorem State.mapRails_readings (s : State) (f : Nat → Rail → Rail) : (s.mapRails f).readings = s.readings := rfl
@[simp] theorem State.mapRails_smb (s : State) (f : Nat → Rail → Rail) : (s.mapRails f).smb = s.smb := rfl
@[simp] theorem State.mapRails_tap (s : State) (f : Nat → Rail → Rail) : (s.mapRails f).tap = s.tap := rfl
@[simp] theorem State.mapRails_counter (s : State) (f : Nat → Rail → Rail) : (s.mapRails f).counter = s.counter := rfl
@[simp] theorem State.mapRails_wall (s : State) (f : Nat → Rail → Rail) : (s.mapRails f).wall = s.wall := rfl
@[simp] theorem State.mapRails_boot (s : State) (f : Nat → Rail → Rail) : (s.mapRails f).boot = s.boot := rfl
@[simp] theorem State.mapRails_flash0 (s : State) (f : Nat → Rail → Rail) : (s.mapRails f).flash0 = s.flash0 := rfl
@[simp] theorem State.mapRails_flash1 (s : State) (f : Nat → Rail → Rail) : (s.mapRails f).flash1 = s.flash1 := rfl
@[simp] theorem State.mapRails_regs (s : State) (f : Nat → Rail → Rail) : (s.mapRails f).regs = s.regs := rfl
@[simp] theorem State.mapRails_tansy (s : State) (f : Nat → Rail → Rail) : (s.mapRails f).tansy = s.tansy := rfl
@[simp] theorem State.mapRails_jnl (s : State) (f : Nat → Rail → Rail) : (s.mapRails f).jnl = s.jnl := rfl
@[simp] theorem State.mapRails_mgmt (s : State) (f : Nat → Rail → Rail) : (s.mapRails f).mgmt = s.mgmt := rfl
@[simp] theorem State.mapRails_eth (s : State) (f : Nat → Rail → Rail) : (s.mapRails f).eth = s.eth := rfl
@[simp] theorem State.mapRails_cmp (s : State) (f : Nat → Rail → Rail) : (s.mapRails f).cmp = s.cmp := rfl
@[simp] theorem State.mapRails_parts (s : State) (f : Nat → Rail → Rail) : (s.mapRails f).parts = s.parts := rfl
@[simp] theorem State.mapRails_step (s : State) (f : Nat → Rail → Rail) : (s.mapRails f).step = s.step := rfl
@[simp] theorem State.mapRails_filler (s : State) (f : Nat → Rail → Rail) : (s.mapRails f).filler = s.filler := rfl
@[simp] theorem State.mapRails_deferred (s : State) (f : Nat → Rail → Rail) : (s.mapRails f).deferred = s.deferred := rfl
@[simp] theorem State.mapRails_cores (s : State) (f : Nat → Rail → Rail) : (s.mapRails f).cores = s.cores := rfl
@[simp] theorem State.mapRails_clusters (s : State) (f : Nat → Rail → Rail) : (s.mapRails f).clusters = s.clusters := rfl
@[simp] theorem State.mapRails_mem (s : State) (f : Nat → Rail → Rail) : (s.mapRails f).mem = s.mem := rfl
@[simp] theorem State.mapRails_keep (s : State) (f : Nat → Rail → Rail) : (s.mapRails f).keep = s.keep := rfl
@[simp] theorem State.mapRails_vetch (s : State) (f : Nat → Rail → Rail) : (s.mapRails f).vetch = s.vetch := rfl
@[simp] theorem State.mapRails_xpr (s : State) (f : Nat → Rail → Rail) : (s.mapRails f).xpr = s.xpr := rfl
@[simp] theorem State.mapRails_bnt (s : State) (f : Nat → Rail → Rail) : (s.mapRails f).bnt = s.bnt := rfl
@[simp] theorem State.mapRails_links (s : State) (f : Nat → Rail → Rail) : (s.mapRails f).links = s.links := rfl
@[simp] theorem State.mapRails_lif (s : State) (f : Nat → Rail → Rail) : (s.mapRails f).lif = s.lif := rfl
@[simp] theorem State.mapRails_fp (s : State) (f : Nat → Rail → Rail) : (s.mapRails f).fp = s.fp := rfl
@[simp] theorem State.mapRails_fpInput (s : State) (f : Nat → Rail → Rail) : (s.mapRails f).fpInput = s.fpInput := rfl
@[simp] theorem State.mapRails_sec (s : State) (f : Nat → Rail → Rail) : (s.mapRails f).sec = s.sec := rfl
@[simp] theorem State.mapRails_upd (s : State) (f : Nat → Rail → Rail) : (s.mapRails f).upd = s.upd := rfl
@[simp] theorem State.mapRails_out (s : State) (f : Nat → Rail → Rail) : (s.mapRails f).out = s.out := rfl
@[simp] theorem State.mapRails_freeCtr (s : State) (f : Nat → Rail → Rail) : (s.mapRails f).freeCtr = s.freeCtr := rfl
@[simp] theorem State.mapRails_pending (s : State) (f : Nat → Rail → Rail) : (s.mapRails f).pending = s.pending := rfl

/-! modIsland -/

@[simp] theorem State.modIsland_part (s : State) (i : Nat) (f : Island → Island) : (s.modIsland i f).part = s.part := rfl
@[simp] theorem State.modIsland_pins (s : State) (i : Nat) (f : Island → Island) : (s.modIsland i f).pins = s.pins := rfl
@[simp] theorem State.modIsland_readings (s : State) (i : Nat) (f : Island → Island) : (s.modIsland i f).readings = s.readings := rfl
@[simp] theorem State.modIsland_smb (s : State) (i : Nat) (f : Island → Island) : (s.modIsland i f).smb = s.smb := rfl
@[simp] theorem State.modIsland_tap (s : State) (i : Nat) (f : Island → Island) : (s.modIsland i f).tap = s.tap := rfl
@[simp] theorem State.modIsland_counter (s : State) (i : Nat) (f : Island → Island) : (s.modIsland i f).counter = s.counter := rfl
@[simp] theorem State.modIsland_wall (s : State) (i : Nat) (f : Island → Island) : (s.modIsland i f).wall = s.wall := rfl
@[simp] theorem State.modIsland_boot (s : State) (i : Nat) (f : Island → Island) : (s.modIsland i f).boot = s.boot := rfl
@[simp] theorem State.modIsland_flash0 (s : State) (i : Nat) (f : Island → Island) : (s.modIsland i f).flash0 = s.flash0 := rfl
@[simp] theorem State.modIsland_flash1 (s : State) (i : Nat) (f : Island → Island) : (s.modIsland i f).flash1 = s.flash1 := rfl
@[simp] theorem State.modIsland_regs (s : State) (i : Nat) (f : Island → Island) : (s.modIsland i f).regs = s.regs := rfl
@[simp] theorem State.modIsland_tansy (s : State) (i : Nat) (f : Island → Island) : (s.modIsland i f).tansy = s.tansy := rfl
@[simp] theorem State.modIsland_jnl (s : State) (i : Nat) (f : Island → Island) : (s.modIsland i f).jnl = s.jnl := rfl
@[simp] theorem State.modIsland_mgmt (s : State) (i : Nat) (f : Island → Island) : (s.modIsland i f).mgmt = s.mgmt := rfl
@[simp] theorem State.modIsland_eth (s : State) (i : Nat) (f : Island → Island) : (s.modIsland i f).eth = s.eth := rfl
@[simp] theorem State.modIsland_cmp (s : State) (i : Nat) (f : Island → Island) : (s.modIsland i f).cmp = s.cmp := rfl
@[simp] theorem State.modIsland_parts (s : State) (i : Nat) (f : Island → Island) : (s.modIsland i f).parts = s.parts := rfl
@[simp] theorem State.modIsland_step (s : State) (i : Nat) (f : Island → Island) : (s.modIsland i f).step = s.step := rfl
@[simp] theorem State.modIsland_filler (s : State) (i : Nat) (f : Island → Island) : (s.modIsland i f).filler = s.filler := rfl
@[simp] theorem State.modIsland_deferred (s : State) (i : Nat) (f : Island → Island) : (s.modIsland i f).deferred = s.deferred := rfl
@[simp] theorem State.modIsland_cores (s : State) (i : Nat) (f : Island → Island) : (s.modIsland i f).cores = s.cores := rfl
@[simp] theorem State.modIsland_clusters (s : State) (i : Nat) (f : Island → Island) : (s.modIsland i f).clusters = s.clusters := rfl
@[simp] theorem State.modIsland_mem (s : State) (i : Nat) (f : Island → Island) : (s.modIsland i f).mem = s.mem := rfl
@[simp] theorem State.modIsland_keep (s : State) (i : Nat) (f : Island → Island) : (s.modIsland i f).keep = s.keep := rfl
@[simp] theorem State.modIsland_vetch (s : State) (i : Nat) (f : Island → Island) : (s.modIsland i f).vetch = s.vetch := rfl
@[simp] theorem State.modIsland_xpr (s : State) (i : Nat) (f : Island → Island) : (s.modIsland i f).xpr = s.xpr := rfl
@[simp] theorem State.modIsland_bnt (s : State) (i : Nat) (f : Island → Island) : (s.modIsland i f).bnt = s.bnt := rfl
@[simp] theorem State.modIsland_links (s : State) (i : Nat) (f : Island → Island) : (s.modIsland i f).links = s.links := rfl
@[simp] theorem State.modIsland_power (s : State) (i : Nat) (f : Island → Island) : (s.modIsland i f).power = { s.power with islands := modifyAt s.power.islands i f } := rfl
@[simp] theorem State.modIsland_lif (s : State) (i : Nat) (f : Island → Island) : (s.modIsland i f).lif = s.lif := rfl
@[simp] theorem State.modIsland_fp (s : State) (i : Nat) (f : Island → Island) : (s.modIsland i f).fp = s.fp := rfl
@[simp] theorem State.modIsland_fpInput (s : State) (i : Nat) (f : Island → Island) : (s.modIsland i f).fpInput = s.fpInput := rfl
@[simp] theorem State.modIsland_sec (s : State) (i : Nat) (f : Island → Island) : (s.modIsland i f).sec = s.sec := rfl
@[simp] theorem State.modIsland_upd (s : State) (i : Nat) (f : Island → Island) : (s.modIsland i f).upd = s.upd := rfl
@[simp] theorem State.modIsland_out (s : State) (i : Nat) (f : Island → Island) : (s.modIsland i f).out = s.out := rfl
@[simp] theorem State.modIsland_freeCtr (s : State) (i : Nat) (f : Island → Island) : (s.modIsland i f).freeCtr = s.freeCtr := rfl
@[simp] theorem State.modIsland_pending (s : State) (i : Nat) (f : Island → Island) : (s.modIsland i f).pending = s.pending := rfl

/-! mapIslands -/

@[simp] theorem State.mapIslands_part (s : State) (f : Nat → Island → Island) : (s.mapIslands f).part = s.part := rfl
@[simp] theorem State.mapIslands_pins (s : State) (f : Nat → Island → Island) : (s.mapIslands f).pins = s.pins := rfl
@[simp] theorem State.mapIslands_readings (s : State) (f : Nat → Island → Island) : (s.mapIslands f).readings = s.readings := rfl
@[simp] theorem State.mapIslands_smb (s : State) (f : Nat → Island → Island) : (s.mapIslands f).smb = s.smb := rfl
@[simp] theorem State.mapIslands_tap (s : State) (f : Nat → Island → Island) : (s.mapIslands f).tap = s.tap := rfl
@[simp] theorem State.mapIslands_counter (s : State) (f : Nat → Island → Island) : (s.mapIslands f).counter = s.counter := rfl
@[simp] theorem State.mapIslands_wall (s : State) (f : Nat → Island → Island) : (s.mapIslands f).wall = s.wall := rfl
@[simp] theorem State.mapIslands_boot (s : State) (f : Nat → Island → Island) : (s.mapIslands f).boot = s.boot := rfl
@[simp] theorem State.mapIslands_flash0 (s : State) (f : Nat → Island → Island) : (s.mapIslands f).flash0 = s.flash0 := rfl
@[simp] theorem State.mapIslands_flash1 (s : State) (f : Nat → Island → Island) : (s.mapIslands f).flash1 = s.flash1 := rfl
@[simp] theorem State.mapIslands_regs (s : State) (f : Nat → Island → Island) : (s.mapIslands f).regs = s.regs := rfl
@[simp] theorem State.mapIslands_tansy (s : State) (f : Nat → Island → Island) : (s.mapIslands f).tansy = s.tansy := rfl
@[simp] theorem State.mapIslands_jnl (s : State) (f : Nat → Island → Island) : (s.mapIslands f).jnl = s.jnl := rfl
@[simp] theorem State.mapIslands_mgmt (s : State) (f : Nat → Island → Island) : (s.mapIslands f).mgmt = s.mgmt := rfl
@[simp] theorem State.mapIslands_eth (s : State) (f : Nat → Island → Island) : (s.mapIslands f).eth = s.eth := rfl
@[simp] theorem State.mapIslands_cmp (s : State) (f : Nat → Island → Island) : (s.mapIslands f).cmp = s.cmp := rfl
@[simp] theorem State.mapIslands_parts (s : State) (f : Nat → Island → Island) : (s.mapIslands f).parts = s.parts := rfl
@[simp] theorem State.mapIslands_step (s : State) (f : Nat → Island → Island) : (s.mapIslands f).step = s.step := rfl
@[simp] theorem State.mapIslands_filler (s : State) (f : Nat → Island → Island) : (s.mapIslands f).filler = s.filler := rfl
@[simp] theorem State.mapIslands_deferred (s : State) (f : Nat → Island → Island) : (s.mapIslands f).deferred = s.deferred := rfl
@[simp] theorem State.mapIslands_cores (s : State) (f : Nat → Island → Island) : (s.mapIslands f).cores = s.cores := rfl
@[simp] theorem State.mapIslands_clusters (s : State) (f : Nat → Island → Island) : (s.mapIslands f).clusters = s.clusters := rfl
@[simp] theorem State.mapIslands_mem (s : State) (f : Nat → Island → Island) : (s.mapIslands f).mem = s.mem := rfl
@[simp] theorem State.mapIslands_keep (s : State) (f : Nat → Island → Island) : (s.mapIslands f).keep = s.keep := rfl
@[simp] theorem State.mapIslands_vetch (s : State) (f : Nat → Island → Island) : (s.mapIslands f).vetch = s.vetch := rfl
@[simp] theorem State.mapIslands_xpr (s : State) (f : Nat → Island → Island) : (s.mapIslands f).xpr = s.xpr := rfl
@[simp] theorem State.mapIslands_bnt (s : State) (f : Nat → Island → Island) : (s.mapIslands f).bnt = s.bnt := rfl
@[simp] theorem State.mapIslands_links (s : State) (f : Nat → Island → Island) : (s.mapIslands f).links = s.links := rfl
@[simp] theorem State.mapIslands_lif (s : State) (f : Nat → Island → Island) : (s.mapIslands f).lif = s.lif := rfl
@[simp] theorem State.mapIslands_fp (s : State) (f : Nat → Island → Island) : (s.mapIslands f).fp = s.fp := rfl
@[simp] theorem State.mapIslands_fpInput (s : State) (f : Nat → Island → Island) : (s.mapIslands f).fpInput = s.fpInput := rfl
@[simp] theorem State.mapIslands_sec (s : State) (f : Nat → Island → Island) : (s.mapIslands f).sec = s.sec := rfl
@[simp] theorem State.mapIslands_upd (s : State) (f : Nat → Island → Island) : (s.mapIslands f).upd = s.upd := rfl
@[simp] theorem State.mapIslands_out (s : State) (f : Nat → Island → Island) : (s.mapIslands f).out = s.out := rfl
@[simp] theorem State.mapIslands_freeCtr (s : State) (f : Nat → Island → Island) : (s.mapIslands f).freeCtr = s.freeCtr := rfl
@[simp] theorem State.mapIslands_pending (s : State) (f : Nat → Island → Island) : (s.mapIslands f).pending = s.pending := rfl

/-! modSeal -/

@[simp] theorem State.modSeal_part (s : State) (p : Nat) (f : SealPart → SealPart) : (s.modSeal p f).part = s.part := rfl
@[simp] theorem State.modSeal_pins (s : State) (p : Nat) (f : SealPart → SealPart) : (s.modSeal p f).pins = s.pins := rfl
@[simp] theorem State.modSeal_readings (s : State) (p : Nat) (f : SealPart → SealPart) : (s.modSeal p f).readings = s.readings := rfl
@[simp] theorem State.modSeal_smb (s : State) (p : Nat) (f : SealPart → SealPart) : (s.modSeal p f).smb = s.smb := rfl
@[simp] theorem State.modSeal_tap (s : State) (p : Nat) (f : SealPart → SealPart) : (s.modSeal p f).tap = s.tap := rfl
@[simp] theorem State.modSeal_counter (s : State) (p : Nat) (f : SealPart → SealPart) : (s.modSeal p f).counter = s.counter := rfl
@[simp] theorem State.modSeal_wall (s : State) (p : Nat) (f : SealPart → SealPart) : (s.modSeal p f).wall = s.wall := rfl
@[simp] theorem State.modSeal_boot (s : State) (p : Nat) (f : SealPart → SealPart) : (s.modSeal p f).boot = s.boot := rfl
@[simp] theorem State.modSeal_flash0 (s : State) (p : Nat) (f : SealPart → SealPart) : (s.modSeal p f).flash0 = s.flash0 := rfl
@[simp] theorem State.modSeal_flash1 (s : State) (p : Nat) (f : SealPart → SealPart) : (s.modSeal p f).flash1 = s.flash1 := rfl
@[simp] theorem State.modSeal_regs (s : State) (p : Nat) (f : SealPart → SealPart) : (s.modSeal p f).regs = s.regs := rfl
@[simp] theorem State.modSeal_tansy (s : State) (p : Nat) (f : SealPart → SealPart) : (s.modSeal p f).tansy = s.tansy := rfl
@[simp] theorem State.modSeal_jnl (s : State) (p : Nat) (f : SealPart → SealPart) : (s.modSeal p f).jnl = s.jnl := rfl
@[simp] theorem State.modSeal_mgmt (s : State) (p : Nat) (f : SealPart → SealPart) : (s.modSeal p f).mgmt = s.mgmt := rfl
@[simp] theorem State.modSeal_eth (s : State) (p : Nat) (f : SealPart → SealPart) : (s.modSeal p f).eth = s.eth := rfl
@[simp] theorem State.modSeal_cmp (s : State) (p : Nat) (f : SealPart → SealPart) : (s.modSeal p f).cmp = s.cmp := rfl
@[simp] theorem State.modSeal_parts (s : State) (p : Nat) (f : SealPart → SealPart) : (s.modSeal p f).parts = s.parts := rfl
@[simp] theorem State.modSeal_step (s : State) (p : Nat) (f : SealPart → SealPart) : (s.modSeal p f).step = s.step := rfl
@[simp] theorem State.modSeal_filler (s : State) (p : Nat) (f : SealPart → SealPart) : (s.modSeal p f).filler = s.filler := rfl
@[simp] theorem State.modSeal_deferred (s : State) (p : Nat) (f : SealPart → SealPart) : (s.modSeal p f).deferred = s.deferred := rfl
@[simp] theorem State.modSeal_cores (s : State) (p : Nat) (f : SealPart → SealPart) : (s.modSeal p f).cores = s.cores := rfl
@[simp] theorem State.modSeal_clusters (s : State) (p : Nat) (f : SealPart → SealPart) : (s.modSeal p f).clusters = s.clusters := rfl
@[simp] theorem State.modSeal_mem (s : State) (p : Nat) (f : SealPart → SealPart) : (s.modSeal p f).mem = s.mem := rfl
@[simp] theorem State.modSeal_keep (s : State) (p : Nat) (f : SealPart → SealPart) : (s.modSeal p f).keep = s.keep := rfl
@[simp] theorem State.modSeal_vetch (s : State) (p : Nat) (f : SealPart → SealPart) : (s.modSeal p f).vetch = s.vetch := rfl
@[simp] theorem State.modSeal_xpr (s : State) (p : Nat) (f : SealPart → SealPart) : (s.modSeal p f).xpr = s.xpr := rfl
@[simp] theorem State.modSeal_bnt (s : State) (p : Nat) (f : SealPart → SealPart) : (s.modSeal p f).bnt = { s.bnt with sealParts := modifyAt s.bnt.sealParts p f } := rfl
@[simp] theorem State.modSeal_links (s : State) (p : Nat) (f : SealPart → SealPart) : (s.modSeal p f).links = s.links := rfl
@[simp] theorem State.modSeal_power (s : State) (p : Nat) (f : SealPart → SealPart) : (s.modSeal p f).power = s.power := rfl
@[simp] theorem State.modSeal_lif (s : State) (p : Nat) (f : SealPart → SealPart) : (s.modSeal p f).lif = s.lif := rfl
@[simp] theorem State.modSeal_fp (s : State) (p : Nat) (f : SealPart → SealPart) : (s.modSeal p f).fp = s.fp := rfl
@[simp] theorem State.modSeal_fpInput (s : State) (p : Nat) (f : SealPart → SealPart) : (s.modSeal p f).fpInput = s.fpInput := rfl
@[simp] theorem State.modSeal_sec (s : State) (p : Nat) (f : SealPart → SealPart) : (s.modSeal p f).sec = s.sec := rfl
@[simp] theorem State.modSeal_upd (s : State) (p : Nat) (f : SealPart → SealPart) : (s.modSeal p f).upd = s.upd := rfl
@[simp] theorem State.modSeal_out (s : State) (p : Nat) (f : SealPart → SealPart) : (s.modSeal p f).out = s.out := rfl
@[simp] theorem State.modSeal_freeCtr (s : State) (p : Nat) (f : SealPart → SealPart) : (s.modSeal p f).freeCtr = s.freeCtr := rfl
@[simp] theorem State.modSeal_pending (s : State) (p : Nat) (f : SealPart → SealPart) : (s.modSeal p f).pending = s.pending := rfl

/-! jnlEntry -/

@[simp] theorem State.jnlEntry_part (s : State) (c : Cmd) (k : EntryKind) (st : Status) (n : Nat) : (s.jnlEntry c k st n).part = s.part := rfl
@[simp] theorem State.jnlEntry_pins (s : State) (c : Cmd) (k : EntryKind) (st : Status) (n : Nat) : (s.jnlEntry c k st n).pins = s.pins := rfl
@[simp] theorem State.jnlEntry_readings (s : State) (c : Cmd) (k : EntryKind) (st : Status) (n : Nat) : (s.jnlEntry c k st n).readings = s.readings := rfl
@[simp] theorem State.jnlEntry_smb (s : State) (c : Cmd) (k : EntryKind) (st : Status) (n : Nat) : (s.jnlEntry c k st n).smb = s.smb := rfl
@[simp] theorem State.jnlEntry_tap (s : State) (c : Cmd) (k : EntryKind) (st : Status) (n : Nat) : (s.jnlEntry c k st n).tap = s.tap := rfl
@[simp] theorem State.jnlEntry_counter (s : State) (c : Cmd) (k : EntryKind) (st : Status) (n : Nat) : (s.jnlEntry c k st n).counter = s.counter := rfl
@[simp] theorem State.jnlEntry_wall (s : State) (c : Cmd) (k : EntryKind) (st : Status) (n : Nat) : (s.jnlEntry c k st n).wall = s.wall := rfl
@[simp] theorem State.jnlEntry_boot (s : State) (c : Cmd) (k : EntryKind) (st : Status) (n : Nat) : (s.jnlEntry c k st n).boot = s.boot := rfl
@[simp] theorem State.jnlEntry_flash0 (s : State) (c : Cmd) (k : EntryKind) (st : Status) (n : Nat) : (s.jnlEntry c k st n).flash0 = s.flash0 := rfl
@[simp] theorem State.jnlEntry_flash1 (s : State) (c : Cmd) (k : EntryKind) (st : Status) (n : Nat) : (s.jnlEntry c k st n).flash1 = s.flash1 := rfl
@[simp] theorem State.jnlEntry_regs (s : State) (c : Cmd) (k : EntryKind) (st : Status) (n : Nat) : (s.jnlEntry c k st n).regs = s.regs := rfl
@[simp] theorem State.jnlEntry_tansy (s : State) (c : Cmd) (k : EntryKind) (st : Status) (n : Nat) : (s.jnlEntry c k st n).tansy = s.tansy := rfl
@[simp] theorem State.jnlEntry_jnl (s : State) (c : Cmd) (k : EntryKind) (st : Status) (n : Nat) : (s.jnlEntry c k st n).jnl = s.jnl.append (c.entry (s.jnl.last + 1) k st.code n) := rfl
@[simp] theorem State.jnlEntry_mgmt (s : State) (c : Cmd) (k : EntryKind) (st : Status) (n : Nat) : (s.jnlEntry c k st n).mgmt = s.mgmt := rfl
@[simp] theorem State.jnlEntry_eth (s : State) (c : Cmd) (k : EntryKind) (st : Status) (n : Nat) : (s.jnlEntry c k st n).eth = s.eth := rfl
@[simp] theorem State.jnlEntry_cmp (s : State) (c : Cmd) (k : EntryKind) (st : Status) (n : Nat) : (s.jnlEntry c k st n).cmp = s.cmp := rfl
@[simp] theorem State.jnlEntry_parts (s : State) (c : Cmd) (k : EntryKind) (st : Status) (n : Nat) : (s.jnlEntry c k st n).parts = s.parts := rfl
@[simp] theorem State.jnlEntry_step (s : State) (c : Cmd) (k : EntryKind) (st : Status) (n : Nat) : (s.jnlEntry c k st n).step = s.step := rfl
@[simp] theorem State.jnlEntry_filler (s : State) (c : Cmd) (k : EntryKind) (st : Status) (n : Nat) : (s.jnlEntry c k st n).filler = s.filler := rfl
@[simp] theorem State.jnlEntry_deferred (s : State) (c : Cmd) (k : EntryKind) (st : Status) (n : Nat) : (s.jnlEntry c k st n).deferred = s.deferred := rfl
@[simp] theorem State.jnlEntry_cores (s : State) (c : Cmd) (k : EntryKind) (st : Status) (n : Nat) : (s.jnlEntry c k st n).cores = s.cores := rfl
@[simp] theorem State.jnlEntry_clusters (s : State) (c : Cmd) (k : EntryKind) (st : Status) (n : Nat) : (s.jnlEntry c k st n).clusters = s.clusters := rfl
@[simp] theorem State.jnlEntry_mem (s : State) (c : Cmd) (k : EntryKind) (st : Status) (n : Nat) : (s.jnlEntry c k st n).mem = s.mem := rfl
@[simp] theorem State.jnlEntry_keep (s : State) (c : Cmd) (k : EntryKind) (st : Status) (n : Nat) : (s.jnlEntry c k st n).keep = s.keep := rfl
@[simp] theorem State.jnlEntry_vetch (s : State) (c : Cmd) (k : EntryKind) (st : Status) (n : Nat) : (s.jnlEntry c k st n).vetch = s.vetch := rfl
@[simp] theorem State.jnlEntry_xpr (s : State) (c : Cmd) (k : EntryKind) (st : Status) (n : Nat) : (s.jnlEntry c k st n).xpr = s.xpr := rfl
@[simp] theorem State.jnlEntry_bnt (s : State) (c : Cmd) (k : EntryKind) (st : Status) (n : Nat) : (s.jnlEntry c k st n).bnt = s.bnt := rfl
@[simp] theorem State.jnlEntry_links (s : State) (c : Cmd) (k : EntryKind) (st : Status) (n : Nat) : (s.jnlEntry c k st n).links = s.links := rfl
@[simp] theorem State.jnlEntry_power (s : State) (c : Cmd) (k : EntryKind) (st : Status) (n : Nat) : (s.jnlEntry c k st n).power = s.power := rfl
@[simp] theorem State.jnlEntry_lif (s : State) (c : Cmd) (k : EntryKind) (st : Status) (n : Nat) : (s.jnlEntry c k st n).lif = s.lif := rfl
@[simp] theorem State.jnlEntry_fp (s : State) (c : Cmd) (k : EntryKind) (st : Status) (n : Nat) : (s.jnlEntry c k st n).fp = s.fp := rfl
@[simp] theorem State.jnlEntry_fpInput (s : State) (c : Cmd) (k : EntryKind) (st : Status) (n : Nat) : (s.jnlEntry c k st n).fpInput = s.fpInput := rfl
@[simp] theorem State.jnlEntry_sec (s : State) (c : Cmd) (k : EntryKind) (st : Status) (n : Nat) : (s.jnlEntry c k st n).sec = s.sec := rfl
@[simp] theorem State.jnlEntry_upd (s : State) (c : Cmd) (k : EntryKind) (st : Status) (n : Nat) : (s.jnlEntry c k st n).upd = s.upd := rfl
@[simp] theorem State.jnlEntry_out (s : State) (c : Cmd) (k : EntryKind) (st : Status) (n : Nat) : (s.jnlEntry c k st n).out = s.out := rfl
@[simp] theorem State.jnlEntry_freeCtr (s : State) (c : Cmd) (k : EntryKind) (st : Status) (n : Nat) : (s.jnlEntry c k st n).freeCtr = s.freeCtr := rfl
@[simp] theorem State.jnlEntry_pending (s : State) (c : Cmd) (k : EntryKind) (st : Status) (n : Nat) : (s.jnlEntry c k st n).pending = s.pending := rfl

/-! emit -/

@[simp] theorem State.emit_part (s : State) (o : Out) : (s.emit o).part = s.part := rfl
@[simp] theorem State.emit_pins (s : State) (o : Out) : (s.emit o).pins = s.pins := rfl
@[simp] theorem State.emit_readings (s : State) (o : Out) : (s.emit o).readings = s.readings := rfl
@[simp] theorem State.emit_smb (s : State) (o : Out) : (s.emit o).smb = s.smb := rfl
@[simp] theorem State.emit_tap (s : State) (o : Out) : (s.emit o).tap = s.tap := rfl
@[simp] theorem State.emit_counter (s : State) (o : Out) : (s.emit o).counter = s.counter := rfl
@[simp] theorem State.emit_wall (s : State) (o : Out) : (s.emit o).wall = s.wall := rfl
@[simp] theorem State.emit_boot (s : State) (o : Out) : (s.emit o).boot = s.boot := rfl
@[simp] theorem State.emit_flash0 (s : State) (o : Out) : (s.emit o).flash0 = s.flash0 := rfl
@[simp] theorem State.emit_flash1 (s : State) (o : Out) : (s.emit o).flash1 = s.flash1 := rfl
@[simp] theorem State.emit_regs (s : State) (o : Out) : (s.emit o).regs = s.regs := rfl
@[simp] theorem State.emit_tansy (s : State) (o : Out) : (s.emit o).tansy = s.tansy := rfl
@[simp] theorem State.emit_jnl (s : State) (o : Out) : (s.emit o).jnl = s.jnl := rfl
@[simp] theorem State.emit_mgmt (s : State) (o : Out) : (s.emit o).mgmt = s.mgmt := rfl
@[simp] theorem State.emit_eth (s : State) (o : Out) : (s.emit o).eth = s.eth := rfl
@[simp] theorem State.emit_cmp (s : State) (o : Out) : (s.emit o).cmp = s.cmp := rfl
@[simp] theorem State.emit_parts (s : State) (o : Out) : (s.emit o).parts = s.parts := rfl
@[simp] theorem State.emit_step (s : State) (o : Out) : (s.emit o).step = s.step := rfl
@[simp] theorem State.emit_filler (s : State) (o : Out) : (s.emit o).filler = s.filler := rfl
@[simp] theorem State.emit_deferred (s : State) (o : Out) : (s.emit o).deferred = s.deferred := rfl
@[simp] theorem State.emit_cores (s : State) (o : Out) : (s.emit o).cores = s.cores := rfl
@[simp] theorem State.emit_clusters (s : State) (o : Out) : (s.emit o).clusters = s.clusters := rfl
@[simp] theorem State.emit_mem (s : State) (o : Out) : (s.emit o).mem = s.mem := rfl
@[simp] theorem State.emit_keep (s : State) (o : Out) : (s.emit o).keep = s.keep := rfl
@[simp] theorem State.emit_vetch (s : State) (o : Out) : (s.emit o).vetch = s.vetch := rfl
@[simp] theorem State.emit_xpr (s : State) (o : Out) : (s.emit o).xpr = s.xpr := rfl
@[simp] theorem State.emit_bnt (s : State) (o : Out) : (s.emit o).bnt = s.bnt := rfl
@[simp] theorem State.emit_links (s : State) (o : Out) : (s.emit o).links = s.links := rfl
@[simp] theorem State.emit_power (s : State) (o : Out) : (s.emit o).power = s.power := rfl
@[simp] theorem State.emit_lif (s : State) (o : Out) : (s.emit o).lif = s.lif := rfl
@[simp] theorem State.emit_fp (s : State) (o : Out) : (s.emit o).fp = s.fp := rfl
@[simp] theorem State.emit_fpInput (s : State) (o : Out) : (s.emit o).fpInput = s.fpInput := rfl
@[simp] theorem State.emit_sec (s : State) (o : Out) : (s.emit o).sec = s.sec := rfl
@[simp] theorem State.emit_upd (s : State) (o : Out) : (s.emit o).upd = s.upd := rfl
@[simp] theorem State.emit_out (s : State) (o : Out) : (s.emit o).out = s.out ++ [o] := rfl
@[simp] theorem State.emit_freeCtr (s : State) (o : Out) : (s.emit o).freeCtr = s.freeCtr := rfl
@[simp] theorem State.emit_pending (s : State) (o : Out) : (s.emit o).pending = s.pending := rfl

/-! spareChanged -/

@[simp] theorem State.spareChanged_part (s : State) : s.spareChanged.part = s.part := rfl
@[simp] theorem State.spareChanged_pins (s : State) : s.spareChanged.pins = s.pins := rfl
@[simp] theorem State.spareChanged_readings (s : State) : s.spareChanged.readings = s.readings := rfl
@[simp] theorem State.spareChanged_smb (s : State) : s.spareChanged.smb = s.smb := rfl
@[simp] theorem State.spareChanged_tap (s : State) : s.spareChanged.tap = s.tap := rfl
@[simp] theorem State.spareChanged_counter (s : State) : s.spareChanged.counter = s.counter := rfl
@[simp] theorem State.spareChanged_wall (s : State) : s.spareChanged.wall = s.wall := rfl
@[simp] theorem State.spareChanged_boot (s : State) : s.spareChanged.boot = s.boot := rfl
@[simp] theorem State.spareChanged_flash0 (s : State) : s.spareChanged.flash0 = s.flash0 := rfl
@[simp] theorem State.spareChanged_flash1 (s : State) : s.spareChanged.flash1 = s.flash1 := rfl
@[simp] theorem State.spareChanged_regs (s : State) : s.spareChanged.regs = s.regs := rfl
@[simp] theorem State.spareChanged_tansy (s : State) : s.spareChanged.tansy = s.tansy := rfl
@[simp] theorem State.spareChanged_jnl (s : State) : s.spareChanged.jnl = s.jnl := rfl
@[simp] theorem State.spareChanged_mgmt (s : State) : s.spareChanged.mgmt = s.mgmt := rfl
@[simp] theorem State.spareChanged_eth (s : State) : s.spareChanged.eth = s.eth := rfl
@[simp] theorem State.spareChanged_cmp (s : State) : s.spareChanged.cmp = s.cmp := rfl
@[simp] theorem State.spareChanged_parts (s : State) : s.spareChanged.parts = s.parts := rfl
@[simp] theorem State.spareChanged_step (s : State) : s.spareChanged.step = s.step := rfl
@[simp] theorem State.spareChanged_filler (s : State) : s.spareChanged.filler = s.filler := rfl
@[simp] theorem State.spareChanged_deferred (s : State) : s.spareChanged.deferred = s.deferred := rfl
@[simp] theorem State.spareChanged_cores (s : State) : s.spareChanged.cores = s.cores := rfl
@[simp] theorem State.spareChanged_clusters (s : State) : s.spareChanged.clusters = s.clusters := rfl
@[simp] theorem State.spareChanged_mem (s : State) : s.spareChanged.mem = s.mem := rfl
@[simp] theorem State.spareChanged_keep (s : State) : s.spareChanged.keep = s.keep := rfl
@[simp] theorem State.spareChanged_vetch (s : State) : s.spareChanged.vetch = s.vetch := rfl
@[simp] theorem State.spareChanged_xpr (s : State) : s.spareChanged.xpr = s.xpr := rfl
@[simp] theorem State.spareChanged_bnt (s : State) : s.spareChanged.bnt = s.bnt := rfl
@[simp] theorem State.spareChanged_links (s : State) : s.spareChanged.links = s.links := rfl
@[simp] theorem State.spareChanged_power (s : State) : s.spareChanged.power = s.power := rfl
@[simp] theorem State.spareChanged_lif (s : State) : s.spareChanged.lif = { s.lif with spareBuild := .building } := rfl
@[simp] theorem State.spareChanged_fp (s : State) : s.spareChanged.fp = s.fp := rfl
@[simp] theorem State.spareChanged_fpInput (s : State) : s.spareChanged.fpInput = s.fpInput := rfl
@[simp] theorem State.spareChanged_sec (s : State) : s.spareChanged.sec = s.sec := rfl
@[simp] theorem State.spareChanged_upd (s : State) : s.spareChanged.upd = s.upd := rfl
@[simp] theorem State.spareChanged_out (s : State) : s.spareChanged.out = s.out := rfl
@[simp] theorem State.spareChanged_freeCtr (s : State) : s.spareChanged.freeCtr = s.freeCtr := rfl
@[simp] theorem State.spareChanged_pending (s : State) : s.spareChanged.pending = s.pending := rfl

/-! stepDone -/

@[simp] theorem State.stepDone_part (s : State) (n : Nat) : (s.stepDone n).part = s.part := rfl
@[simp] theorem State.stepDone_pins (s : State) (n : Nat) : (s.stepDone n).pins = s.pins := rfl
@[simp] theorem State.stepDone_readings (s : State) (n : Nat) : (s.stepDone n).readings = s.readings := rfl
@[simp] theorem State.stepDone_smb (s : State) (n : Nat) : (s.stepDone n).smb = s.smb := rfl
@[simp] theorem State.stepDone_tap (s : State) (n : Nat) : (s.stepDone n).tap = s.tap := rfl
@[simp] theorem State.stepDone_counter (s : State) (n : Nat) : (s.stepDone n).counter = s.counter := rfl
@[simp] theorem State.stepDone_wall (s : State) (n : Nat) : (s.stepDone n).wall = s.wall := rfl
@[simp] theorem State.stepDone_boot (s : State) (n : Nat) : (s.stepDone n).boot = { s.boot with step := n } := rfl
@[simp] theorem State.stepDone_flash0 (s : State) (n : Nat) : (s.stepDone n).flash0 = s.flash0 := rfl
@[simp] theorem State.stepDone_flash1 (s : State) (n : Nat) : (s.stepDone n).flash1 = s.flash1 := rfl
@[simp] theorem State.stepDone_regs (s : State) (n : Nat) : (s.stepDone n).regs = s.regs := rfl
@[simp] theorem State.stepDone_tansy (s : State) (n : Nat) : (s.stepDone n).tansy = s.tansy := rfl
@[simp] theorem State.stepDone_jnl (s : State) (n : Nat) : (s.stepDone n).jnl = s.jnl := rfl
@[simp] theorem State.stepDone_mgmt (s : State) (n : Nat) : (s.stepDone n).mgmt = s.mgmt := rfl
@[simp] theorem State.stepDone_eth (s : State) (n : Nat) : (s.stepDone n).eth = s.eth := rfl
@[simp] theorem State.stepDone_cmp (s : State) (n : Nat) : (s.stepDone n).cmp = s.cmp := rfl
@[simp] theorem State.stepDone_parts (s : State) (n : Nat) : (s.stepDone n).parts = s.parts := rfl
@[simp] theorem State.stepDone_step (s : State) (n : Nat) : (s.stepDone n).step = s.step := rfl
@[simp] theorem State.stepDone_filler (s : State) (n : Nat) : (s.stepDone n).filler = s.filler := rfl
@[simp] theorem State.stepDone_deferred (s : State) (n : Nat) : (s.stepDone n).deferred = s.deferred := rfl
@[simp] theorem State.stepDone_cores (s : State) (n : Nat) : (s.stepDone n).cores = s.cores := rfl
@[simp] theorem State.stepDone_clusters (s : State) (n : Nat) : (s.stepDone n).clusters = s.clusters := rfl
@[simp] theorem State.stepDone_mem (s : State) (n : Nat) : (s.stepDone n).mem = s.mem := rfl
@[simp] theorem State.stepDone_keep (s : State) (n : Nat) : (s.stepDone n).keep = s.keep := rfl
@[simp] theorem State.stepDone_vetch (s : State) (n : Nat) : (s.stepDone n).vetch = s.vetch := rfl
@[simp] theorem State.stepDone_xpr (s : State) (n : Nat) : (s.stepDone n).xpr = s.xpr := rfl
@[simp] theorem State.stepDone_bnt (s : State) (n : Nat) : (s.stepDone n).bnt = s.bnt := rfl
@[simp] theorem State.stepDone_links (s : State) (n : Nat) : (s.stepDone n).links = s.links := rfl
@[simp] theorem State.stepDone_power (s : State) (n : Nat) : (s.stepDone n).power = s.power := rfl
@[simp] theorem State.stepDone_lif (s : State) (n : Nat) : (s.stepDone n).lif = s.lif := rfl
@[simp] theorem State.stepDone_fp (s : State) (n : Nat) : (s.stepDone n).fp = s.fp := rfl
@[simp] theorem State.stepDone_fpInput (s : State) (n : Nat) : (s.stepDone n).fpInput = s.fpInput := rfl
@[simp] theorem State.stepDone_sec (s : State) (n : Nat) : (s.stepDone n).sec = s.sec := rfl
@[simp] theorem State.stepDone_upd (s : State) (n : Nat) : (s.stepDone n).upd = s.upd := rfl
@[simp] theorem State.stepDone_out (s : State) (n : Nat) : (s.stepDone n).out = s.out := rfl
@[simp] theorem State.stepDone_freeCtr (s : State) (n : Nat) : (s.stepDone n).freeCtr = s.freeCtr := rfl
@[simp] theorem State.stepDone_pending (s : State) (n : Nat) : (s.stepDone n).pending = s.pending := rfl

/-! addRetry -/

@[simp] theorem State.addRetry_part (s : State) (n : Nat) : (s.addRetry n).part = s.part := rfl
@[simp] theorem State.addRetry_pins (s : State) (n : Nat) : (s.addRetry n).pins = s.pins := rfl
@[simp] theorem State.addRetry_readings (s : State) (n : Nat) : (s.addRetry n).readings = s.readings := rfl
@[simp] theorem State.addRetry_smb (s : State) (n : Nat) : (s.addRetry n).smb = s.smb := rfl
@[simp] theorem State.addRetry_tap (s : State) (n : Nat) : (s.addRetry n).tap = s.tap := rfl
@[simp] theorem State.addRetry_counter (s : State) (n : Nat) : (s.addRetry n).counter = s.counter := rfl
@[simp] theorem State.addRetry_wall (s : State) (n : Nat) : (s.addRetry n).wall = s.wall := rfl
@[simp] theorem State.addRetry_boot (s : State) (n : Nat) : (s.addRetry n).boot = s.boot := rfl
@[simp] theorem State.addRetry_flash0 (s : State) (n : Nat) : (s.addRetry n).flash0 = s.flash0 := rfl
@[simp] theorem State.addRetry_flash1 (s : State) (n : Nat) : (s.addRetry n).flash1 = s.flash1 := rfl
@[simp] theorem State.addRetry_regs (s : State) (n : Nat) : (s.addRetry n).regs = regAdd s.regs Reg.lnkRetryNs n := rfl
@[simp] theorem State.addRetry_tansy (s : State) (n : Nat) : (s.addRetry n).tansy = s.tansy := rfl
@[simp] theorem State.addRetry_jnl (s : State) (n : Nat) : (s.addRetry n).jnl = s.jnl := rfl
@[simp] theorem State.addRetry_mgmt (s : State) (n : Nat) : (s.addRetry n).mgmt = s.mgmt := rfl
@[simp] theorem State.addRetry_eth (s : State) (n : Nat) : (s.addRetry n).eth = s.eth := rfl
@[simp] theorem State.addRetry_cmp (s : State) (n : Nat) : (s.addRetry n).cmp = s.cmp := rfl
@[simp] theorem State.addRetry_parts (s : State) (n : Nat) : (s.addRetry n).parts = s.parts := rfl
@[simp] theorem State.addRetry_step (s : State) (n : Nat) : (s.addRetry n).step = s.step := rfl
@[simp] theorem State.addRetry_filler (s : State) (n : Nat) : (s.addRetry n).filler = s.filler := rfl
@[simp] theorem State.addRetry_deferred (s : State) (n : Nat) : (s.addRetry n).deferred = s.deferred := rfl
@[simp] theorem State.addRetry_cores (s : State) (n : Nat) : (s.addRetry n).cores = s.cores := rfl
@[simp] theorem State.addRetry_clusters (s : State) (n : Nat) : (s.addRetry n).clusters = s.clusters := rfl
@[simp] theorem State.addRetry_mem (s : State) (n : Nat) : (s.addRetry n).mem = s.mem := rfl
@[simp] theorem State.addRetry_keep (s : State) (n : Nat) : (s.addRetry n).keep = s.keep := rfl
@[simp] theorem State.addRetry_vetch (s : State) (n : Nat) : (s.addRetry n).vetch = s.vetch := rfl
@[simp] theorem State.addRetry_xpr (s : State) (n : Nat) : (s.addRetry n).xpr = s.xpr := rfl
@[simp] theorem State.addRetry_bnt (s : State) (n : Nat) : (s.addRetry n).bnt = s.bnt := rfl
@[simp] theorem State.addRetry_links (s : State) (n : Nat) : (s.addRetry n).links = { s.links with retryNs := s.links.retryNs + n } := rfl
@[simp] theorem State.addRetry_power (s : State) (n : Nat) : (s.addRetry n).power = s.power := rfl
@[simp] theorem State.addRetry_lif (s : State) (n : Nat) : (s.addRetry n).lif = s.lif := rfl
@[simp] theorem State.addRetry_fp (s : State) (n : Nat) : (s.addRetry n).fp = s.fp := rfl
@[simp] theorem State.addRetry_fpInput (s : State) (n : Nat) : (s.addRetry n).fpInput = s.fpInput := rfl
@[simp] theorem State.addRetry_sec (s : State) (n : Nat) : (s.addRetry n).sec = s.sec := rfl
@[simp] theorem State.addRetry_upd (s : State) (n : Nat) : (s.addRetry n).upd = s.upd := rfl
@[simp] theorem State.addRetry_out (s : State) (n : Nat) : (s.addRetry n).out = s.out := rfl
@[simp] theorem State.addRetry_freeCtr (s : State) (n : Nat) : (s.addRetry n).freeCtr = s.freeCtr := rfl
@[simp] theorem State.addRetry_pending (s : State) (n : Nat) : (s.addRetry n).pending = s.pending := rfl

/-! event -/

@[simp] theorem State.event_part (s : State) (e : Event) : (s.event e).part = s.part := rfl
@[simp] theorem State.event_pins (s : State) (e : Event) : (s.event e).pins = s.pins := rfl
@[simp] theorem State.event_readings (s : State) (e : Event) : (s.event e).readings = s.readings := rfl
@[simp] theorem State.event_smb (s : State) (e : Event) : (s.event e).smb = s.smb := rfl
@[simp] theorem State.event_tap (s : State) (e : Event) : (s.event e).tap = s.tap := rfl
@[simp] theorem State.event_counter (s : State) (e : Event) : (s.event e).counter = s.counter := rfl
@[simp] theorem State.event_wall (s : State) (e : Event) : (s.event e).wall = s.wall := rfl
@[simp] theorem State.event_boot (s : State) (e : Event) : (s.event e).boot = s.boot := rfl
@[simp] theorem State.event_flash1 (s : State) (e : Event) : (s.event e).flash1 = s.flash1 := rfl
@[simp] theorem State.event_jnl (s : State) (e : Event) : (s.event e).jnl = s.jnl := rfl
@[simp] theorem State.event_mgmt (s : State) (e : Event) : (s.event e).mgmt = s.mgmt := rfl
@[simp] theorem State.event_eth (s : State) (e : Event) : (s.event e).eth = s.eth := rfl
@[simp] theorem State.event_cmp (s : State) (e : Event) : (s.event e).cmp = s.cmp := rfl
@[simp] theorem State.event_parts (s : State) (e : Event) : (s.event e).parts = s.parts := rfl
@[simp] theorem State.event_step (s : State) (e : Event) : (s.event e).step = s.step := rfl
@[simp] theorem State.event_filler (s : State) (e : Event) : (s.event e).filler = s.filler := rfl
@[simp] theorem State.event_deferred (s : State) (e : Event) : (s.event e).deferred = s.deferred := rfl
@[simp] theorem State.event_cores (s : State) (e : Event) : (s.event e).cores = s.cores := rfl
@[simp] theorem State.event_clusters (s : State) (e : Event) : (s.event e).clusters = s.clusters := rfl
@[simp] theorem State.event_mem (s : State) (e : Event) : (s.event e).mem = s.mem := rfl
@[simp] theorem State.event_keep (s : State) (e : Event) : (s.event e).keep = s.keep := rfl
@[simp] theorem State.event_vetch (s : State) (e : Event) : (s.event e).vetch = s.vetch := rfl
@[simp] theorem State.event_xpr (s : State) (e : Event) : (s.event e).xpr = s.xpr := rfl
@[simp] theorem State.event_bnt (s : State) (e : Event) : (s.event e).bnt = s.bnt := rfl
@[simp] theorem State.event_links (s : State) (e : Event) : (s.event e).links = s.links := rfl
@[simp] theorem State.event_power (s : State) (e : Event) : (s.event e).power = s.power := rfl
@[simp] theorem State.event_lif (s : State) (e : Event) : (s.event e).lif = s.lif := rfl
@[simp] theorem State.event_fp (s : State) (e : Event) : (s.event e).fp = s.fp := rfl
@[simp] theorem State.event_fpInput (s : State) (e : Event) : (s.event e).fpInput = s.fpInput := rfl
@[simp] theorem State.event_sec (s : State) (e : Event) : (s.event e).sec = s.sec := rfl
@[simp] theorem State.event_upd (s : State) (e : Event) : (s.event e).upd = s.upd := rfl
@[simp] theorem State.event_out (s : State) (e : Event) : (s.event e).out = s.out := rfl
@[simp] theorem State.event_freeCtr (s : State) (e : Event) : (s.event e).freeCtr = s.freeCtr := rfl
@[simp] theorem State.event_pending (s : State) (e : Event) : (s.event e).pending = s.pending := rfl

/-! note -/

@[simp] theorem State.note_part (s : State) (st : Status) (as : List Nat) : (s.note st as).part = s.part := rfl
@[simp] theorem State.note_pins (s : State) (st : Status) (as : List Nat) : (s.note st as).pins = s.pins := rfl
@[simp] theorem State.note_readings (s : State) (st : Status) (as : List Nat) : (s.note st as).readings = s.readings := rfl
@[simp] theorem State.note_smb (s : State) (st : Status) (as : List Nat) : (s.note st as).smb = s.smb := rfl
@[simp] theorem State.note_tap (s : State) (st : Status) (as : List Nat) : (s.note st as).tap = s.tap := rfl
@[simp] theorem State.note_counter (s : State) (st : Status) (as : List Nat) : (s.note st as).counter = s.counter := rfl
@[simp] theorem State.note_wall (s : State) (st : Status) (as : List Nat) : (s.note st as).wall = s.wall := rfl
@[simp] theorem State.note_boot (s : State) (st : Status) (as : List Nat) : (s.note st as).boot = s.boot := rfl
@[simp] theorem State.note_flash1 (s : State) (st : Status) (as : List Nat) : (s.note st as).flash1 = s.flash1 := rfl
@[simp] theorem State.note_jnl (s : State) (st : Status) (as : List Nat) : (s.note st as).jnl = s.jnl := rfl
@[simp] theorem State.note_mgmt (s : State) (st : Status) (as : List Nat) : (s.note st as).mgmt = s.mgmt := rfl
@[simp] theorem State.note_eth (s : State) (st : Status) (as : List Nat) : (s.note st as).eth = s.eth := rfl
@[simp] theorem State.note_cmp (s : State) (st : Status) (as : List Nat) : (s.note st as).cmp = s.cmp := rfl
@[simp] theorem State.note_parts (s : State) (st : Status) (as : List Nat) : (s.note st as).parts = s.parts := rfl
@[simp] theorem State.note_step (s : State) (st : Status) (as : List Nat) : (s.note st as).step = s.step := rfl
@[simp] theorem State.note_filler (s : State) (st : Status) (as : List Nat) : (s.note st as).filler = s.filler := rfl
@[simp] theorem State.note_deferred (s : State) (st : Status) (as : List Nat) : (s.note st as).deferred = s.deferred := rfl
@[simp] theorem State.note_cores (s : State) (st : Status) (as : List Nat) : (s.note st as).cores = s.cores := rfl
@[simp] theorem State.note_clusters (s : State) (st : Status) (as : List Nat) : (s.note st as).clusters = s.clusters := rfl
@[simp] theorem State.note_mem (s : State) (st : Status) (as : List Nat) : (s.note st as).mem = s.mem := rfl
@[simp] theorem State.note_keep (s : State) (st : Status) (as : List Nat) : (s.note st as).keep = s.keep := rfl
@[simp] theorem State.note_vetch (s : State) (st : Status) (as : List Nat) : (s.note st as).vetch = s.vetch := rfl
@[simp] theorem State.note_xpr (s : State) (st : Status) (as : List Nat) : (s.note st as).xpr = s.xpr := rfl
@[simp] theorem State.note_bnt (s : State) (st : Status) (as : List Nat) : (s.note st as).bnt = s.bnt := rfl
@[simp] theorem State.note_links (s : State) (st : Status) (as : List Nat) : (s.note st as).links = s.links := rfl
@[simp] theorem State.note_power (s : State) (st : Status) (as : List Nat) : (s.note st as).power = s.power := rfl
@[simp] theorem State.note_lif (s : State) (st : Status) (as : List Nat) : (s.note st as).lif = s.lif := rfl
@[simp] theorem State.note_fp (s : State) (st : Status) (as : List Nat) : (s.note st as).fp = s.fp := rfl
@[simp] theorem State.note_fpInput (s : State) (st : Status) (as : List Nat) : (s.note st as).fpInput = s.fpInput := rfl
@[simp] theorem State.note_sec (s : State) (st : Status) (as : List Nat) : (s.note st as).sec = s.sec := rfl
@[simp] theorem State.note_upd (s : State) (st : Status) (as : List Nat) : (s.note st as).upd = s.upd := rfl
@[simp] theorem State.note_out (s : State) (st : Status) (as : List Nat) : (s.note st as).out = s.out := rfl
@[simp] theorem State.note_freeCtr (s : State) (st : Status) (as : List Nat) : (s.note st as).freeCtr = s.freeCtr := rfl
@[simp] theorem State.note_pending (s : State) (st : Status) (as : List Nat) : (s.note st as).pending = s.pending := rfl

end Sys2Proof.Machine
end

