-- ==== Sys2Proof/Laws/Ops.lean ====
section
/-! SUPPORT. Sys2Proof/Laws/Ops.lean: what each shared operation can do, said once: the frame of sending, of recording an event, of the
journal and the queues; the cases of running a command or taking a frame; and that each keeps the stores in their canonical form. -/

namespace Sys2Proof.Machine

open Sys2Proof

/-! Events and counters. -/

/-- Recording an event writes Tansy, its flash spill and the registers, nothing else. -/
theorem State.event_frame (s : State) (e : Event) :
    s.event e = { s with tansy := (s.event e).tansy, flash0 := (s.event e).flash0, regs := (s.event e).regs } := by
  rfl

theorem State.note_frame (s : State) (st : Status) (args : List Nat) :
    s.note st args = { s with tansy := (s.note st args).tansy, flash0 := (s.note st args).flash0, regs := (s.note st args).regs } :=
  State.event_frame ..

theorem State.events_frame (s : State) (es : List Event) :
    s.events es = { s with tansy := (s.events es).tansy, flash0 := (s.events es).flash0, regs := (s.events es).regs } := rfl

/-! Frames out. -/

/-- What sending may change: what went out, the Ethernet queues, the sessions, the registers. -/
def State.sent (s t : State) : Prop :=
  t = { s with out := t.out, eth := t.eth, regs := t.regs, cmp := { s.cmp with sessions := t.cmp.sessions } }

theorem State.sent_refl (s : State) : s.sent s := rfl

theorem State.sent_trans {s t u : State} (h : s.sent t) (k : t.sent u) : s.sent u := by
  unfold State.sent at *; rw [k, h]

theorem State.sent_sendRaw (s : State) (p : Fin 2) (n : Nat) (o : Out) : s.sent (s.sendRaw p n o) := by
  unfold State.sendRaw; dsimp only; split <;> rfl

theorem State.sent_sendUdp (s : State) (p : Fin 2) (b : Bool) (dst : Addr) (o : EthHead → Out) : s.sent (s.sendUdp p b dst o) := by
  unfold State.sendUdp; dsimp only; split
  · exact State.sent_sendRaw ..
  split
  · rfl
  · exact State.sent_trans (t := { s with eth := _ }) rfl (State.sent_sendRaw ..)

/-- A frame toward a hop whose MAC address is known goes out with it (R434). -/
theorem State.sendUdp_known (s : State) (p : Fin 2) (b : Bool) (dst : Addr) (o : EthHead → Out) (mac : BitVec 48) (h : s.hopMac p dst = some mac) :
    s.sendUdp p b dst o = s.sendRaw p (s.sendPrio p b) (o (s.ethHead p b true mac)) := by unfold State.sendUdp; rw [h]

theorem State.sent_setSession (s : State) (i : Nat) (x : Session) : s.sent (s.setSession i x) := rfl

theorem State.sent_sendFrame (s : State) (i : Nat) (f : TxFrame) : s.sent (s.sendFrame i f) :=
  State.sent_trans (State.sent_sendUdp ..) (State.sent_setSession ..)

theorem State.sent_sendAck (s : State) (i : Nat) : s.sent (s.sendAck i) := State.sent_sendFrame ..

theorem State.sent_sendS (s : State) (i type flags : Nat) (reqId : W64) (st : Nat) (body : List Byte) :
    s.sent (s.sendS i type flags reqId st body) := by
  unfold State.sendS; dsimp only; split
  · rfl
  split
  · rfl
  split
  · rfl
  exact State.sent_trans (State.sent_setSession s i _) (State.sent_sendFrame ..)

theorem State.sent_foldl {α : Type} (f : State → α → State) (hf : ∀ (s : State) (a : α), s.sent (f s a)) (xs : List α) (s : State) : s.sent (xs.foldl f s) := by
  induction xs generalizing s with
  | nil => rfl
  | cons a xs ih => exact State.sent_trans (hf s a) (ih _)

/-- A RESPONSE changes what sending may change. -/
theorem State.sent_respond (s : State) (i : Nat) (reqId : W64) (st : Status) (body : List Byte) : s.sent (s.respond i reqId st body) :=
  State.sent_foldl _ (fun s _ => State.sent_sendS s ..) _ s

theorem State.sent_flushWaiting (s : State) (i : Nat) : s.sent (s.flushWaiting i) :=
  State.sent_trans (State.sent_setSession s i _) (State.sent_foldl _ (fun s _ => State.sent_sendS s ..) _ _)

theorem State.sent_notifyDone (s : State) (c : Cmd) (st : Status) (bs : List Byte) : s.sent (s.notifyDone c st bs) := by
  unfold State.notifyDone; dsimp only; split
  · exact State.sent_sendS ..
  · rfl

theorem State.sent_sendUnauth (s : State) (f : Frame) (type : Nat) (st : Status) (body : List Byte) :
    (s.sendUnauth f type st body).1 = s ∨
      ∃ n m o, s.sendUnauth f type st body =
        (({ s with cmp := { s.cmp with unauthSec := n, unauthCount := m } } : State).sendUdp f.port false f.src o, true) := by
  unfold State.sendUnauth; dsimp only
  generalize (if s.cmp.unauthSec = s.counter / 1000000000 then s.cmp.unauthCount else 0) = q
  split
  · exact .inl rfl
  · exact .inr ⟨_, _, _, rfl⟩

/-! The journal and the queues. -/

/-- Starting a command writes the journal and its queue. -/
theorem State.start_frame (s : State) (c : Cmd) :
    s.start c = { s with jnl := (s.start c).jnl, mgmt := (s.start c).mgmt, parts := (s.start c).parts } := by
  unfold State.start State.setQueue; dsimp only; repeat' split
  all_goals rfl

/-- A command started already is left as it is. -/
theorem State.start_of_started (s : State) (c : Cmd) (h : c.started = true) : s.start c = s := by unfold State.start; rw [if_pos h]

theorem State.setQueue_frame (s : State) (c : Cmd) (q : CmdQueue) :
    s.setQueue c q = { s with mgmt := (s.setQueue c q).mgmt, parts := (s.setQueue c q).parts } := by
  unfold State.setQueue; split <;> rfl

/-- What ending a command may change: the journal, its queue, and what its NOTIFY may. -/
theorem State.finish_frame (s : State) (c : Cmd) (k : EntryKind) (st : Status) (n : Nat) (bs : List Byte) :
    s.finish c k st n bs =
      { s with
        jnl := (s.finish c k st n bs).jnl, mgmt := (s.finish c k st n bs).mgmt, parts := (s.finish c k st n bs).parts
        out := (s.finish c k st n bs).out, eth := (s.finish c k st n bs).eth, regs := (s.finish c k st n bs).regs
        cmp := { s.cmp with sessions := (s.finish c k st n bs).cmp.sessions } } := by
  unfold State.finish; dsimp only
  generalize hu : ({ (State.setQueue (s.jnlEntry c k st n) c _) with jnl := _ } : State) = u
  have h := State.sent_notifyDone u c st bs
  unfold State.sent at h; rw [h, ← hu, State.setQueue_frame]; rfl

/-- A command that ends is no longer outstanding. -/
theorem State.complete_eq (s : State) (c : Cmd) (st : Status) : s.complete c st = s.finish c .completed st 0 [] := rfl

/-- What abandoning a command may change: the journal and its queue. -/
theorem State.abandon_frame (s : State) (c : Cmd) :
    s.abandon c = { s with jnl := (s.abandon c).jnl, mgmt := (s.abandon c).mgmt, parts := (s.abandon c).parts } := by
  unfold State.abandon State.setQueue; dsimp only; split <;> rfl

/-- The command that may run is accepted, of that family and operation, and first of its queue. -/
theorem State.runnable_some (s : State) (family op jseq : Nat) (c : Cmd) (h : s.runnable family op jseq = some c) :
    c ∈ s.allCmds ∧ c.jseq = jseq ∧ c.family = family ∧ c.op = op ∧ (s.queueOf c).cmds.head?.map (·.jseq) = some jseq
      ∧ (c.after = 0 ∨ s.isFinal c.after = true) := by
  unfold State.runnable at h
  split at h
  · cases h
  · rename_i d hd
    have h1 := List.mem_of_find?_eq_some hd
    have h2 := List.find?_some hd
    split at h
    · rename_i hc
      cases h
      exact ⟨h1, by simpa using h2, hc.1, hc.2.1, hc.2.2.1, hc.2.2.2⟩
    · cases h

/-- A queued command that may run is started and has its effect. -/
theorem State.runQueued_of (s : State) (family op jseq : Nat) (f : Cmd → State → State) (c : Cmd) (hu : s.up = true)
    (h : s.runnable family op jseq = some c) : s.runQueued family op jseq f = f c (s.start c) := by
  unfold State.runQueued; rw [hu, h]; rfl

/-- Otherwise it waits and nothing changes. -/
theorem State.runQueued_wait (s : State) (family op jseq : Nat) (f : Cmd → State → State)
    (h : s.up = false ∨ s.runnable family op jseq = none) : s.runQueued family op jseq f = s := by
  unfold State.runQueued
  rcases h with h | h
  · rw [h]; rfl
  · rw [h]; split <;> rfl

/-- The two things a queued row can do. -/
theorem State.runQueued_cases (s : State) (family op jseq : Nat) (f : Cmd → State → State) :
    s.runQueued family op jseq f = s ∨
      ∃ c, s.up = true ∧ s.runnable family op jseq = some c ∧ s.runQueued family op jseq f = f c (s.start c) := by
  cases hu : s.up with
  | false => exact .inl (s.runQueued_wait _ _ _ _ (.inl hu))
  | true =>
    cases h : s.runnable family op jseq with
    | none => exact .inl (s.runQueued_wait _ _ _ _ (.inr h))
    | some c => exact .inr ⟨c, rfl, rfl, s.runQueued_of _ _ _ _ _ hu h⟩

/-! Immediate commands. -/

/-- A refused immediate command is counted and answered. -/
theorem State.immediate_error (s : State) (family op sess : Nat) (reqId : W64) (st : Status) :
    s.immediate family op sess reqId (.error st) = (s.count Reg.jnlRefused 1).respond sess reqId st [] := rfl

/-- An immediate command of no open session, or of a module that serves no Campion, does nothing. -/
theorem State.runImmediate_cases (s : State) (family op sess : Nat) (reqId : W64) (loader : Bool) (f : State → ImmOut) :
    s.runImmediate family op sess reqId loader f = s ∨
      (s.netUp = true ∧ (s.session sess).isOpen = true ∧ s.runImmediate family op sess reqId loader f =
        s.immediate family op sess reqId (if s.boot.phase = .recovery ∧ loader = false then .error .recoveryMode else f s)) := by
  unfold State.runImmediate
  split
  · rename_i h
    exact .inr ⟨h.1, h.2, by simp⟩
  · exact .inl rfl

/-! Frames in. -/

/-- A frame does nothing at a port that is down, is counted, is dropped, or is passed on. -/
theorem State.frameIn_cases (s : State) (f : Frame) (r : Nat) (k : State → State) :
    s.frameIn f r k = s ∨ s.frameIn f r k = (s.flow f).countFrame f ∨ s.frameIn f r k = ((s.flow f).countFrame f).dropFrame f ∨
      (s.netUp = true ∧ (s.ethPort f.port).up = true ∧ f.fcsOk = true ∧ s.layersOk f = true ∧
        f.dstPort.toNat = ((s.flow f).countFrame f).reg r ∧ s.frameIn f r k = k ((s.flow f).countFrame f)) := by
  unfold State.frameIn
  split
  · exact .inl rfl
  rename_i h1
  dsimp only
  split
  · exact .inr (.inl rfl)
  rename_i h2
  split
  · rename_i h3
    refine .inr (.inr (.inr ⟨?_, ?_, ?_, h3.1, h3.2, rfl⟩))
    · cases h : s.netUp <;> simp_all
    · cases h : (s.ethPort f.port).up <;> simp_all
    · simpa using h2
  · exact .inr (.inr (.inl rfl))

/-! Cores. -/

theorem State.endsWith_eq (s : State) (i : Nat) (st : Status) :
    s.endsWith i st = s.setCore i { s.core i with ended := some st, window := [] } := rfl

/-- A fetch does nothing, ends the item on a word with no opcode, or puts the next instruction at the end of the window and counts its frames. -/
theorem State.fetch_cases (s : State) (i : Nat) (spans : Core → W128 → Spans) :
    s.fetch i spans = s ∨
      (engineOf (opcodeOf (s.core i).nextWord) = none ∧ s.fetch i spans = s.endsWith i .illegalOperand) ∨
      ∃ eng, engineOf (opcodeOf (s.core i).nextWord) = some eng ∧ s.coreRuns i = true ∧ (s.core i).window.length < 16 ∧
        (let c := s.core i
         let sp := spans c c.nextWord
         let writes := framesOf sp.writes
         let reads := framesOf (sp.reads ++ sp.need)
         s.fetch i spans = s.setCore i { c with
           pc := c.pc + 1, wcounts := bump c.wcounts writes, rcounts := bump c.rcounts reads
           window := c.window ++ [{ word := c.nextWord, index := c.pc, engine := eng, writes, reads, issued := false }] }) := by
  unfold State.fetch
  dsimp only
  split
  · exact .inl rfl
  rename_i h
  split
  · rename_i he
    split
    · exact .inr (.inl ⟨he, rfl⟩)
    · exact .inl rfl
  · rename_i eng he
    split
    · exact .inl rfl
    split
    · exact .inl rfl
    refine .inr (.inr ⟨eng, he, ?_, ?_, rfl⟩)
    · cases hr : s.coreRuns i <;> simp_all
    · exact Nat.lt_of_not_le fun hl => h (.inr (.inl hl))

/-- An engine's issue does nothing, or takes the oldest instruction of its queue, which R89 lets issue: its item faults on a parity error of the
core, or it ends as its engine says. -/
theorem State.issue_cases (s : State) (i : Nat) (eng : Engine) (h : Health) (mine : W128 → Bool) (also : Core → W128 → Bool)
    (run : State → Core → WinEntry → InstrEnd) :
    s.issue i eng h mine also run = s ∨
      ∃ e, (s.core i).head eng = some e ∧ s.coreRuns i = true ∧ mine e.word = true ∧ s.mayIssue i e = true ∧ also (s.core i) e.word = true ∧
        s.issue i eng h mine also run =
          (if h.parity then (s.reports h).itemFault i else (s.reports h).finishInstr i e (run (s.reports h) (s.core i) e)) := by
  unfold State.issue
  dsimp only
  split
  · exact .inl rfl
  rename_i hr
  split
  · exact .inl rfl
  rename_i e he
  split
  · exact .inl rfl
  rename_i hc
  refine .inr ⟨e, he, ?_, ?_, ?_, ?_, ?_⟩
  · simpa using hr
  · cases hm : mine e.word <;> simp_all
  · cases hm : s.mayIssue i e <;> simp_all
  · cases hm : also (s.core i) e.word <;> simp_all
  · split <;> rfl

/-! Time. -/

/-- Moving the clock on writes the counter and the model's clock, nothing else. -/
theorem State.at_frame (s : State) (t : Nat) : s.at t = { s with counter := max s.counter t, wall := s.wall + (t - s.counter) } := rfl

/-- The account of pace writes the power unit's account and four registers. -/
theorem State.accrue_frame (s : State) : s.accrue = { s with power := s.accrue.power, regs := s.accrue.regs } := by
  unfold State.accrue; dsimp only; split <;> rfl

/-- A fingerprint taking effect writes the fingerprint, its input and GEO_FP_CHANGES. -/
theorem State.takeFingerprint_frame (s : State) (b : Bool) :
    s.takeFingerprint b = { s with fpInput := (s.takeFingerprint b).fpInput, fp := (s.takeFingerprint b).fp, regs := (s.takeFingerprint b).regs } := rfl

/-! Placement tables. -/

/-- Every position of a constant list, and every position past it, reads as that constant. -/
theorem getD_replicate_self {α : Type} (n e : Nat) (a : α) : (List.replicate n a).getD e a = a := by
  induction n generalizing e with
  | zero => rfl
  | succ n ih =>
    cases e with
    | zero => rfl
    | succ e => exact ih e

/-- An entry whose copy in the tile checks is read from there. -/
theorem State.placeEntry_of (s : State) (t e : Nat) (h : twinOk ((s.xpr.active.getD t []).getD e placeEmpty) = true) :
    s.placeEntry t e = (s, some ((s.xpr.active.getD t []).getD e placeEmpty).val) := by
  unfold State.placeEntry; dsimp only; rw [if_pos h]

/-- A table whose 256 entries check is read from the tile's copy and nothing changes. -/
theorem State.placement_of (s : State) (t : Nat) (h : ∀ e, twinOk ((s.xpr.active.getD t []).getD e placeEmpty) = true) :
    s.placement t = (s, some ((List.range 256).map fun e => ((s.xpr.active.getD t []).getD e placeEmpty).val.toNat)) := by
  unfold State.placement
  suffices k : ∀ (xs vs : List Nat), xs.foldl (fun (x : State × Option (List Nat)) e =>
      match x with
      | (s, none) => (s, none)
      | (s, some vs) =>
        let (s, v) := s.placeEntry t e
        (s, v.map fun w => vs ++ [w.toNat])) (s, some vs)
      = (s, some (vs ++ xs.map fun e => ((s.xpr.active.getD t []).getD e placeEmpty).val.toNat)) by
    exact k (List.range 256) []
  intro xs
  induction xs with
  | nil => intro vs; simp
  | cons x xs ih =>
    intro vs
    simp only [List.foldl_cons, State.placeEntry_of s t x (h x), Option.map_some]
    rw [ih]; simp

/-! The management bus. -/

/-- A read of the telemetry target only adds an answer. -/
theorem State.smbRead_frame (s : State) (a : BitVec 7) (cmd : Byte) (bs : List Byte) :
    s.smbRead a cmd bs = { s with out := s.out ++ [if s.smbHere a then .smbus (bs ++ [readPec a cmd bs]) else .nack] } := rfl

/-! Resets. -/

/-- A loss of power keeps the flash and clears the stores. -/
theorem State.powerLoss_stores (s : State) :
    s.powerLoss.mem = [] ∧ s.powerLoss.cores = [] ∧ s.powerLoss.clusters = [] ∧ s.powerLoss.flash0 = s.flash0
      ∧ s.powerLoss.flash1 = s.flash1 := ⟨rfl, rfl, rfl, rfl, rfl⟩

theorem State.coldReset_stores (s : State) (n : Nat) :
    (s.coldReset n).mem = [] ∧ (s.coldReset n).cores = [] ∧ (s.coldReset n).clusters = [] ∧ (s.coldReset n).boot.cause = n
      ∧ (s.coldReset n).boot.phase = .starting := ⟨rfl, rfl, rfl, rfl, rfl⟩

/-- A warm reset keeps DRAM alone of the memory. -/
theorem State.warmReset_mem (s : State) (n : Nat) :
    (s.warmReset n).mem = s.rewindStreams.mem.filter fun e => decide (e.1 < 0x00A000000000) := rfl

theorem State.requestWarm_cases (s : State) (n : Nat) : s.requestWarm n = s.coldReset 5 ∨ s.requestWarm n = s.warmReset n := by
  unfold State.requestWarm; split
  · exact .inl rfl
  · exact .inr rfl

/-! The canonical form of the stores. -/

theorem State.reset_storesOk : State.reset.storesOk := ⟨rfl, rfl, rfl, rfl, rfl, rfl⟩

theorem State.storesOk_setReg (s : State) (k v : Nat) (h : s.storesOk) : (s.setReg k v).storesOk :=
  { h with regs := regSet_wf _ _ _ h.regs }

theorem State.storesOk_count (s : State) (k n : Nat) (h : s.storesOk) : (s.count k n).storesOk :=
  { h with regs := regAdd_wf _ _ _ h.regs }

theorem State.storesOk_setCore (s : State) (i : Nat) (c : Core) (h : s.storesOk) : (s.setCore i c).storesOk :=
  { h with cores := State.setCore_wf _ _ _ h.cores }

theorem State.storesOk_setCluster (s : State) (i : Nat) (c : ClusterSt) (h : s.storesOk) : (s.setCluster i c).storesOk :=
  { h with clusters := State.setCluster_wf _ _ _ h.clusters }

theorem State.storesOk_writeMem (s : State) (a : Nat) (bs : List Byte) (h : s.storesOk) : (s.writeMem a bs).storesOk :=
  { h with mem := State.writeMem_wf _ _ _ h.mem }

theorem State.storesOk_writeAll (s : State) (ws : List (Nat × List Byte)) (h : s.storesOk) : (s.writeAll ws).storesOk :=
  { h with mem := State.writeAll_wf _ _ h.mem }

theorem State.storesOk_setSession (s : State) (i : Nat) (x : Session) (h : s.storesOk) : (s.setSession i x).storesOk :=
  ⟨h.mem, h.flash0, h.flash1, h.regs, h.cores, h.clusters⟩

theorem State.storesOk_sendRaw (s : State) (p : Fin 2) (n : Nat) (o : Out) (h : s.storesOk) : (s.sendRaw p n o).storesOk := by
  unfold State.sendRaw; dsimp only; split
  · exact ⟨h.mem, h.flash0, h.flash1, h.regs, h.cores, h.clusters⟩
  · exact ⟨h.mem, h.flash0, h.flash1, regAdd_wf _ _ _ h.regs, h.cores, h.clusters⟩

theorem State.storesOk_sendUdp (s : State) (p : Fin 2) (b : Bool) (dst : Addr) (o : EthHead → Out) (h : s.storesOk) :
    (s.sendUdp p b dst o).storesOk := by
  unfold State.sendUdp; dsimp only; split
  · exact State.storesOk_sendRaw _ _ _ _ h
  split
  · exact ⟨h.mem, h.flash0, h.flash1, h.regs, h.cores, h.clusters⟩
  · exact State.storesOk_sendRaw _ _ _ _ ⟨h.mem, h.flash0, h.flash1, h.regs, h.cores, h.clusters⟩

theorem State.storesOk_sendFrame (s : State) (i : Nat) (f : TxFrame) (h : s.storesOk) : (s.sendFrame i f).storesOk :=
  State.storesOk_setSession _ _ _ (State.storesOk_sendUdp _ _ _ _ _ h)

theorem State.storesOk_sendS (s : State) (i type flags : Nat) (reqId : W64) (st : Nat) (body : List Byte) (h : s.storesOk) :
    (s.sendS i type flags reqId st body).storesOk := by
  unfold State.sendS; dsimp only; repeat' split
  · exact h
  · exact State.storesOk_setSession _ _ _ h
  · exact State.storesOk_setSession _ _ _ h
  · exact State.storesOk_sendFrame _ _ _ (State.storesOk_setSession _ _ _ h)

theorem State.storesOk_foldl {α : Type} (f : State → α → State) (hf : ∀ (s : State) (a : α), s.storesOk → (f s a).storesOk) (xs : List α) (s : State)
    (h : s.storesOk) : (xs.foldl f s).storesOk := by
  induction xs generalizing s with
  | nil => exact h
  | cons a xs ih => exact ih _ (hf s a h)

theorem State.storesOk_respond (s : State) (i : Nat) (reqId : W64) (st : Status) (body : List Byte) (h : s.storesOk) :
    (s.respond i reqId st body).storesOk :=
  State.storesOk_foldl _ (fun s _ h => State.storesOk_sendS s _ _ _ _ _ _ h) _ _ h

theorem State.storesOk_jnlEntry (s : State) (c : Cmd) (k : EntryKind) (st : Status) (n : Nat) (h : s.storesOk) : (s.jnlEntry c k st n).storesOk :=
  ⟨h.mem, h.flash0, h.flash1, h.regs, h.cores, h.clusters⟩

theorem State.storesOk_setQueue (s : State) (c : Cmd) (q : CmdQueue) (h : s.storesOk) : (s.setQueue c q).storesOk := by
  unfold State.setQueue; split
  · exact ⟨h.mem, h.flash0, h.flash1, h.regs, h.cores, h.clusters⟩
  · exact ⟨h.mem, h.flash0, h.flash1, h.regs, h.cores, h.clusters⟩

theorem State.storesOk_start (s : State) (c : Cmd) (h : s.storesOk) : (s.start c).storesOk := by
  rw [State.start_frame]; exact ⟨h.mem, h.flash0, h.flash1, h.regs, h.cores, h.clusters⟩

theorem State.storesOk_notifyDone (s : State) (c : Cmd) (st : Status) (bs : List Byte) (h : s.storesOk) : (s.notifyDone c st bs).storesOk := by
  unfold State.notifyDone; dsimp only; split
  · exact State.storesOk_sendS _ _ _ _ _ _ _ h
  · exact h

theorem State.storesOk_finish (s : State) (c : Cmd) (k : EntryKind) (st : Status) (n : Nat) (bs : List Byte) (h : s.storesOk) :
    (s.finish c k st n bs).storesOk := by
  unfold State.finish; dsimp only
  refine State.storesOk_notifyDone _ _ _ _ ?_
  have k (q : CmdQueue) := State.storesOk_setQueue (s.jnlEntry c k st n) c q (State.storesOk_jnlEntry _ _ _ _ _ h)
  exact ⟨(k _).mem, (k _).flash0, (k _).flash1, (k _).regs, (k _).cores, (k _).clusters⟩

/-- A queued row keeps the stores if its effect does. -/
theorem State.storesOk_runQueued (s : State) (family op jseq : Nat) (f : Cmd → State → State)
    (hf : ∀ c t, t.storesOk → (f c t).storesOk) (h : s.storesOk) : (s.runQueued family op jseq f).storesOk := by
  rcases s.runQueued_cases family op jseq f with e | ⟨c, -, -, e⟩
  · rw [e]; exact h
  · rw [e]; exact hf _ _ (State.storesOk_start _ _ h)

theorem State.storesOk_powerLoss (s : State) (h : s.storesOk) : s.powerLoss.storesOk := ⟨rfl, h.flash0, h.flash1, rfl, rfl, rfl⟩

end Sys2Proof.Machine
end

