-- ==== Sys2Proof/Tests/Slice0.lean ====
section
/-! SUPPORT. Sys2Proof/Tests/Slice0.lean: the model's own tests: ill-formed operands that WellFormed refuses, small behaviours with
expected values from the manual, and for every statement with hypotheses a state and operands that meet them. -/

open Sys2Proof Sys2Proof.Machine

set_option Elab.async false

/-! Ill-formed operands, one for each check of Instr.wf, which refuses them. -/

/-! A result that is good. -/

theorem ok_of_isOk {ε α : Type} {e : Except ε α} (h : e.isOk = true) : ∃ x, e = .ok x := by
  cases e with
  | error _ => exact absurd h (by simp [Except.isOk, Except.toBool])
  | ok x => exact ⟨x, rfl⟩
theorem ok_and {ε α : Type} {e : Except ε α} {p : α → Prop} [DecidablePred p]
    (h : (match e with | .ok x => decide (p x) | .error _ => false) = true) : ∃ x, e = .ok x ∧ p x := by
  cases e with
  | error _ => exact absurd h (by simp)
  | ok x => exact ⟨x, rfl, by simpa using h⟩

theorem ok_of_toOption {ε α : Type} {e : Except ε α} {x : α} (h : e.toOption = some x) : e = .ok x := by
  cases e with
  | error _ => exact absurd h (by simp [Except.toOption])
  | ok y => exact congrArg _ (Option.some.inj h)
/-- Health with one upset of the array, row and column given. -/
def Sys2Proof.Machine.wfHealth (array row col : Nat) : Health := ⟨[⟨array, 0, 0, row, col, 0⟩], [], [], false⟩

/-- A start-up report as `f` changes it: `n` ports, all sound. -/
def Sys2Proof.Machine.wfReport (n : Nat) (f : StartReport → StartReport) : StartReport :=
  f { durations := [], wet := false, mgmtFails := [], bootFails := [], pcFails := [], stackFails := [], coreFails := [], clusterFails := [], sramFails := [], netFails := []
      smokeOnce := [], smokeTwice := [], ports := List.replicate n ⟨true, 0, true, 0x3FFFF, true, true, 0, 0, [], 0⟩, ethUp := [true, true]
      ethPlugged := [true, true] }

/-- A frame of the given payload, packet and frame lengths. -/
def Sys2Proof.Machine.wfFrame (n ip len : Nat) : Frame :=
  { port := 0, buffered := 0, fcsOk := true, fecCorrected := 0, fecUncorrected := 0, dstMac := 0, vlan := none, unsupported := false, ce := false, src := ⟨false, 0⟩
    dst := ⟨false, 0⟩, srcPort := 0, dstPort := 0, sum := .right, frameLen := len, ipLen := ip, payload := zeros n }

theorem test_wf_upset : (Instr.tld ⟨0, 0, 0⟩ (wfHealth 4 0 0)).wf = false ∧ (Instr.mma ⟨0, 0, 0⟩ (wfHealth 0 256 0)).wf = false ∧
    (Instr.gmm ⟨0, 0, 0⟩ (wfHealth 0 0 32)).wf = false ∧ (Instr.tcv ⟨0, 0, 0⟩ (wfHealth 3 255 31)).wf = true := by decide

theorem test_wf_start : (Instr.startUp (wfReport 7 id)).wf = false ∧ (Instr.startUp (wfReport 8 fun r => { r with coreFails := [1350] })).wf = false ∧
    (Instr.startUp (wfReport 8 fun r => { r with clusterFails := [90] })).wf = false ∧ (Instr.startUp (wfReport 8 fun r => { r with pcFails := [(10, 0, 0)] })).wf = false ∧
    (Instr.startUp (wfReport 8 fun r => { r with stackFails := [(0, 2)] })).wf = false ∧ (Instr.startUp (wfReport 8 fun r => { r with ethUp := [true] })).wf = false ∧
    (Instr.startUp (wfReport 8 fun r => { r with durations := List.replicate 12 1 })).wf = false ∧ (Instr.startUp (wfReport 8 id)).wf = true ∧
    (Instr.startTimeout 0 []).wf = false ∧ (Instr.startTimeout 12 []).wf = false := by decide

theorem test_wf_training : (Instr.linkRetrain 0 ⟨true, 0, true, 2 ^ 18, true, true, 0, 0, [], 0⟩ 0).wf = false ∧
    (Instr.portDownRetry 0 ⟨true, 0, true, 2 ^ 18 - 1, true, true, 0, 0, [], 0⟩).wf = true := by decide

theorem test_wf_waits : (Instr.syn ⟨0, 0, 0⟩ (.cores [959, 960])).wf = false ∧ (Instr.syn ⟨0, 0, 0⟩ (.sealed 8 1)).wf = false ∧
    (Instr.syn ⟨0, 0, 0⟩ (.sealed 7 1)).wf = true := by decide

theorem test_wf_pins : (Instr.fruEepromRead 0x60 8192 1 ⟨true, 0⟩).wf = false ∧ (Instr.samplePreload (List.replicate 681 false) []).wf = false ∧
    (Instr.fruEepromRead 0x60 8191 1 ⟨true, 0⟩).wf = true := by decide +kernel

theorem test_wf_parts : (Instr.prepare 8).wf = false ∧ (Instr.alloc 0 0 8).wf = false ∧ (Instr.prepare 7).wf = true ∧
    (Instr.biasUpdate 0 [⟨0, 0, 0, 0, List.replicate 257 0⟩]).wf = false := by decide +kernel

theorem test_wf_memory : (Instr.patrolScrub (2 ^ 48 + 960 * 2 ^ 20) .clean).wf = false ∧ (Instr.dramRefresh 20).wf = false ∧ (Instr.dramRefresh 19).wf = true := by
  decide

theorem test_wf_frames : (Instr.icmpEcho (wfFrame 9 8 64)).wf = false ∧ (Instr.icmpEcho (wfFrame 8 65 64)).wf = false ∧ (Instr.icmpEcho (wfFrame 8 64 64)).wf = true ∧
    (Instr.pfcFrame 0 [(8, 1)] 0).wf = false ∧ (Instr.pfcPauseExpiry 0 8 0).wf = false ∧ (Instr.sessList 16 0 []).wf = false := by decide

theorem test_wf_queued : (Instr.stepRun 0).wf = false ∧ (Instr.stepRun (2 ^ 64)).wf = false ∧ (Instr.stepRun 1).wf = true := by decide

theorem test_wf_links : (Instr.codeword 0 ⟨0, false, false, 0, zeros 641⟩ 0 0 0).wf = false ∧
    (Instr.linkPacket 0 ⟨4, false, 0, 0, 0, 0, 0, []⟩ 0).wf = false ∧ (Instr.linkPacket 0 ⟨0, false, 0, 0, 0, 0, 0, [0]⟩ 0).wf = false := by decide +kernel

theorem test_wf_counts : (Instr.energyUpdate ⟨0, 0, 0, []⟩ 0).wf = false ∧ (Instr.stressUpdate []).wf = false ∧
    (Instr.eventRecord { hubEvent .railTrip 0 [] with part := 256 }).wf = false := by decide

/-- Witness for StepRunsFrontCommand: the queue is empty at reset. -/
theorem witness_idle : State.reset.pending = [] := by decide

/-- Witness for the stop of EveryCommandCompletes: a live, unlocked port. -/
theorem witness_stops :
    stops (.unitTestInstruction 0)
      { State.reset with pins := { State.reset.pins with pgood := true, trstN := true }
                         tap := { State.reset.tap with unlocked := true } } := ⟨0, by decide⟩

/-- Witness for StepKeepsStores: the state after reset, whose step idles. -/
theorem witness_storesOk : State.reset.storesOk ∧ step State.reset = .next State.reset.idle :=
  ⟨by constructor <;> decide, rfl⟩

/-- Witness for CommandsKeepPartAndQueue. -/
theorem witness_trstN : ∃ t, exec (.trstN true) State.reset = .next t := ⟨_, rfl⟩

/-- A powered module, for witnesses: past start-up, running, with nothing else set. -/
def Sys2Proof.Machine.onState : State :=
  { State.reset with
    pins := { State.reset.pins with pwrEn := true, pgood := true, resetN := true, trstN := true, hold := .running, input := .closedPath }
    boot := { State.reset.boot with phase := .ready, step := 11 } }

/-- Witnesses for PowerComesAndGoes: unpowered; powered; the boundary of R370's first limit. -/
theorem witness_power :
    State.reset.pins.pwrEn = false ∧ State.reset.pins.lockout = false ∧ onState.pins.pwrEn = true ∧ onState.pins.pgood = true ∧
    (43999 < 44000 ∧ 100000 < 100001) := by decide

/-- 44.0 V is no under-voltage at 1 ms, 47.999 V for 1 ms and 1 ns is one (R370). -/
theorem test_undervoltage_limits :
    underVoltage 44000 1000000 = false ∧ underVoltage 43999 100000 = false ∧ underVoltage 47999 1000001 = true := by decide

/-- Witness for the cold reset of ResetPinsAndWarmResets. -/
theorem witness_resetLow : 1000 ≤ 1000 ∧ onState.pins.pgood = true := by decide

/-- Witness for LeakTripAndBrownout, at the edge of R370's limits. -/
theorem witness_brownout : onState.pins.pgood = true ∧ 47999 < 48000 ∧ underVoltage 47999 1000000 = false := by decide

/-- Witness for TelemetryReadsAnswer. -/
theorem witness_telemetry : telemetryRead onState (.mfrId 0x40) = some (0x40, 0x99, [7, 0x53, 0x50, 0x45, 0x46, 0x49, 0x44, 0x41]) := by decide

/-- 50.000 V in LINEAR11: 800 · 2^−4, exponent −4 in the upper five bits (PMBus 1.3). -/
theorem test_linear11_50V : linear11 50000 1000 = 0xE320 := by decide

/-- Witnesses for SmbusWritesAlertAndFru: slot 0 answers 0x40; a halted module holds MOD_ALERT_N low. -/
theorem witness_smbus :
    onState.pins.pgood = true ∧ (0x40 : BitVec 7).toNat = 0x40 + onState.pins.slot.toNat ∧ (0x19 : Byte) ≠ 0x03 ∧
    ({ onState with boot := { onState.boot with phase := .halted } } : State).alertN = false ∧ onState.alertN = true := by decide

/-- Witness for BoundaryScanInstructions. -/
theorem witness_tap : onState.pins.pgood = true ∧ onState.pins.trstN = true ∧ onState.tap.boundary.length = 681 ∧
    (List.replicate 681 true).length = 681 ∧ onState.tap.unlocked = false :=
  ⟨rfl, rfl, List.length_replicate, List.length_replicate, rfl⟩

/-- The hub at its boot ROM, for witnesses. -/
def Sys2Proof.Machine.bootState : State := { onState with boot := { onState.boot with phase := .starting, step := 1 } }

/-- Witness for StartUpEndsReadyOrNamesWhyNot. -/
theorem witness_starting : bootState.boot.phase = .starting ∧ bootState.pins.hold = .running ∧ bootState.pins.pgood = true := by decide

/-- A second failed management core halts the module at step 2 (R403). -/
theorem test_mgmt_failures : mgmtMap [0, 1, 2, 3] [] = some ([0, 1, 2, 3], 0) ∧ mgmtMap [0, 1, 2, 3] [2] = some ([0, 1, 4, 3], 1) ∧
    mgmtMap [0, 1, 2, 3] [1, 2] = none := by decide

/-- A module whose port 0 is enabled at 10.0.0.1 and up, for witnesses. -/
def Sys2Proof.Machine.netState : State :=
  { (onState.setReg Reg.ethPortCtrl 1).setReg Reg.ethIpv4 0x0A000001 with
    eth := [{ EthPort.reset with up := true, plugged := true }, EthPort.reset] }

/-- Witness for EthernetPortsFollowTheirLinks, for both values of `up`. -/
theorem witness_ethEnabled : netState.eth.length = 2 ∧ netState.up = true ∧ netState.netUp = true ∧ netState.ethEnabled 0 = true := by decide

/-- Witness for PausesHoldPrioritiesAndExpire: two priorities, one of them resumed. -/
theorem witness_pfc : netState.eth.length = 2 ∧ netState.netUp = true ∧ (netState.ethPort 0).up = true ∧
    (([(0, 65535), (7, 0)] : List (Nat × Nat)).map (·.1)).Nodup := by decide

/-- A frame for port 0 of netState, from 10.0.0.2, to the MAC that the erased test record gives it. -/
def Sys2Proof.Machine.netFrame (payload : List Byte) (dstPort : W16) : Frame :=
  { port := 0, buffered := 0, dstMac := BitVec.ofNat 48 (netState.mac 0), vlan := none, frameLen := 100, ipLen := 80, unsupported := false, fcsOk := true,
    fecCorrected := 0, fecUncorrected := 0, sum := .right, ce := false, src := ⟨false, 0x0A000002⟩, dst := ⟨false, 0x0A000001⟩,
    srcPort := 5000, dstPort, payload }

/-- Witness for EchoAndNeighbourAnswers. -/
theorem witness_echo : netState.layersOk (netFrame [1, 2] 0) = true ∧ netState.ownAddr 0 ⟨false, 0x0A000001⟩ = true ∧
    (netState.ethPort 0).paused = [] ∧ (netFrame [1, 2] 0).fcsOk = true ∧
    netState.eth.length = 2 ∧ netState.netUp = true ∧ (netState.ethPort 0).up = true ∧ regsWf netState.regs = true := by decide

/-- At 3 MiB and one byte the ingest priority is stopped, and below 2 MiB it goes on; a full buffer drops (R437). -/
theorem test_receive_buffer :
    let s := { netState with regs := regSet netState.regs Reg.ethPfc 1 }
    let at_ (n : Nat) (stopped : Bool) : State := { s with eth := s.eth.map fun (e : EthPort) => { e with level := n, xoff := stopped } }
    let f : Frame := { netFrame [1] 0 with buffered := 0x400000 }
    (at_ 0x2FFF9C false).needXoff f = false ∧ (at_ 0x2FFF9D false).needXoff f = true ∧ (at_ 0x2FFF9D true).needXoff f = false ∧
    (at_ 0x1FFF9C true).needXon f = false ∧ (at_ 0x1FFF9B true).needXon f = true ∧ (at_ 0x3FFF9C false).layersOk f = true ∧
    (at_ 0x3FFF9D false).layersOk f = false := by
  decide +kernel

/-- A logical core and an item header, for witnesses. -/
def Sys2Proof.Machine.wc : CoreId := ⟨0, 0, 0⟩

def Sys2Proof.Machine.wHdr : ItemHdr :=
  { addr := 0, acctl := 0, sched := 0, seed := 0, prog := 0, plen := 1, lsProg := 0, sideBase := 0, sideUnits := 0, cluster := 0,
    teasel := false, watchdogUs := 0, pin := false, core := 0 }

/-- A powered module whose core t0.c0.k0 runs item 0 with the given window and local store. -/
def Sys2Proof.Machine.coreState (w : List WinEntry) (ls : List (Nat × Byte)) : State :=
  onState.setCore 0 { Core.reset with item := some (false, 0), hdr := some wHdr, window := w, ls }

def Sys2Proof.Machine.wEntry (w : W128) (e : Engine) : WinEntry := ⟨w, 0, e, [], [], false⟩

/-- The word TLD of one strided BFLOAT16 tile at byte 0x1000 (R79), from the manual's fields. -/
def Sys2Proof.Machine.wTld : W128 :=
  BitVec.ofNat 128 (putBits 127 120 3 + putBits 119 115 Fmt.bfloat16.code + putBits 79 64 0x100 + putBits 63 48 0x81)

/-- The local store with a Sorrel tile at 0x1000: one block, NONFINITE, its header by R53 and R55. -/
def Sys2Proof.Machine.wTile : List (Nat × Byte) :=
  bytesPut 0 [] 0x1000 (sealTile .sorrel 1 true false .bfloat16 1 (leBytes 32 (2 ^ 255 - 19)))

def Sys2Proof.Machine.wTldState : State := coreState [wEntry wTld .matrix] wTile

/-- A GMM of one entry on array 0, BFLOAT16 by BFLOAT16, no output (R245), its COUNT zero. -/
def Sys2Proof.Machine.wGmm : W128 :=
  BitVec.ofNat 128 (putBits 127 120 2 + putBits 119 116 1 + putBits 115 111 Fmt.bfloat16.code + putBits 110 106 Fmt.bfloat16.code)

def Sys2Proof.Machine.wGmmState : State := coreState [wEntry wGmm .matrix] []

def Sys2Proof.Machine.InstrEnd.isDone : InstrEnd → Bool
  | .done _ => true
  | _ => false

/-- Witnesses for IssuedInstructionsRunAndLeave: a GMM without rows is ready and runs; with an output it is ready and refused nowhere. -/
theorem witness_issue_stores : wGmmState.storesOk := by constructor <;> decide +kernel

theorem witness_issue_gmm :
    readyToIssue wGmmState 0 .matrix 0x02 gmmMay (wEntry wGmm .matrix) ∧
    (wGmmState.runGmm 0 .sound (wGmmState.core 0) (wEntry wGmm .matrix)).isDone = true := by
  unfold readyToIssue; and_intros <;> decide +kernel

/-- Witness for its refusal: a format of 31 is none (R36), and the item ends ILLEGAL_FORMAT. -/
def Sys2Proof.Machine.InstrEnd.refusal : InstrEnd → Option Status
  | .refused st => some st
  | _ => none

theorem witness_issue_refused :
    (wGmmState.runTrd 0 (wGmmState.core 0) (wEntry (BitVec.ofNat 128 (putBits 127 120 0x11 + 2 ^ 32 - 1)) .vector)).refusal.isSome = true := by
  decide +kernel

/-- An MMA of the tile's first row against the zero set, BFLOAT16 by BFLOAT16, one array, no output (R83), swapping the shadow in. -/
def Sys2Proof.Machine.wMma : W128 :=
  BitVec.ofNat 128 (putBits 127 120 1 + putBits 119 116 1 + putBits 115 111 Fmt.bfloat16.code + putBits 110 106 Fmt.bfloat16.code
    + putBits 102 102 1 + putBits 94 90 1 + putBits 79 64 0x100 + putBits 63 48 0x81)

def Sys2Proof.Machine.wMmaState : State :=
  onState.setCore 0 { Core.reset with
    item := some (false, 0), hdr := some wHdr, window := [wEntry wMma .matrix], ls := wTile, shadow := .full
    shadowSet := some ⟨.bfloat16, [zeroTile .bfloat16]⟩ }

/-- Witnesses for ArrayInstructionsMoveSetsAndSlots. -/
theorem witness_tld_reads :
    fmtOn wTldState.part (bitsOf wTld.toNat 119 115) = some .bfloat16 ∧ (pairRow .bfloat16).isSome = true ∧
    wTldState.spansOk (wTldState.core 0) (dirSpan (bitOf wTld.toNat 113) (bitsOf wTld.toNat 63 48) (packing .bfloat16)
      ++ ((tldOf wTld).tiles (wTldState.core 0) .bfloat16).map (·.span .bfloat16)) = true ∧
    (wTldState.lsTiles 0 (wTldState.core 0) .bfloat16 (some (!bitOf wTld.toNat 114))
      ((tldOf wTld).tiles (wTldState.core 0) .bfloat16)).toOption.isSome = true := by
  and_intros <;> decide +kernel

theorem witness_mma_ready :
    readyToIssue wMmaState 0 .matrix 0x01 mmaMay (wEntry wMma .matrix) ∧
    (wMmaState.mmaBar (wMmaState.core 0) (mmaOf wMma)).toOption.isSome = true ∧
    Sparse.wf Slot.reset (wMmaState.core 0).slots = true := by
  unfold readyToIssue; and_intros <;> decide +kernel

/-! Every issued form runs to its end on some state (IssuedInstructionsRunAndLeave, ArrayInstructionsMoveSetsAndSlots). -/

theorem witness_tld_runs : runsWell wTldState 0 (wEntry wTld .matrix) (.tld wc .sound) := by
  have h : ∀ a ∈ (tldOf (wEntry wTld .matrix).word).tiles (wTldState.core 0) .bfloat16,
    (wTldState.lsTile 0 (wTldState.core 0) .bfloat16 (some (!(tldOf (wEntry wTld .matrix).word).transpose)) a).isOk = true := by decide +kernel
  exact ⟨.bfloat16, by decide +kernel, by decide +kernel, fun a ha => ok_of_isOk (h a ha)⟩

theorem witness_tld_ready : readyToIssue wTldState 0 .matrix 0x03 (fun k _ => k.shadow == .empty) (wEntry wTld .matrix) := by
  unfold readyToIssue; and_intros <;> decide +kernel

theorem witness_mma_runs : runsWell wMmaState 0 (wEntry wMma .matrix) (.mma wc .sound) := by
  obtain ⟨⟨fa, st⟩, h, h1⟩ := ok_and (e := wMmaState.mmaBar (wMmaState.core 0) (mmaOf wMma)) (p := fun x =>
      let m := mmaOf wMma
      let k' := if m.swap then { wMmaState.core 0 with active := some x.2, shadow := .empty, shadowSet := none } else wMmaState.core 0
      ∀ j < m.nt,
        let g := wMmaState.tryTiles 0 k' x.1 (some false) (some (m.place j).1) (((m.tiles k' (packing x.2.fmt)).drop (packing x.2.fmt * j)).take (packing x.2.fmt))
        g.2 = [] ∧ (m.chain x.2 g.1 g.2.isEmpty j).failing [] = []) (by decide +kernel)
  exact ⟨fa, st, h, h1⟩

theorem witness_gmm_runs : runsWell wGmmState 0 (wEntry wGmm .matrix) (.gmm wc .sound) := by
  obtain ⟨⟨fa, fw⟩, h, h1, h2, h3⟩ := ok_and (e := wGmmState.gmmBar (wGmmState.core 0) (gmmOf wGmm)) (p := fun x =>
    let g := gmmOf wGmm
    wGmmState.lsBad 0 g.tableSpan.1 g.tableSpan.2 = false ∧ (wGmmState.gmmStatErrs 0 (wGmmState.core 0) g x.2).isEmpty = true ∧
      (g.work (wGmmState.core 0)).isEmpty = true) (by decide +kernel)
  refine ⟨fa, fw, h, h1, List.isEmpty_iff.1 h2, ?_⟩
  intro x hx
  rw [show (gmmOf (wEntry wGmm .matrix).word) = gmmOf wGmm from rfl, List.isEmpty_iff.1 h3] at hx
  exact absurd hx List.not_mem_nil

/-- A TCV of one tap, one array, one position and one channel, on Teasel core t0.c0.k10 (R98). -/
def Sys2Proof.Machine.wTcv : W128 :=
  BitVec.ofNat 128 (putBits 127 120 4 + putBits 119 116 1 + putBits 115 111 Fmt.bfloat16.code + putBits 110 106 Fmt.bfloat16.code + putBits 95 80 0x200)
def Sys2Proof.Machine.wTcvState : State :=
  let d := putBits 511 496 0x100 + putBits 479 464 0x100 + putBits 447 432 1 + putBits 431 416 1 + putBits 415 400 1 + putBits 371 367 1 + putBits 364 360 1
  onState.setCore 10 { Core.reset with
    item := some (false, 0), hdr := some { wHdr with teasel := true }, window := [wEntry wTcv .matrix], ls := bytesPut 0 wTile 0x2000 (leBytes 64 d) }

theorem witness_tcv_runs : readyToIssue wTcvState 10 .matrix 0x04 tcvMay (wEntry wTcv .matrix) ∧
    runsWell wTcvState 10 (wEntry wTcv .matrix) (.tcv ⟨0, 0, 10⟩ .sound) := by
  refine ⟨by unfold readyToIssue; and_intros <;> decide +kernel, ?_⟩
  obtain ⟨⟨v, fi, fw⟩, h, h1, h2, h3⟩ := ok_and (e := wTcvState.tcvBar 10 (wTcvState.core 10) wTcv) (p := fun x =>
    let v := x.1
    let k := wTcvState.core 10
    wTcvState.lsBad 10 (tcvDesc wTcv).1 (tcvDesc wTcv).2 = false ∧
      let ws := (List.range v.taps.length).map fun n =>
        let r := wTcvState.tryTiles 10 k x.2.2 none none [convAt k v.wMode v.wBase v.wDir x.2.2 n]
        (r.1.headD (zeroTile x.2.2), r.2)
      (ws.all fun w => w.2.isEmpty) = true ∧
      ∀ q < v.arrays.length, (wTcvState.tcvChain 10 k v x.2.1 ws q).2 = [] ∧ (wTcvState.tcvChain 10 k v x.2.1 ws q).1.failing [] = []) (by decide +kernel)
  exact ⟨v, fi, fw, h, h1, fun w hw => List.isEmpty_iff.1 (List.all_eq_true.1 h2 w hw), h3⟩

/-- Vector and row words over one 1 × 1 BFLOAT16 tensor at 0x1000 (descriptor at 0x300), to a destination descriptor at 0x320; a chain of one PASS (R156, R165). -/
def Sys2Proof.Machine.wDescOf (pay : Nat) (f : Fmt) : List Byte :=
  leBytes 32 (putBits 255 240 pay + putBits 207 203 f.code + putBits 191 176 1 + putBits 175 160 1 + putBits 159 144 1 + putBits 143 128 1 + putBits 127 112 1)

def Sys2Proof.Machine.wUnitState (w : W128) (eng : Engine) : State :=
  coreState [wEntry w eng] (((bytesPut 0 wTile 0x300 (wDescOf 0x100 .bfloat16)) |> fun m => bytesPut 0 m 0x320 (wDescOf 0x400 .bfloat16))
    |> fun m => bytesPut 0 m 0x340 (leBytes 4 (putBits 31 26 8 + putBits 15 11 Fmt.bfloat16.code)))

def Sys2Proof.Machine.wVch : W128 := BitVec.ofNat 128 (putBits 127 120 0x10 + putBits 111 96 0x34 + putBits 95 80 0x30 + putBits 31 16 0x32)

theorem witness_vch_runs : readyToIssue (wUnitState wVch .vector) 0 .vector 0x10 (fun _ _ => true) (wEntry wVch .vector) ∧
    runsWell (wUnitState wVch .vector) 0 (wEntry wVch .vector) (.vch wc .sound) := by
  refine ⟨by unfold readyToIssue; and_intros <;> decide +kernel, ?_⟩
  obtain ⟨⟨df, srcs⟩, h, h1, h2⟩ := ok_and (e := (wUnitState wVch .vector).vchBar ((wUnitState wVch .vector).core 0) (vchOf wVch)) (p := fun x =>
    (∀ r ∈ (vchOf wVch).blocks, (wUnitState wVch .vector).lsBad 0 r.1 r.2 = false) ∧
      ((wUnitState wVch .vector).loadSources 0 ((wUnitState wVch .vector).core 0) x.2).isOk = true) (by decide +kernel)
  obtain ⟨xs, hx⟩ := ok_of_isOk h2
  exact ⟨df, srcs, xs, h, h1, hx⟩

/-- RWF and RWB over the same tensor, FN = 0: dY is X, and dX the destination; the STAT array at 0x500 (R182, R183). -/
def Sys2Proof.Machine.wRow (back : Bool) : W128 :=
  BitVec.ofNat 128 (putBits 127 120 (if back then 0x13 else 0x12) + putBits 95 80 0x30 + putBits 79 64 (if back then 0x30 else 0x32)
    + (if back then putBits 63 48 0x32 + putBits 47 32 0x36 else putBits 63 48 0x36))

def Sys2Proof.Machine.wRowState (back : Bool) : State :=
  let s := wUnitState (wRow back) .row
  s.setCore 0 ((s.core 0).write 0x360 (leBytes 32 (putBits 223 208 0x50)))

theorem witness_row_ready : readyToIssue (wRowState false) 0 .row 0x12 (fun _ _ => true) (wEntry (wRow false) .row) ∧
    readyToIssue (wRowState true) 0 .row 0x13 (fun _ _ => true) (wEntry (wRow true) .row) := by
  unfold readyToIssue; and_intros <;> decide +kernel

theorem row_words (back : Bool) :
    (∀ r ∈ (rowOf (wRow back)).blocks ((wRowState back).core 0), (wRowState back).lsBad 0 r.1 r.2 = false) ∧
    (let k := (wRowState back).core 0
     let o := rowOf (wRow back)
     ∀ r ∈ (((if k.isFiller then none else k.side.find o.tag).map RowSet.pieces).getD ((o.params k).statSpan (o.tensors k).x.rows)),
       (wRowState back).lsBad 0 r.1 r.2 = false) := by
  cases back <;> and_intros <;> decide +kernel

theorem row_oks (back : Bool) : ((wRowState back).rowBar ((wRowState back).core 0) (rowOf (wRow back))).isOk = true ∧
    (let k := (wRowState back).core 0
     let t := (rowOf (wRow back)).tensors k
     ((wRowState back).loadSources 0 k
       ([some t.x, t.dy, t.gamma, t.beta].map fun x => x.map fun x => (x, (Fmt.ofCode x.fmt).getD .binary32))).isOk = true) := by
  cases back <;> and_intros <;> decide +kernel

theorem witness_rwf_runs : runsWell (wRowState false) 0 (wEntry (wRow false) .row) (.rwf wc .sound) := by
  obtain ⟨⟨side, recs⟩, h⟩ := ok_of_isOk (row_oks false).1
  obtain ⟨xs, hx⟩ := ok_of_isOk (row_oks false).2
  exact ⟨side, recs, xs, h, (row_words false).1, fun _ => (row_words false).2, hx⟩

theorem witness_rwb_runs : runsWell (wRowState true) 0 (wEntry (wRow true) .row) (.rwb wc .sound) := by
  obtain ⟨⟨side, recs⟩, h⟩ := ok_of_isOk (row_oks true).1
  obtain ⟨xs, hx⟩ := ok_of_isOk (row_oks true).2
  exact ⟨side, recs, xs, h, (row_words true).1, fun _ => (row_words true).2, hx⟩

/-- A TRD of one tile at 0xF0000 (R178). -/
def Sys2Proof.Machine.wTrd : W128 := BitVec.ofNat 128 (putBits 127 120 0x11 + putBits 110 106 1 + putBits 105 101 1 + putBits 95 80 0xF000 + putBits 63 48 0x100)

def Sys2Proof.Machine.wTrdState : State :=
  coreState [wEntry wTrd .vector] (bytesPut 0 [] 0xF0000 (sealTile .sorrel 1 true false .bfloat16 1 (leBytes 32 (2 ^ 255 - 19))))

theorem witness_trd_ready : readyToIssue wTrdState 0 .vector 0x11 (fun _ _ => true) (wEntry wTrd .vector) := by unfold readyToIssue; and_intros <;> decide +kernel
theorem trd_bar : (trdOf wTrd).outside (wTrdState.core 0) = false ∧ (wTrdState.core 0).isFiller = false ∧ wTrdState.spansOk (wTrdState.core 0) (trdOf wTrd).writes = true ∧
   (∀ r ∈ (trdOf wTrd).headers, wTrdState.lsBad 0 r.1 r.2 = false) := by and_intros <;> decide +kernel
theorem trd_facts : (trdOf wTrd).nt = 1 ∧ (trdOf wTrd).fmtAt (wTrdState.core 0) 0 = some .bfloat16 ∧ bitsOf (wTrdState.core 0).ctl 31 24 = 0 ∧ Sparse.wf 0 (wTrdState.core 0).ls = true := by
  and_intros <;> decide +kernel
theorem trd_tile : (wTrdState.lsTile 0 (wTrdState.core 0) .bfloat16 none ⟨(trdOf wTrd).addr 0, none⟩).isOk = true := by decide +kernel
theorem witness_trd_runs : runsWell wTrdState 0 (wEntry wTrd .vector) (.trd wc .sound) := by
  unfold runsWell
  refine ⟨trd_bar.1, trd_bar.2.1, trd_bar.2.2.1, trd_bar.2.2.2, ?_⟩
  intro j hj
  obtain rfl : j = 0 := by
    have h : j < (trdOf wTrd).nt := hj
    rw [trd_facts.1] at h; omega
  obtain ⟨x, hx⟩ := ok_of_isOk trd_tile
  exact ⟨.bfloat16, x, trd_facts.2.1, rfl, hx⟩

theorem witness_more_stores : wTldState.storesOk ∧ wMmaState.storesOk ∧ wTcvState.storesOk ∧ (wUnitState wVch .vector).storesOk ∧ wTrdState.storesOk ∧
    ∀ b, (wRowState b).storesOk := by
  refine ⟨?_, ?_, ?_, ?_, ?_, fun b => ?_⟩ <;> try cases b
  all_goals constructor <;> decide +kernel

/-- A core about to fetch a SYN, the first word of its program. -/
def Sys2Proof.Machine.wFetch : State := coreState [] [(15, 0x30)]

/-- Witness for FetchFillsTheWindow. -/
theorem witness_fetch :
    wFetch.coreRuns 0 = true ∧ (wFetch.core 0).hdr = some wHdr ∧ (wFetch.core 0).pc < wHdr.plen ∧
    engineOf (bitsOf (BitVec.ofNat 128 (leNat ((wFetch.core 0).read 0 16)) : W128).toNat 127 120) = some .barrier := by decide +kernel

/-- The opcode byte 0x30 is SYN's and 0x32 is nobody's (R69). -/
theorem test_opcodes : engineOf 0x30 = some .barrier ∧ engineOf 0x20 = some .dma ∧ engineOf 0x32 = none := by decide

/-- A core whose window begins with SYN. -/
def Sys2Proof.Machine.wSyn : State := coreState [wEntry (BitVec.ofNat 128 (putBits 127 120 0x30)) .barrier] []

/-- A core with slot 3 of array 1 WRITING. -/
def Sys2Proof.Machine.wWriting : State :=
  let s := coreState [] []
  s.setCore 0 ((s.core 0).setSlot 11 { Slot.reset with state := .writing })

/-- Witnesses for BarriersHoldsAndSlotWrites. -/
theorem witness_barrier :
    wSyn.up = true ∧ (wSyn.core 0).ended = none ∧ wSyn.coreRuns 0 = true ∧
    wSyn.synDone 0 (wEntry (BitVec.ofNat 128 (putBits 127 120 0x30)) .barrier) (.queues true true true true) = true ∧
    ((wWriting.core 0).slot (8 * (1 : ArrayIx).val + (3 : Fin 8).val)).state = .writing ∧
    Sparse.wf Slot.reset (wWriting.core 0).slots = true := by
  and_intros <;> decide +kernel

theorem witness_hold :
    (coreState [wEntry (BitVec.ofNat 128 (putBits 127 120 0x30)) .barrier] []).synDone 0 (wEntry (BitVec.ofNat 128 (putBits 127 120 0x30)) .barrier) (.sealed 0 1) = false ∧
    waitHolds (.sealed 0 1) = true := by decide +kernel

/-- A move of 16 bytes from memory (srcLs) or the local store into the other, at 0 (R269). -/
def Sys2Proof.Machine.wDesc (srcLs : Bool) : W512 := BitVec.ofNat 512 (putBits 268 268 (b2n srcLs) + putBits 267 267 (b2n !srcLs) + putBits 127 96 1)

def Sys2Proof.Machine.wDmv : WinEntry := wEntry (BitVec.ofNat 128 (putBits 127 120 0x20)) .dma

/-- A core with a move in progress, and one with a DMV of a descriptor from tile 0's DRAM in a window of its partition. -/
def Sys2Proof.Machine.wMoving (srcLs : Bool) : State := (coreState [] []).setCluster 0 ⟨[⟨0, wDesc srcLs, wDmv⟩], []⟩

def Sys2Proof.Machine.wDmvState : State :=
  (coreState [wDmv] (bytesPut 0 [] 0 (leBytes 64 ((wDesc false).toNat + putBits 463 416 16)))).modPart 0 fun p =>
    { p with windows := [⟨0, false, false, 0, 4096⟩] }

/-- Witnesses for DmaMovesIssueAndComplete. -/
theorem witness_dmv :
    wDmvState.coreRuns 0 = true ∧ (wDmvState.core 0).head .dma = some wDmv ∧ wDmvState.mayIssue 0 wDmv = true ∧
    wDmvState.dmvBar 0 (wDmvState.core 0) wDmv.word = none ∧ wDmvState.lsBad 0 (dmvAddr wDmv.word) 64 = false := by decide +kernel

theorem witness_dmv_complete : ∀ b, (wMoving b).up = true ∧
    ((wMoving b).cluster 0).dma.find? (fun d => d.core == 0 && d.entry.index == 0) = some ⟨0, wDesc b, wDmv⟩ ∧
    (parseMove (wDesc b).toNat).kind = 0 ∧ (parseMove (wDesc b).toNat).srcLs = b ∧ (parseMove (wDesc b).toNat).dstLs = !b ∧
    (parseMove (wDesc b).toNat).len = 1 := by decide +kernel

/-- STL words with operation op at address 0x100 (R143). -/
def Sys2Proof.Machine.wStl (op : Nat) : WinEntry := wEntry (BitVec.ofNat 128 (putBits 127 120 0x31 + putBits 119 117 op + putBits 111 96 0x100)) .matrix

/-- A descriptor of two slabs of one k-step, one output tile, BFLOAT16, its areas apart (R146). -/
def Sys2Proof.Machine.wGroup : Nat :=
  putBits 431 412 0x8000 + putBits 411 396 0x800 + putBits 395 380 0x1000 + putBits 379 375 Fmt.bfloat16.code
    + putBits 374 370 Fmt.bfloat16.code + putBits 350 347 1

def Sys2Proof.Machine.wStlState (op : Nat) : State := coreState [wStl op] (bytesPut 0 [] 0x1000 (leBytes 64 wGroup))

/-- An open group whose two partials are done, and a neighbour that offers. -/
def Sys2Proof.Machine.wOpen (done : List (Nat × Nat × Nat)) : State :=
  let g : StealGroup := ⟨1, BitVec.ofNat 512 wGroup, wStl 0, done, [], 0, [], 0, true⟩
  let k : Core := { Core.reset with item := some (false, 0), hdr := some wHdr }
  ((onState.setCore 0 { k with role := .offering }).setCore 1 k).setCluster 0 ⟨[], [g]⟩

/-- Witnesses for StealGroupsOpenShareAndMerge. -/
theorem witness_stl_open :
    (wStlState 0).groupOf 0 = none ∧ readyToIssue (wStlState 0) 0 .matrix 0x31 (fun _ w => stlOp w == 0) (wStl 0) ∧
    ((wStlState 0).openBar ((wStlState 0).core 0) (wStl 0).word).isOk = true ∧ (wStlState 0).lsBad 0 0x1000 64 = false := by
  unfold readyToIssue; and_intros <;> decide +kernel

theorem witness_stl_offer :
    readyToIssue (wStlState 1) 0 .matrix 0x31 (fun _ w => stlOp w == 1) (wStl 1) ∧
    (wStlState 1).spansOk ((wStlState 1).core 0) [(16 * stlAddr (wStl 1).word, 48 * 1024)] = true ∧
    readyToIssue (wStlState 2) 0 .matrix 0x31 (fun _ w => stlOp w == 2) (wStl 2) := by
  unfold readyToIssue; and_intros <;> decide +kernel

theorem witness_steal :
    (wOpen []).keep.marks = [] ∧ ((wOpen []).groupOf 1).isSome = true ∧ (wOpen []).coreRuns 1 = true ∧
    ((wOpen []).victim 0).isSome = true ∧ ((wOpen []).victim 0).map (·.2) = some (1, [0]) ∧
    ((wOpen []).core 0).maySteal = true ∧ (wOpen []).groupOf 0 = none ∧
    (((wOpen [(0, 0, 1), (0, 1, 2)]).groupOf 1).bind StealGroup.nextSum) = some (0, 0, 1, 2) := by decide +kernel

/-! A thief computes a slab. -/

/-- A group of two slabs of one tile each, both directories at 0x100 with their tiles at 0x200, one row (R146). -/
def Sys2Proof.Machine.wLootDesc : Nat :=
  wGroup + putBits 511 492 0x10 + putBits 491 472 0x20 + putBits 471 452 0x10 + putBits 451 432 0x20 + putBits 346 342 1

def Sys2Proof.Machine.wLoot : State :=
  let g : StealGroup := ⟨1, BitVec.ofNat 512 wLootDesc, wStl 0, [], [], 0, [], 0, true⟩
  let k : Core := { Core.reset with item := some (false, 0), hdr := some wHdr }
  let s := ((onState.setCore 0 { k with role := .offering }).setCore 1 k).setCluster 0 ⟨[], [g]⟩
  let at_ := clusterStoreAddr 0
  (List.range 2).foldl (fun (s : State) n => s.writeMem (at_ (0x100 + 8 * n)) (leBytes 8 (⟨0, 3, 1⟩ : DirEntry).word))
    (s.writeMem (at_ 0x200) (sealTile .sorrel 1 true false .bfloat16 1 (leBytes 32 (2 ^ 255 - 19))))

theorem witness_steal_runs : (wLoot.victim 0).map (fun v => (v.1.owner, v.2)) = some (1, 1, [0]) ∧ wLoot.coreRuns 0 = true ∧
    (wLoot.core 0).maySteal = true ∧ (wLoot.groupOf 0).isNone = true ∧ wLoot.keep.marks = [] ∧
    (Fmt.ofCode (parseGroup wLootDesc).fmtA, Fmt.ofCode (parseGroup wLootDesc).fmtW) = (some .bfloat16, some .bfloat16) := by decide +kernel

theorem witness_steal_chain : ∃ ch, wLoot.slabChain (wLoot.core 1).part 0 (parseGroup wLootDesc) .bfloat16 .bfloat16 0 1 0 7 0 = .ok ch ∧ ch.failing [] = [] := by
  apply ok_and; decide +kernel

theorem witness_steal_stores : wLoot.storesOk := by constructor <;> decide +kernel

/-- R149's merge order for five slabs: (0, 4) of (0, 2) and (2, 4), then slab 4. -/
theorem test_merge_plan : mergePlan 16 0 5 = [(0, 1, 2), (2, 3, 4), (0, 2, 4), (0, 4, 5)] := by decide

/-- A node of an item on cluster 0 of tile 0 and a step with one such node. -/
def Sys2Proof.Machine.wNode (st : NodeState) : Node := ⟨.item, 0, [], 0, some wHdr, st, false, .ok, 0⟩

def Sys2Proof.Machine.wStep (nodes : List Node) : StepRun :=
  { part := 0, jseq := 1, step := 1, nodes, layers := [], mb := 1, isSeal := true, replayMax := 3, itemLog := 0, replays := 0, startedAt := 0,
    retryNs0 := 0, fail := none, notes := 0, subst := 0, promoted := 0, qfull := 0, dropped := 0, nfCount := 0, splitItems := 0,
    deferredFull := [], tileErrors := [], prepared := false, failSent := false, abort := none }

/-- A step with one ready item whose program lies in its partition's window. -/
def Sys2Proof.Machine.wReady : State :=
  { onState.modPart 0 fun p => { p with windows := [⟨0, false, false, 0, 4096⟩] } with step := some (wStep [wNode .ready]) }

def Sys2Proof.Machine.wSus : Suspended := ⟨0, wHdr, 0, none, 0, [], [], .empty, none, none, 0, false, 0, 0⟩

/-- Every core of cluster 0 runs the filler's item, and main work waits. -/
def Sys2Proof.Machine.wFull : State :=
  { (List.range 12).foldl (fun s i => s.setCore i { Core.reset with item := some (true, 0), hdr := some wHdr }) wReady with
    filler := some (wStep [wNode .running]) }

/-- Witnesses for WorkItemsStartAndEnd. -/
theorem witness_start_main :
    wReady.up = true ∧ wReady.coreFree 0 = true ∧ (((wReady.at 5).chooseMain (wStep [wNode .ready]) 0).2.map (·.1)) = some 0 ∧
    wReady.itemBar false 0 0 wHdr = none := by decide +kernel

theorem witness_start_filler :
    ({ onState.setCore 0 { Core.reset with suspended := some wSus } with filler := some (wStep []) } : State).coreFree 0 = true ∧
    ({ onState.setCore 0 { Core.reset with suspended := some wSus } with filler := some (wStep []) } : State).mainWork 0 = false := by
  decide +kernel

theorem witness_item_ends :
    ((coreState [] []).core 0).item.isSome = true ∧ (coreState [] []).up = true ∧
    ((coreState [] []).setCore 0 { (coreState [] []).core 0 with pc := 1 }).itemDrained 0 = true := by decide +kernel

theorem witness_preempt :
    wFull.up = true ∧ wFull.mainWork 0 = true ∧ wFull.fillerCore 0 = some 0 ∧ (∀ k < 12, wFull.coreFree (12 * 0 + k) = false) ∧
    (wFull.core 0).item = some (true, 0) ∧ (wFull.core 0).hdr = some wHdr := by decide +kernel

/-- Two tokens, both with expert 1 first, k = 1, CAP = 1, DEPTH = 1: the second overflows to expert 0 (R229, by hand). -/
theorem test_overflow :
    (let d : Route := { parseRoute 0 with k := 1, depth := 1, cap := 1 }
     let o := [[0x3F000000, 0x3F800000], [0x3F000000, 0x3F800000]].foldl (fun o g => d.token (fun _ => FVal.posZero) g o)
       ⟨Array.replicate 256 0, Array.replicate 256 0, [], 0, 0⟩
     (o.slots, o.overN)) = ([[(1, 0, 0x3F800000)], [(0, 0, 0x3F000000)]], 1) := by decide +kernel

/-- A request of part 0 at the head of tile 3's queue, its node running. -/
def Sys2Proof.Machine.wRouting : State :=
  { wReady with step := some (wStep [{ wNode .running with kind := .route, hdr := none }])
                xpr := { Xpr.reset with queues := List.replicate 3 [] ++ [[⟨0, 0, 0⟩]] ++ List.replicate 6 [] } }

/-- Witnesses for RouteRequestsTakeTheQueueHead. -/
theorem witness_route :
    wRouting.up = true ∧ (wRouting.xpr.queues.getD 3 []).head? = some ⟨0, 0, 0⟩ ∧
    (wRouting.runOf 0).map (·.1) = some false ∧ (wRouting.step.all fun r => r.fail.isNone && r.abort.isNone) = true ∧
    ({ onState with xpr := { Xpr.reset with place := .building } } : State).up = true := by decide +kernel

theorem witness_route_stores : wRouting.storesOk := by constructor <;> decide +kernel

/-! A request that completes. -/

/-- The routing state with one expert placed and a gate tile at 0x10000 (R225, R226). -/
def Sys2Proof.Machine.wRouteWord : Nat := putBits 511 464 0x10000 + putBits 463 416 0x20000 + putBits 415 368 0x21000 + putBits 367 320 0x22000 + putBits 287 272 1

def Sys2Proof.Machine.wRouteBase : State :=
  let p : Twin W32 := ⟨0x80000000, 0x80000000⟩
  let s := { wRouting with xpr := { wRouting.xpr with
    queues := [⟨0, 0, 0⟩] :: List.replicate 9 [], active := List.replicate 11 (p :: List.replicate 255 placeEmpty) } }
  let s : State := s.modPart 0 fun q => { q with windows := [⟨0, false, false, 0, 0x100000⟩] }
  s.writeMem 0 (leBytes 64 wRouteWord)

def Sys2Proof.Machine.wRouteOk : State := wRouteBase.writeMem 0x10000 (encodeDense (zeroTile .binary32))


theorem gate_bytes : (encodeDense (zeroTile .binary32)).length = 4112 := by decide +kernel

theorem route_base_stores : wRouteBase.storesOk := by constructor <;> decide +kernel

theorem storesOk_writeMem (s : State) (a : Nat) (bs : List Byte) (h : s.storesOk) : (s.writeMem a bs).storesOk :=
  ⟨State.writeMem_wf _ _ _ h.mem, h.flash0, h.flash1, h.regs, h.cores, h.clusters⟩

theorem witness_route_ok_stores : wRouteOk.storesOk := by rw [wRouteOk]; exact storesOk_writeMem _ _ _ route_base_stores

theorem route_descriptor : wRouteOk.memNat 0 64 = wRouteWord := by
  show leNat (wRouteOk.readMem 0 64) = wRouteWord
  rw [wRouteOk, State.readMem_writeMem_ne _ _ _ _ _ route_base_stores.mem (Or.inl (by decide))]
  have : leNat (wRouteBase.readMem 0 64) = wRouteWord := by decide +kernel
  exact this

theorem witness_route_ok :
    (wRouteOk.xpr.queues.getD 0 []).head? = some ⟨0, 0, 0⟩ ∧ wRouteOk.keep.marks = [] ∧ wRouteOk.addrOk 0 0 64 false = true ∧ wRouteOk.memNat 0 64 = wRouteWord ∧
    (parseRoute wRouteWord).areas.zipIdx.all (fun x => wRouteOk.addrOk 0 x.1.1 x.1.2 (x.2 != 0)) = true ∧
    (parseRoute wRouteWord).ok 0 ((List.range 256).map fun e => ((wRouteOk.xpr.active.getD 0 []).getD e placeEmpty).val.toNat) = true :=
  ⟨by decide +kernel, rfl, by decide +kernel, route_descriptor, by decide +kernel, by decide +kernel⟩

theorem leBytes_two (n : Nat) : leBytes 2 n = [BitVec.ofNat 8 n, BitVec.ofNat 8 (n / 256)] := by simp [leBytes, Nat.shiftRight_eq_div_pow]

theorem gate_word (nf : Bool) : leBytes 14 (hdrWord 0 .dense 64 nf false .binary32 (2 ^ 64 - 1))
      = [255, 255, 255, 255, 255, 255, 255, 255, 0, 0, 0, 1, if nf then 0x41 else 1, 0xA0] := by
  cases nf <;> decide +kernel

theorem gate_number (nf : Bool) (c : BitVec 16) (rest : List Byte) :
    leNat (((leBytes 14 (hdrWord 0 .dense 64 nf false .binary32 (2 ^ 64 - 1)) ++ leBytes 2 c.toNat ++ rest).take 16))
      = 0xA00101000000FFFFFFFFFFFFFFFF + (if nf then 2 ^ 102 else 0) + 2 ^ 112 * c.toNat := by
  have hc := c.isLt
  rw [gate_word, List.append_assoc, leBytes_two]
  simp only [List.cons_append, List.nil_append, List.take_succ_cons, List.take_zero, leNat, BitVec.toNat_ofNat]
  cases nf
  · simp only [show (255 : Byte).toNat = 255 from rfl, show (0 : Byte).toNat = 0 from rfl, show (1 : Byte).toNat = 1 from rfl, show (0xA0 : Byte).toNat = 0xA0 from rfl, Bool.false_eq_true, if_false]
    omega
  · simp only [show (255 : Byte).toNat = 255 from rfl, show (0 : Byte).toNat = 0 from rfl, show (1 : Byte).toNat = 1 from rfl, show (0xA0 : Byte).toNat = 0xA0 from rfl, if_true, show (0x41 : Byte).toNat = 0x41 from rfl]
    omega

theorem gate_header (nf : Bool) (c : BitVec 16) (rest : List Byte) :
    parseHdr (leBytes 14 (hdrWord 0 .dense 64 nf false .binary32 (2 ^ 64 - 1)) ++ leBytes 2 c.toNat ++ rest)
      = ⟨c.toNat, 2, 64, nf, false, Fmt.binary32.code, 1, 2 ^ 64 - 1⟩ := by
  have hc := c.isLt
  have h3 : Fmt.binary32.code = 1 := by decide
  simp only [parseHdr, gate_number, h3, bitsOf, bitOf, Nat.testBit_eq_decide_div_mod_eq, Nat.shiftRight_eq_div_pow, TileHdr.mk.injEq]
  cases nf <;> simp only [Bool.false_eq_true, if_false, if_true, decide_eq_false_iff_not, decide_eq_true_eq] <;> and_intros <;> omega
theorem checkHdr_dense (bs : List Byte) (c : Nat) (nf : Bool) (hp : parseHdr bs = ⟨c, 2, 64, nf, false, Fmt.binary32.code, 1, 2 ^ 64 - 1⟩)
    (ht : tileCrc bs 4112 = c) :
    checkHdr .ywbl10 (some .binary32) none bs = .ok (.binary32, ⟨c, 2, 64, nf, false, Fmt.binary32.code, 1, 2 ^ 64 - 1⟩) := by
  have hf : hdrFormat .ywbl10 (some .binary32) ⟨c, 2, 64, nf, false, Fmt.binary32.code, 1, 2 ^ 64 - 1⟩ = .ok .binary32 := by cases nf <;> rfl
  have hl : tileLen .binary32 2 64 = 4112 := by decide
  unfold checkHdr
  rw [hp]
  dsimp only
  rw [hf]
  dsimp only
  rw [hl, ht]
  cases nf <;> simp [hdrConsistent]

theorem tileCrc_append (a b body : List Byte) (c n : Nat) (ha : a.length = 14) (hb : b.length = 2) (hn : body.length ≤ n)
    (hc : (crc16 (a ++ body)).toNat = c) : tileCrc (a ++ b ++ body) (16 + n) = c := by
  unfold tileCrc slice
  rw [← hc, List.append_assoc, List.take_left' ha, ← List.append_assoc, List.drop_left' (by simp [ha, hb]), List.take_of_length_le (by omega)]

/-- A tile that `sealTile` makes dense in binary32 passes the checks. -/
theorem checkHdr_sealTile (nf : Bool) (body : List Byte) (h : body.length = 4096) :
    ∃ x, checkHdr .ywbl10 (some .binary32) none (sealTile .dense 64 nf false .binary32 (2 ^ 64 - 1) body) = .ok x ∧
      (parseHdr (sealTile .dense 64 nf false .binary32 (2 ^ 64 - 1) body)).form = 2 ∧
      (parseHdr (sealTile .dense 64 nf false .binary32 (2 ^ 64 - 1) body)).fmt = Fmt.binary32.code :=
  ⟨_, checkHdr_dense _ _ nf (gate_header nf _ body)
    (tileCrc_append _ _ body _ 4096 (leBytes_length _ _) (leBytes_length _ _) (Nat.le_of_eq h) rfl), congrArg TileHdr.form (gate_header nf _ body),
    congrArg TileHdr.fmt (gate_header nf _ body)⟩

theorem readMem_take (s : State) (a n m : Nat) (h : Memory.wf s.mem = true) (hn : n ≤ m) : s.readMem a n = (s.readMem a m).take n := by
  show bytesAt 0 s.mem a n = (bytesAt 0 s.mem a m).take n
  rw [bytesAt_eq _ _ _ _ h, bytesAt_eq _ _ _ _ h, ← List.map_take, List.take_range, Nat.min_eq_left hn]

theorem readMem_16 (s : State) (a m : Nat) (h : Memory.wf s.mem = true) (hm : 16 ≤ m) : parseHdr (s.readMem a 16) = parseHdr (s.readMem a m) := by
  rw [readMem_take s a 16 m h hm]
  unfold parseHdr
  rw [List.take_take]; rfl

theorem gate_ok (s : State) (a : Nat) (body : List Byte) (nf : Bool) (hw : Memory.wf s.mem = true) (hp : s.part = .ywbl10) (hk : s.keep.marks = [])
    (hb : body.length = 4096) (hr : s.readMem a 4112 = sealTile .dense 64 nf false .binary32 (2 ^ 64 - 1) body) (d : Route) (ht : d.t = 1) (he : d.e = 1)
    (hg : d.gate = a) : ∃ ts, s.gateTiles d = .ok ts := by
  obtain ⟨x, hx, h1, h2⟩ := checkHdr_sealTile nf body hb
  have h16 := readMem_16 s a 4112 hw (by decide)
  rw [hr] at h16
  generalize sealTile .dense 64 nf false .binary32 (2 ^ 64 - 1) body = bs at *
  refine ⟨[decodeTile x.1 x.2 bs], ?_⟩
  unfold State.gateTiles
  rw [ht, he, hg]
  simp only [show ceilDiv 1 32 * ceilDiv 1 32 = 1 from by decide, List.range_one, List.mapM_cons, List.mapM_nil, Nat.zero_mul, Nat.add_zero, h16, h1, h2,
    show Fmt.binary32.denseBytes = 4112 from by decide, hr, hk, hp, hx]
  simp [Form.code, marked] <;> rfl

theorem witness_route_twins : ∀ e, twinOk ((wRouteOk.xpr.active.getD 0 []).getD e placeEmpty) = true := by
  intro e
  rw [show wRouteOk.xpr.active.getD 0 [] = ⟨0x80000000, 0x80000000⟩ :: List.replicate 255 placeEmpty from rfl]
  cases e with
  | zero => decide
  | succ n => rw [List.getD_cons_succ, getD_replicate_self]; decide

theorem witness_route_tiles : ∃ ts, wRouteOk.gateTiles (parseRoute wRouteWord) = .ok ts := by
  have hd : (parseRoute wRouteWord).t = 1 ∧ (parseRoute wRouteWord).e = 1 ∧ (parseRoute wRouteWord).gate = 0x10000 := by decide +kernel
  obtain ⟨nf, body, he, hb⟩ : ∃ (nf : Bool) (body : List Byte), encodeDense (zeroTile .binary32) = sealTile .dense 64 nf false .binary32 (2 ^ 64 - 1) body
      ∧ body.length = 4096 := ⟨_, _, rfl, by decide +kernel⟩
  have hr : wRouteOk.readMem 0x10000 4112 = sealTile .dense 64 nf false .binary32 (2 ^ 64 - 1) body := by
    rw [← he, ← gate_bytes, wRouteOk]; exact State.readMem_writeMem _ _ _ route_base_stores.mem
  exact gate_ok _ _ body nf witness_route_ok_stores.mem (by rw [wRouteOk]; rfl) (by rw [wRouteOk]; rfl) hb hr _ hd.1 hd.2.1 hd.2.2

/-- Witness for BiasLoopRunsOnceAtTheStepsEnd: a sealing step with its one node done. -/
theorem witness_bias :
    ({ onState with step := some (wStep [wNode .done]) } : State).up = true ∧ (wStep [wNode .done]).allDone = true ∧
    ((Xpr.reset).join []).paramsDiffer = false := by decide +kernel

/-- Demand 3 and 1 about a mean of 2, ETA = 1: biases −1 and 1 (R252, by hand). -/
theorem test_bias : updateBiases ⟨1, 0, 0x3F800000⟩ 0 [(0, 3), (1, 1)] (fun _ => 0) = [(0, 0xBF800000), (1, 0x3F800000)] := by decide +kernel

/-- Two ranks on the X axis; this module is rank `r` of partition 0's job. -/
def Sys2Proof.Machine.duo (r : Nat) (d : Bucket) (k : NodeKind) (defs : List Bucket) : State :=
  let s := onState.modPart 0 fun p => { p with
    state := .running, extent := 2, coord := BitVec.ofNat 32 r, windows := [⟨0, false, false, 0, 2 ^ 30⟩] }
  { s with bnt := { s.bnt with defs }, step := some (wStep [{ wNode .ready with kind := k, hdr := none, arg := d.tag.toNat }]) }

/-- An EXCHANGE over X with an all-zero block but for its format, BFLOAT16, and one tile of row width (R309, R344). -/
def Sys2Proof.Machine.wExch : Bucket :=
  let w := putBits 480 480 1 + putBits 479 477 kExchange + putBits 476 473 8 + putBits 416 416 1
  parseBucket (leBytes 64 w ++ zeros 32 ++ leBytes 64 (putBits 488 484 Fmt.bfloat16.code + putBits 483 474 1) ++ zeros 256)

def Sys2Proof.Machine.wExchState : State :=
  { duo 0 wExch .exchange [wExch] with xpr := { Xpr.reset with routes := [(0, ⟨1, 1, 1, 1⟩)] } }

/-- Witnesses for ExchangesSendAndGatherSegments. -/
theorem witness_exchange :
    wExchState.up = true ∧ (wExchState.bucketDef 1).isSome = true ∧ wExch.kind = kExchange ∧ wExch.tag = 1 ∧
    (wExchState.runOf (tagPart 1)).isSome = true ∧ (wExchState.step.all fun r => r.readyNode .exchange 1) = true ∧
    wExchState.inFlight 1 = false ∧ wExchState.runBar wExch = none ∧ wExchState.nRanks wExch = 2 ∧ wExchState.myRank wExch = 0 ∧
    (wExchState.routeFacts (parseExch wExch.block)).isSome = true ∧ wExchState.fenced 1 = false := by decide +kernel

theorem witness_exchange_placement : (wExchState.placement 0).2.isSome = true := by
  rw [State.placement_of _ _ fun e => by
    rw [show wExchState.xpr.active.getD 0 [] = List.replicate 256 placeEmpty from rfl, getD_replicate_self]; decide]
  rfl

theorem witness_segment :
    twinValue 48 ((twinBytes 48 (putBits 351 348 1)).take 96) = some (putBits 351 348 1) ∧
    twinValue 48 ((zeros 96).take 96) = none := by decide +kernel

/-- Witness for VetchPoolsStayAccounted. -/
theorem witness_accounted : ∀ v ∈ State.reset.vetch, v.accounted := by
  intro v hv
  have h : v = ⟨[], [], []⟩ := List.eq_of_mem_replicate hv
  subst h
  exact ⟨List.Pairwise.nil, fun _ h => absurd h List.not_mem_nil⟩

/-- Tile 0 with a pool of two buffers of 4 KiB at 0 and owner 0; buffer 0 taken when `held`, shared with owner 0 itself when `sh` says how. -/
def Sys2Proof.Machine.wVetch (held : Bool) (sh : Option Share) : State :=
  let o : Owner := ⟨.queue, 0, 0, 0, 0, 0, 0⟩
  let p : Pool :=
    { base := 0, cls := 0, part := 0, region := false, general := true, count := 2, free := Twin.both (if held then 1 else 2)
      reserve := Twin.both 0, bufs := if held then [(0, ⟨Twin.both true, 0⟩)] else [], badBits := [], lowWater := 0, emptyEvents := 0, fallbacks := 0
      frozen := false }
  onState.setVetch 0 ⟨[(0, p)], [(0, Twin.both o)], (sh.map fun x => (0, Twin.both x)).toList⟩

/-- A request word of R298: operation, one co-owner (owner 0). -/
def Sys2Proof.Machine.wVetchReq (op : Nat) : W256 := BitVec.ofNat 256 (putBits 255 252 op + putBits 231 229 1)

/-- Witnesses for VetchRequestsMoveBuffers. -/
theorem witness_vetch_ask : ∀ op < 4, ∀ held,
    vetchAsk op 0 0 0 (wVetchReq op) 0 ((wVetch held none).vetchOf 0) (wVetch held none) := by
  intro op h held
  have : op = 0 ∨ op = 1 ∨ op = 2 ∨ op = 3 := by omega
  rcases this with rfl | rfl | rfl | rfl <;> cases held <;> (unfold vetchAsk; and_intros <;> first | rfl | decide)

theorem witness_vetch_shared :
    vetchAsk 3 0 0 0 (wVetchReq 3) 0 ((wVetch true (some ⟨0, 0, 0, [(0, false)], true⟩)).vetchOf 0) (wVetch true (some ⟨0, 0, 0, [(0, false)], true⟩)) ∧
    (((wVetch true (some ⟨0, 0, 0, [(0, false)], true⟩)).vetchOf 0).shareOf 0 0).isSome = true ∧
    releaseCo 0 [(0, false)] = some [(0, true)] := by
  unfold vetchAsk; and_intros <;> first | rfl | decide

theorem witness_vetch_pool :
    (((wVetch false none).vetchOf 0).pool 0).any (fun p => p.twinsOk && p.reserve.val < p.free.val) = true ∧
    (((wVetch true none).vetchOf 0).byHandle 0 0).isSome = true := by decide

/-- A queued command at the head of partition 0's queue 0. -/
def Sys2Proof.Machine.wCmd (family op : Nat) (params : List Byte) : Cmd :=
  { jseq := 1, reqId := 1, slot := 0, sess := 0, sessGen := 0, family, op, part := 0, queue := 0, mgmt := false, notify := false, after := 0
    params, started := false, restart := false }

def Sys2Proof.Machine.State.queued (s : State) (c : Cmd) : State :=
  if c.mgmt then { s with mgmt := ⟨[c], 0, []⟩ }
  else s.modPart 0 fun p => { p with queues := modifyAt p.queues 0 fun _ => ⟨[c], 0, []⟩ }

/-- A strict ALL_REDUCE of one BFLOAT16 tile over X: segment table at 0x100, status at 0x200, result at 0x1000, contribution at 0x4000. -/
def Sys2Proof.Machine.wReduceBytes (more : Nat) : List Byte :=
  leBytes 64 (putBits 480 480 1 + putBits 479 477 kAllReduce + putBits 476 473 8 + putBits 467 463 Fmt.bfloat16.code + putBits 416 416 1
      + putBits 415 380 0x100 + putBits 379 344 0x1000 + putBits 343 308 0x200 + more)
    ++ leBytes 32 (putBits 243 220 32 + putBits 219 204 32 + putBits 203 168 0x4000)

def Sys2Proof.Machine.wReduce (more : Nat) : Bucket := parseBucket (wReduceBytes more)

/-- A module of two ranks with a general pool on tile 0, about to run COLL_SETUP of the reduction. -/
def Sys2Proof.Machine.wSetup : State :=
  let p : Pool :=
    { base := 0, cls := 5, part := 0, region := false, general := true, count := 4, free := Twin.both 4, reserve := Twin.both 0, bufs := [], badBits := []
      lowWater := 4, emptyEvents := 0, fallbacks := 0, frozen := false }
  ((duo 0 (wReduce 0) .bucket []).setVetch 0 ⟨[(0, p)], [], []⟩).queued (wCmd 5 1 (wReduceBytes 0))

/-- Witnesses for CollectivesAreDefinedAndRemoved. -/
theorem witness_setup :
    wSetup.up = true ∧ wSetup.runnable 5 1 1 = some (wCmd 5 1 (wReduceBytes 0)) ∧ (wReduce 0).fieldsOk 0 (wReduceBytes 0).length = true ∧
    (wReduce 0).delivers = false ∧ wSetup.contentStatus (wReduce 0) = .ok ∧ (wSetup.fillRecords (wReduce 0)).isOk = true ∧
    wSetup.inFlight (wReduce 0).tag = false ∧ ((wSetup.dropOwners (wReduce 0).tag).addOwners (wReduce 0)).isOk = true := by decide +kernel

theorem witness_remove :
    ((duo 0 (wReduce 0) .bucket [wReduce 0]).queued (wCmd 5 2 (leBytes 4 1))).runnable 5 2 1 = some (wCmd 5 2 (leBytes 4 1)) ∧
    tagPart (BitVec.ofNat 32 (leAt (leBytes 4 1) 0 4)) = 0 := by decide +kernel

/-- A step of rank 0 of two that names the reduction. -/
def Sys2Proof.Machine.wValue (rank more : Nat) (runs : List BucketRun) : State :=
  let s := duo rank (wReduce more) .bucket [wReduce more]
  { s with bnt := { s.bnt with runs } }

/-- Witness for RankValuesGoToEveryRank. -/
theorem witness_rank_value :
    (wValue 0 0 []).up = true ∧ (wValue 0 0 []).bucketDef 1 = some (wReduce 0) ∧ ((wValue 0 0 []).runOf 0).isSome = true ∧
    (wReduce 0).isReduce = true ∧ ((wValue 0 0 []).step.all fun r => r.names 1 && (wReduce 0).leaves.all fun e => r.leafReady 1 e.1 e.2) = true ∧
    (wValue 0 0 []).runBar (wReduce 0) = none ∧ (wReduce 0).replay = false ∧ (wValue 0 0 []).otherRanks (wReduce 0) = [1] := by decide +kernel

/-- A header of rank 1 with a value and its complement (R321). -/
def Sys2Proof.Machine.wHead (step : Nat) : W512 := BitVec.ofNat 512 (leNat (twinBytes 32 (headerWord 1 1 step false false false 0 1 0)))

/-- Witnesses for HeadersOpenBucketsOrAreStale. -/
theorem witness_header :
    (twinValue 32 (leBytes 64 (wHead 1).toNat)).map (fun w => (bitsOf w 255 224, bitsOf w 223 212, bitsOf w 211 180)) = some (1, 1, 1) ∧
    (wValue 0 0 []).bucketStep 1 = 1 ∧ (wValue 0 0 []).fenced 1 = false ∧ (wValue 0 0 []).nRanks (wReduce 0) = 2 ∧
    stepBefore 0 1 = true ∧ stepBefore 1 0 = false ∧ twinValue 32 (leBytes 64 (2 ^ 224)) = none := by decide +kernel

/-- A run of the reduction's step, opened at 0. -/
def Sys2Proof.Machine.wRun (mask : Option (List Nat)) : BucketRun :=
  { tag := 1, step := 1, openedAt := some 0, headers := [], mask, data := [], asked := [], done := false, kept := false, told := false }

/-- Witnesses for MasksDecideWhoIsIncluded: the root with a deadline of 1 µs; rank 1. -/
theorem witness_masks :
    (wValue 0 (putBits 439 439 1) [wRun none]).openRunOf 1 = some (wRun none) ∧ (wReduce (putBits 439 439 1)).deadlineUs = 1 ∧
    (wValue 0 (putBits 439 439 1) [wRun none]).bucketDef 1 = some (wReduce (putBits 439 439 1)) ∧
    (wValue 0 (putBits 439 439 1) [wRun none]).myRank (wReduce (putBits 439 439 1)) = 0 ∧
    (wValue 1 0 []).bucketStep 1 = 1 ∧ (wValue 1 0 []).myRank (wReduce 0) = 1 ∧
    ((wValue 1 0 [wRun (some [1, 0])]).openRunOf 1).any (fun r => r.mask.any fun m => m.getD 0 1 != 0) = true ∧
    (parseTiles .ywbl10 .binary32 1 []).isOk = true := by decide +kernel

/-- A PARAM_GATHER over X of one 32 × 32 BFLOAT16 segment whose record is at 0 (R309, R310). -/
def Sys2Proof.Machine.wGather : Bucket :=
  parseBucket (leBytes 64 (putBits 480 480 1 + putBits 479 477 kParamGather + putBits 476 473 8 + putBits 416 416 1)
    ++ leBytes 32 (putBits 243 220 32 + putBits 219 204 32 + putBits 54 50 Fmt.bfloat16.code))

def Sys2Proof.Machine.wGatherState : State :=
  let s := duo 0 wGather .gather [wGather]
  { s with bnt := { s.bnt with gathers := [⟨1, 0, [], []⟩] } }

/-- Witnesses for GathersServeAndCheckShards: rank 1 owns the one tile. -/
theorem witness_gather :
    (duo 0 wGather .gather [wGather]).bucketDef 1 = some wGather ∧ wGather.kind = kParamGather ∧
    ((duo 0 wGather .gather [wGather]).step.all fun r => r.readyNode .gather 1) = true ∧ (duo 0 wGather .gather [wGather]).runBar wGather = none ∧
    wGatherState.bnt.gathers.find? (fun g => g.tag == 1) = some ⟨1, 0, [], []⟩ ∧ wGatherState.unitRange wGather 1 = (0, 1) ∧
    1 < wGather.maskTiles.length * wGatherState.nRanks wGather ∧ crc32 [] ≠ 5 := by decide +kernel

/-- A PERMUTE of epoch 0 to epoch 1 with no move that concerns this module (R341). -/
def Sys2Proof.Machine.wPerm : Bucket :=
  parseBucket (leBytes 64 (putBits 480 480 1 + putBits 479 477 kPermute + putBits 476 473 8 + putBits 416 416 1) ++ zeros 32
    ++ leBytes 16 (putBits 119 112 1))

/-- Witnesses for PermuteFencesThenMoves: drained, and with an open run of the old epoch. -/
theorem witness_permute :
    (duo 0 wPerm .permute [wPerm]).bucketDef 1 = some wPerm ∧ wPerm.kind = kPermute ∧ (parsePerm wPerm.block).new = 1 ∧
    ((duo 0 wPerm .permute [wPerm]).step.all fun r => r.readyNode .permute 1) = true ∧
    (duo 0 wPerm .permute [wPerm]).planOk 0 (parsePerm wPerm.block) = true ∧
    (duo 0 wPerm .permute [wPerm]).linkBar ((duo 0 wPerm .permute [wPerm]).partition 0) allAxes = none ∧
    ((duo 0 wPerm .permute [wPerm]).moveData 0 (parsePerm wPerm.block) 0 []).isSome = true := by decide +kernel

theorem witness_permute_moves :
    ((duo 0 wPerm .permute [wPerm]).permuteMoves wPerm (parsePerm wPerm.block) 0 []).isOk = true := by decide +kernel

/-- A sealing step of partition 0 with no nodes, on rank `rank` of two. -/
def Sys2Proof.Machine.wSeal (rank : Nat) (f : StepRun → StepRun) : State :=
  let s := onState.modPart 0 fun p => { p with state := .running, extent := 2, coord := BitVec.ofNat 32 rank }
  { s.setReg Reg.bntSealTimeout 1 with step := some (f (wStep [])), xpr := { Xpr.reset with biasDone := true } }

/-- Witnesses for RanksPrepareOrFail. -/
theorem witness_prepare :
    (wSeal 1 id).up = true ∧ (wSeal 1 id).sealingStep 0 = some (wStep []) ∧ (wSeal 1 id).jobRank 0 = 1 ∧ (wSeal 0 id).jobRank 0 = 0 ∧
    ((wStep []).allDone && (wSeal 1 id).bucketsDone (wStep [])) = true ∧ ((wSeal 1 id).sealCrcs 0).isOk = true ∧
    ((wSeal 1 fun r => { r with fail := some .memUncorrectable }).sealingStep 0).map (·.fail) = some (some .memUncorrectable) ∧
    (wStep [wNode .ready]).allDone = false := by decide +kernel

/-- Witnesses for TheRootDecidesOnceForAll: three ranks, so one message leaves others missing; two, so it is the last but for the root's own. -/
def Sys2Proof.Machine.wRoot (n : Nat) (q : SealPart) : State :=
  let s := (wSeal 0 id).modPart 0 fun p => { p with extent := BitVec.ofNat 32 n }
  s.modSeal 0 fun _ => q

theorem witness_root :
    rootOf 0 1 (wRoot 3 SealPart.reset) ∧ rootOf 0 1 (wRoot 2 { SealPart.reset with votes := [⟨0, 1, 0, 0, none⟩] }) ∧
    (wRoot 3 SealPart.reset).roundStep 0 = 1 ∧ (wRoot 3 SealPart.reset).jobRanks 0 = 3 ∧
    ((wRoot 3 { SealPart.reset with decisions := [⟨1, true, 0, false, 0⟩] }).sealPart 0).decisions = [⟨1, true, 0, false, 0⟩] ∧
    ((wRoot 3 { SealPart.reset with firstVote := some 5 }).sealPart 0).firstVote = some 5 ∧
    (wRoot 3 SealPart.reset).reg Reg.bntSealTimeout = 1 := by
  unfold rootOf; and_intros <;> decide +kernel

/-- Witnesses for RanksCommitOrAbort: prepared on rank 1, no core busy; core 5 running. -/
theorem witness_commit :
    (wSeal 1 fun r => { r with prepared := true }).sealingStep 0 = some { wStep [] with prepared := true } ∧
    (wSeal 1 id).busyCores false = [] ∧ (wSeal 1 id).partRecords 0 = [] ∧ (wSeal 1 id).up = true ∧
    (((wSeal 1 id).setCore 5 { Core.reset with item := some (false, 0) }).busyCores false) = [5] ∧
    (((wSeal 1 id).setCore 5 { Core.reset with item := some (false, 0) }).core 5).heldSince = none := by decide +kernel

theorem witness_seal_stores : (wSeal 1 id).storesOk := by constructor <;> decide +kernel

/-- Witness for RanksWithoutADecisionAsk: confirmed at 0, the timeout 1 ms. -/
theorem witness_awaiting :
    ((wSeal 1 fun r => { r with prepared := true }).awaiting 0).isSome = true ∧ (wSeal 1 id).jobRank 0 = 1 ∧
    (wSeal 1 id).reg Reg.bntSealTimeout = 1 ∧ ((wSeal 1 id).sealPart 0).confirmAt = 0 := by decide +kernel

/-- A control frame's payload, unsigned (R440). -/
def Sys2Proof.Machine.wOpen_ (type : Nat) (body : List Byte) : List Byte := leBytes 32 (ctrlHeader type 0 0 body.length 0 0 0 0 0) ++ body ++ zeros 32

/-- Port 0 up with the control port at 5000 and one unauthenticated reply a second. -/
def Sys2Proof.Machine.ctrlState : State := (netState.setReg Reg.cmpCtrlPort 5000).setReg Reg.cmpUnauthRate 1

/-- Witnesses for SessionsOpenByProof: a frame of each type. -/
theorem witness_ctrl : ∀ type ∈ [1, 3, 4], ((parseCtrl (wOpen_ type (zeros 8))).map (·.type)) = some type ∧
    ctrlState.layersOk (netFrame (wOpen_ type (zeros 8)) 5000) = true ∧ bufferCalm (netFrame (wOpen_ type (zeros 8)) 5000) ctrlState ∧ ctrlState.reg Reg.cmpCtrlPort = 5000 ∧ ctrlState.netUp = true ∧
    (ctrlState.ethPort 0).up = true ∧ ctrlState.cmp.unauthCount < ctrlState.reg Reg.cmpUnauthRate ∧ ctrlState.cmp.sessions.length = 16 := by
  decide +kernel

theorem witness_ctrl_stores : ctrlState.storesOk := by constructor <;> decide +kernel

/-- Session 0 open with a key of zeros, the module reached as in ctrlState. -/
def Sys2Proof.Machine.sessState : State :=
  ctrlState.setSession 0 { Session.reset with isOpen := true, gen := 1, key := zeros 64, txSeq := 1, rxNext := 1, peer := ⟨false, 0x0A000002⟩ }

theorem witness_sess_stores : sessState.storesOk := by constructor <;> decide +kernel

/-- A signed frame as its parts. -/
theorem parseCtrl_signed (p b t : List Byte) (hp : p.length = 32) (ht : t.length = 32) (hv : bitsOf (leNat p) 255 248 = 1)
    (hk : knownType (bitsOf (leNat p) 247 240) = true) (hn : bitsOf (leNat p) 223 208 = b.length) :
    parseCtrl (p ++ b ++ t) = some ⟨bitsOf (leNat p) 247 240, bitsOf (leNat p) 239 232, bitsOf (leNat p) 231 228, bitsOf (leNat p) 207 192,
      bitsOf (leNat p) 191 144, bitsOf (leNat p) 143 96, BitVec.ofNat 64 (bitsOf (leNat p) 95 32), p ++ b, p, b, t⟩ := by
  have h1 : (p ++ (b ++ t)).take 32 = p := by rw [← hp]; exact List.take_left
  have h2 : (p ++ (b ++ t)).drop 32 = b ++ t := by rw [← hp]; exact List.drop_left
  have h3 : (p ++ (b ++ t)).take (32 + b.length) = p ++ b := by
    rw [← List.append_assoc, ← hp, ← List.length_append]; exact List.take_left
  have h4 : (p ++ (b ++ t)).drop (32 + b.length) = t := by
    rw [← List.append_assoc, ← hp, ← List.length_append]; exact List.drop_left
  have h5 : 32 + b.length + 32 - 64 = b.length := by omega
  simp [parseCtrl, h1, h2, h3, h4, hv, hk, hn, hp, ht, slice]
  omega

/-- The header of a signed frame of session 0 (R440). -/
def Sys2Proof.Machine.wFrameHead (type flags : Nat) (body : List Byte) : List Byte := leBytes 32 (ctrlHeader type flags 0 body.length 1 1 0 7 0)

/-- The control frame with a body and a trailer. -/
def Sys2Proof.Machine.wCtrl (type flags : Nat) (body t : List Byte) : CtrlFrame :=
  ⟨type, flags, 0, 1, 1, 0, 7, wFrameHead type flags body ++ body, wFrameHead type flags body, body, t⟩

/-- The HMAC of a frame of session 0. -/
def Sys2Proof.Machine.wMac (type flags : Nat) (body : List Byte) : List Byte := hmac256 (zeros 64) (wFrameHead type flags body ++ body)

theorem sessState_layers (pl : List Byte) : sessState.layersOk (netFrame pl 5000) = true := by
  have h : sessState.layersOk (netFrame [] 5000) = true := by decide +kernel
  exact h

theorem sessState_calm (pl : List Byte) : bufferCalm (netFrame pl 5000) sessState := by
  have h : bufferCalm (netFrame [] 5000) sessState := by decide +kernel
  exact h

theorem authGood_signed (type flags : Nat) (body t : List Byte) (hk : knownType type = true) (ht : t.length = 32)
    (hm : t = hmac256 (zeros 64) (wFrameHead type flags body ++ body))
    (h : let w := leNat (wFrameHead type flags body)
      (bitsOf w 255 248, bitsOf w 247 240, bitsOf w 239 232, bitsOf w 231 228, bitsOf w 223 208) = (1, type, flags, 0, body.length) ∧
      (bitsOf w 207 192, bitsOf w 191 144, bitsOf w 143 96, bitsOf w 95 32) = (1, 1, 0, 7)) :
    authGood type (netFrame (wFrameHead type flags body ++ body ++ t) 5000) (wCtrl type flags body t) sessState := by
  have hkey : (sessState.session 0).key = zeros 64 := by decide +kernel
  simp only [Prod.mk.injEq] at h
  obtain ⟨⟨h1, h2, h3, h4, h5⟩, h6, h7, h8, h9⟩ := h
  have hp : (wFrameHead type flags body).length = 32 := leBytes_length _ _
  have hc := parseCtrl_signed (wFrameHead type flags body) body t hp ht h1 (by rw [h2]; exact hk) h5
  rw [h2, h3, h4, h6, h7, h8, h9] at hc
  refine ⟨⟨witness_sess_stores, rfl, by decide +kernel, (by decide +kernel : (sessState.ethPort 0).up = true), rfl, sessState_layers _, sessState_calm _,
    (by decide +kernel : (5000 : W16).toNat = sessState.reg Reg.cmpCtrlPort), hc, rfl⟩, by decide +kernel,
    (by decide +kernel : (sessState.ethPort 0).paused = []), (by decide +kernel : (sessState.session 0).isOpen = true),
    (by decide +kernel : (sessState.session 0).gen = 1), ?_⟩
  show t = hmac256 (sessState.session 0).key (wFrameHead type flags body ++ body)
  rw [hkey]; exact hm

/-- Witnesses for NumberedFramesKeepTheirOrder: each numbered type and ACK with the next SEQ, signed. -/
theorem witness_numbered : ∀ type ∈ [7, 8, 9, 10], ∃ t, authGood type (netFrame (wFrameHead type 0 [] ++ [] ++ t) 5000) (wCtrl type 0 [] t) sessState := by
  intro type h
  refine ⟨_, authGood_signed _ _ _ _ ?_ (hmac256_length _ _) rfl ?_⟩ <;>
  · simp only [List.mem_cons, List.not_mem_nil, or_false] at h
    rcases h with rfl | rfl | rfl | rfl <;> decide +kernel

theorem witness_numbered_held : (sessState.session 0).held = [] ∧ (sessState.session 0).waiting = [] := by decide +kernel

/-- A PWR_SET_STATE of HOLD and an undefined operation, as commands (R470). -/
def Sys2Proof.Machine.wCommand (family op : Nat) (params : List Byte) : List Byte :=
  leBytes 32 (putBits 255 248 family + putBits 247 240 op + putBits 223 208 params.length) ++ params

/-- Witnesses for CommandsAreAcceptedOnceOrRefused: accepted, refused, first part. -/
theorem witness_command :
    sessState.refuses 0 7 (wCommand 6 1 [1]) = none ∧ sessState.refuses 0 7 (wCommand 12 1 []) = some (.badCommand, []) ∧
    opInfo 6 1 1 = some (.mgmt, true) ∧ (parseCmd (wCommand 6 1 [1])).plen = 1 := by decide +kernel

theorem witness_command_frame :
    ∃ t, authGood 0x10 (netFrame (wFrameHead 0x10 0 (wCommand 6 1 [1]) ++ wCommand 6 1 [1] ++ t) 5000) (wCtrl 0x10 0 (wCommand 6 1 [1]) t) sessState :=
  ⟨_, authGood_signed _ _ _ _ (by decide) (hmac256_length _ _) rfl (by decide +kernel)⟩

/-- Witness for UnansweredFramesGoOutAgain. -/
theorem witness_retransmit :
    sessState.netUp = true ∧ (sessState.session 0).isOpen = true ∧ (sessState.ethPort (sessState.session 0).port).paused = [] := by decide +kernel

/-- Stream 0 of partition 0 from 10.0.0.2:5000, its sample 0 in the 4 KiB buffer 0 of tile 0's pool at 0, its ring at 0x10000. -/
def Sys2Proof.Machine.wStream : Stream :=
  { isOpen := true, part := 0, tile := 0, src := ⟨false, 0x0A000002⟩, srcPort := 5000, token := 9, ringBase := 0x10000, ringLog2 := 4, owner := 0
    nextSeq := 1, nextSample := 0, limit := 0, ce := 0, drops := 0, port := 0, cur := some (0, 0, 1, false), heldSamples := [], lastCredit := 0 }

def Sys2Proof.Machine.ingestState : State :=
  let s := netState.setReg Reg.cmpIngestPort 5001
  { s with vetch := (wVetch true none).vetch, cmp := { s.cmp with streams := [(0, wStream)] } }

/-- Four bytes for it, the last of their sample. -/
def Sys2Proof.Machine.wIngest : Frame := netFrame (ingestFrame (ingestHeader 0x21 0 1 4 9 1 0) [1, 2, 3, 4]) 5001

/-- Witnesses for IngestFillsBuffersInOrder. -/
theorem witness_ingest : ingestGood wIngest 0 wStream ingestState :=
  ⟨by constructor <;> decide +kernel, by and_intros <;> decide +kernel⟩

theorem witness_ingest_order : ingestToken wIngest wStream ∧ ingestCrc wIngest = true ∧
    bitsOf (leNat (wIngest.payload.take 32)) 143 96 = 1 ∧ widen (bitsOf (leNat (wIngest.payload.take 32)) 95 64) 0 = 0 ∧
    ingestState.handleBuf 0 0 = some (0, 4096) ∧ ingestState.up = true := by
  unfold ingestToken; and_intros <;> decide +kernel

/-- Session 0 of sessState with the default MTU. -/
def Sys2Proof.Machine.wireState : State := sessState

/-- Witnesses for RegisterWindowReadsAndWrites: the GEO window; CFG_GATHER_SIZE as an RW word is out of the host's reach, EVT_RATE_WINDOW is not. -/
theorem witness_window :
    windowOk 1 0 2 = true ∧ windowOk 99 0 1 = false ∧ (sessState.session 0).txSeq < 2 ^ 48 ∧ 24 ≤ sessState.bodyRoom (sessState.session 0) ∧
    (regRow 5 0x40).map (·.access) = some .rw ∧ sessState.links.axes.length = 4 ∧ sessState.netUp = true ∧ sessState.boot.phase ≠ .recovery ∧
    ((List.range 32).map fun j => (regGet sessState.regs (Reg.evtRateOverride + 8 * j)).toNat).all (· == 0) = true := by decide +kernel

theorem witness_canAnswer : canAnswer 0 24 sessState := ⟨witness_sess_stores, by and_intros <;> decide +kernel⟩

/-- A second open session of the same key slot. -/
def Sys2Proof.Machine.twoSessions : State := sessState.setSession 1 { sessState.session 0 with gen := 2 }

/-- Witnesses for SessionsAreListedEndedAndAttested. -/
theorem witness_sessions :
    sessState.cmp.sessions.length = 16 ∧ (twoSessions.session 1).isOpen = true ∧ (twoSessions.session 1).slot = (twoSessions.session 0).slot ∧
    (twoSessions.session 5).isOpen = false ∧ twoSessions.cmp.sessions.length = 16 ∧ sessState.sec.serial.length ≤ 16 := by decide +kernel

theorem witness_two_answer : canAnswer 0 8 twoSessions := ⟨by constructor <;> decide +kernel, by and_intros <;> decide +kernel⟩

/-- Witnesses for JournalAndEventsAreRead. -/
theorem witness_events :
    sessState.jnl.first = 1 ∧ sessState.evtBounds false = (0, 0) ∧ (sessState.session 0).cursor false = 0 ∧ 0 < sessState.cmp.sessions.length ∧
    72 ≤ sessState.bodyRoom (sessState.session 0) ∧
    ({ sessState with jnl := sessState.jnl.append 5 } : State).jnl.readSlot 1 = (some 5, 0) := by decide +kernel

/-- One window of 2 MiB at 0 of tile 0 and one pool of four 4 KiB buffers at its start, for partition 0 of the given kind. -/
def Sys2Proof.Machine.wLoad (kind : Nat) : List Byte :=
  leBytes 64 (putBits 508 506 kind + putBits 501 494 1 + putBits 493 486 1 + putBits 485 476 1)
    ++ leBytes 16 (putBits 85 50 (2 ^ 21)) ++ leBytes 16 (putBits 113 113 1 + putBits 76 55 3)

def Sys2Proof.Machine.wMgmt (family op : Nat) (params : List Byte) : Cmd := { wCmd family op params with mgmt := true }

def Sys2Proof.Machine.wLoadState (kind : Nat) : State := netState.queued (wMgmt 2 1 (wLoad kind))

/-- Witnesses for PartitionsLoadAndAreWritten: a main partition is made, a second filler and a reserved kind are refused. -/
theorem witness_load_stores : netState.storesOk := by constructor <;> decide +kernel

theorem witness_load :
    (wLoadState 0).up = true ∧ (wLoadState 0).parts.length = 8 ∧ (wLoadState 0).runnable 2 1 1 = some (wMgmt 2 1 (wLoad 0)) ∧
    ((wLoadState 0).partition 0).state = .empty ∧
    ((parseLoad (wLoad 0)).bind fun d => (kindOf d.kind).bind fun k => if (wLoadState 0).loadOk d k then (d.vetch (wLoadState 0).vetch).toOption else none).isSome = true ∧
    ((parseLoad (wLoad 1)).any fun d => (wLoadState 1).loadOk d .filler) = false ∧ ((parseLoad (wLoad 2)).bind fun d => kindOf d.kind) = none := by decide +kernel

/-- Partition 0 running with a writable window of 2 MiB. -/
def Sys2Proof.Machine.jobState (st : PartState) : State :=
  netState.modPart 0 fun p => { p with state := st, kind := .train, qmask := 1, windows := [⟨0, false, false, 0, 2 ^ 21⟩] }

theorem witness_load_write :
    ((jobState .loaded).queued (wCmd 2 3 (leBytes 8 16 ++ [7]))).runnable 2 3 1 = some (wCmd 2 3 (leBytes 8 16 ++ [7])) ∧
    (jobState .loaded).addrOk 0 16 1 true = true ∧ (jobState .loaded).addrOk 0 (2 ^ 21) 1 true = false := by decide +kernel

/-- A stream record of number 1 on tile 0, its ring at 0x10000. -/
def Sys2Proof.Machine.wOpenStream (token : Nat) : List Byte :=
  leBytes 64 (putBits 511 502 1 + putBits 335 272 token + putBits 271 224 0x10000 + putBits 223 220 4) ++ leBytes 16 0

/-- The ingest stream's partition with room for a ring. -/
def Sys2Proof.Machine.wStreams (op : Nat) (params : List Byte) : State :=
  { jobState .loaded with vetch := ingestState.vetch, cmp := ingestState.cmp }.queued (wCmd 2 op params)

/-- Witnesses for StreamsOpenFeedAndClose. -/
theorem witness_stream_open :
    (wStreams 5 (wOpenStream 9)).runnable 2 5 1 = some (wCmd 2 5 (wOpenStream 9)) ∧ (wStreams 5 (wOpenStream 9)).up = true ∧
    (wStreams 5 (wOpenStream 9)).vetch.length = 10 ∧ (wStreams 5 []).jobMemOk 0 0 0x10000 256 = true ∧
    (((wStreams 5 []).vetchOf 0).newOwner ⟨.stream, 0, 0, 0, 0, 0, 1⟩).toOption = some 1 ∧ ((wStreams 5 []).stream 1).isNone = true := by decide +kernel

theorem witness_stream_load :
    let p := leBytes 2 0 ++ leBytes 8 0 ++ leBytes 4 1 ++ leBytes 8 0x2000
    let s := (wStreams 4 p).writeMem 0x10000 (leBytes 16 (ringEntry 0 0 4 false))
    s.runnable 2 4 1 = some (wCmd 2 4 p) ∧ s.ringSamples wStream 0 1 = some [(0, 4, false)] ∧ s.handleBuf 0 0 = some (0, 4096) ∧
    s.addrOk 0 0x2000 4 true = true ∧ s.keep.marks = [] ∧ wStream.nextSample < 0 + 1 ∧ s.stream 0 = some wStream := by decide +kernel

theorem witness_stream_close :
    (wStreams 6 (leBytes 2 0)).runnable 2 6 1 = some (wCmd 2 6 (leBytes 2 0)) ∧ (wStreams 6 []).stream 0 = some wStream ∧ (wStreams 6 []).stream 7 = none ∧
    wStream.isOpen = true ∧ wStream.part = 0 ∧ wStream.tile < (wStreams 6 []).vetch.length := by decide +kernel

/-- JOB_START at origin 0 with extent 1 on each axis. -/
def Sys2Proof.Machine.wJob (extent : Nat) : List Byte := leBytes 16 (putBits 95 64 extent)

/-- Witnesses for JobsStartPauseAndStop: a start, a start whose extent is too large, and the four others. -/
theorem witness_job_start :
    (∀ a < 4, 0 < extentOf (jobState .loaded).extent a ∧ extentOf (jobState .loaded).extent a ≤ 32) ∧
    ((jobState .loaded).queued (wCmd 3 1 (wJob 0x01010101))).runnable 3 1 1 = some (wCmd 3 1 (wJob 0x01010101)) ∧
    (∀ a < 4, (coordOf (jobState .loaded).coord a : Int) % extentOf (jobState .loaded).extent a = 0) ∧
    bitsOf (leNat (wJob 0x01010101)) 95 64 = 0x01010101 ∧ extentOf (jobState .loaded).extent 0 < extentOf 0x01010102 0 := by decide +kernel

theorem witness_job_mgmt : ∀ e ∈ [(3, 2, PartState.running), (3, 3, .paused), (3, 4, .running), (2, 2, .loaded)],
    ((jobState e.2.2).queued (wMgmt e.1 e.2.1 [0])).runnable e.1 e.2.1 1 = some (wMgmt e.1 e.2.1 [0]) ∧
    ((jobState e.2.2).queued (wMgmt e.1 e.2.1 [0])).stepping 0 = false ∧ ((jobState e.2.2).queued (wMgmt e.1 e.2.1 [0])).atBoundary 0 = true ∧
    ((jobState e.2.2).queued (wMgmt e.1 e.2.1 [0])).parts.length = 8 := by decide +kernel

theorem witness_job_stepping :
    ({ jobState .running with step := some (wStep []) } : State).stepping 0 = true ∧ ({ jobState .running with step := some (wStep []) } : State).atBoundary 0 = false := by
  decide +kernel

theorem witness_job_queues : ownQueues ((jobState .running).queued (wMgmt 3 4 [0])) := by
  intro p k d hd
  have h : ∀ q ∈ ((jobState .running).queued (wMgmt 3 4 [0])).parts, ∀ r ∈ q.queues, r.cmds = [] := by decide +kernel
  exfalso
  revert hd
  unfold State.partition
  rw [List.getD_eq_getElem?_getD, List.getD_eq_getElem?_getD]
  cases hq : ((jobState .running).queued (wMgmt 3 4 [0])).parts[p]? with
  | none =>
    simp only [Option.getD_none]
    cases hr : Partition.reset.queues[k]? with
    | none => simp [CmdQueue.reset]
    | some r =>
      have : ∀ r ∈ Partition.reset.queues, r.cmds = [] := by decide
      simp [this r (List.mem_of_getElem? hr)]
  | some q =>
    simp only [Option.getD_some]
    cases hr : q.queues[k]? with
    | none => simp [CmdQueue.reset]
    | some r => simp [h q (List.mem_of_getElem? hq) r (List.mem_of_getElem? hr)]

/-- Witnesses for PowerStatesResetsAndIsolation. -/
theorem witness_tile_errors :
    (wStep []).tileErrors.contains 3 = false ∧ ({ wStep [] with tileErrors := [3] } : StepRun).tileErrors.contains 3 = true ∧
    (jobState .running).up = true ∧ (jobState .running).step = none := by decide +kernel

theorem witness_power_states : ∀ v < 5, ((jobState .running).queued (wMgmt 6 1 [BitVec.ofNat 8 v])).runnable 6 1 1 = some (wMgmt 6 1 [BitVec.ofNat 8 v]) ∧
    (powerOf v).isSome = true ∧ (jobState .running).power.state = .full ∧ (jobState .running).step = none ∧ (jobState .running).busyCores true = [] := by
  decide +kernel

theorem witness_power_refused : powerOf 5 = none ∧ ({ jobState .running with step := some (wStep []) } : State).step.isSome = true := by decide +kernel

theorem witness_reset_cmds : ∀ op ∈ [2, 3],
    ((jobState .running).queued (wMgmt 6 op [])).runnable 6 op 1 = some (wMgmt 6 op []) ∧ ((jobState .running).queued (wMgmt 6 op [])).up = true := by decide +kernel

/-- A module whose next start runs the image it runs now, with kept DRAM. -/
def Sys2Proof.Machine.warmState : State :=
  { jobState .running with boot := { (jobState .running).boot with dramKept := true }, upd := { (jobState .running).upd with runSlot := true } }

theorem witness_warm : warmState.warmMadeCold = false ∧ (jobState .running).warmMadeCold = true := by decide +kernel

theorem witness_isolate : (jobState .running).tileIn 3 = true ∧ (jobState .running).vetch.length = 10 ∧ (jobState .running).power.rails.length = 10 ∧
    tileOfAddr 0x3000000010 = some 3 ∧ tileOfAddr 0x00B030000000 = some 3 ∧
    ∀ n ∈ [3, 10], ((jobState .running).queued (wMgmt 6 4 [BitVec.ofNat 8 n])).runnable 6 4 1 = some (wMgmt 6 4 [BitVec.ofNat 8 n]) := by decide +kernel

/-- A STEP_RUN of step 1 with one OTHER item on tile 0: the node at 0x1000, its header at 0x2000, one layer at 0x3000; `seal` as given. -/
def Sys2Proof.Machine.wStepRun (isSeal step : Nat) : List Byte :=
  leBytes 64 (putBits 511 448 step + putBits 447 400 0x1000 + putBits 331 284 0x3000 + putBits 262 262 isSeal)

def Sys2Proof.Machine.wStepState (isSeal step : Nat) : State :=
  ({ jobState .running with mem := bytesPut 0 [] 0x1000 (leBytes 16 0x2000) } : State).queued (wCmd 4 1 (wStepRun isSeal step))

/-- Witnesses for StepsAndPlacementsAreTaken: a step starts, one out of order is refused, one waits. -/
theorem witness_step_run :
    (wStepState 1 1).runnable 4 1 1 = some (wCmd 4 1 (wStepRun 1 1)) ∧ (wStepState 1 1).stepMayStart (wCmd 4 1 (wStepRun 1 1)) = true ∧
    (wStepRun 1 1).length = 64 ∧
    (match (wStepState 1 1).parseStep 0 1 false (wStepRun 1 1) with
      | .ok r => r.nodes.length == 1 && r.nodes.all (fun n => n.kind == .item) && (r.nodes.filterMap Node.tag).isEmpty &&
          r.nodes.all (fun n => n.hdr.all fun h => !r.dropsItem [] h)
      | .error _ => false) = true ∧
    (match (wStepState 1 2).parseStep 0 1 false (wStepRun 1 2) with | .ok _ => none | .error st => some st) = some .stepOrder ∧
    ({ wStepState 1 1 with step := some (wStep []) } : State).stepMayStart (wCmd 4 1 (wStepRun 1 1)) = false := by decide +kernel

/-- A placement of 256 good twin words. -/
def Sys2Proof.Machine.wPlacement : List Byte := (List.range 256).flatMap fun i => leBytes 4 i ++ leBytes 4 (0xFFFFFFFF - i)

theorem witness_place :
    ((jobState .running).queued (wCmd 5 3 wPlacement)).runnable 5 3 1 = some (wCmd 5 3 wPlacement) ∧ 10 < (jobState .running).xpr.pending.length ∧
    (leAt wPlacement 8 4, leAt wPlacement 12 4) = (1, 0xFFFFFFFE) := by decide +kernel

/-- An update of one 16-byte part at 0x1000 that its owner, slot 0, is receiving into slot B; unit 256 is written. -/
def Sys2Proof.Machine.wUpdState (st : UpdState) : State :=
  let h := zeros 0x100 ++ (leBytes 4 1 ++ leBytes 4 0 ++ leBytes 4 0x1000 ++ leBytes 4 32)
  { jobState .running with upd := { (jobState .running).upd with state := st, header := h, target := true, units := [256] } }

/-- Witnesses for UpdatesAndStagedRecords. -/
theorem witness_updates : ∀ op ∈ [1, 2, 3, 4], ∀ st ∈ [UpdState.idle, .receiving, .activated],
    ((wUpdState st).queued (wMgmt 9 op [0, 1])).runnable 9 op 1 = some (wMgmt 9 op [0, 1]) ∧ ((wUpdState st).queued (wMgmt 9 op [0, 1])).up = true ∧
    (wUpdState st).tansy.queue = [] ∧ (wUpdState st).tansy.dropped = 0 ∧ leAt [0, 1] 0 1 ≤ 1 := by decide +kernel

theorem witness_upd_data : inParts (wUpdState .receiving).upd.header 0x1000 2 = true ∧ inParts (wUpdState .receiving).upd.header 0x1020 1 = false ∧
    0x1000 / 16 ∈ (wUpdState .receiving).upd.units ∧ (wUpdState .receiving).upd.owner = 0 ∧
    (wUpdState .receiving).imageRead true 0x1000 1 = [0xFF] ∧ (wUpdState .receiving).imageValid true = false := by decide +kernel

theorem witness_stage : ((jobState .running).queued (wMgmt 8 1 [])).runnable 8 1 1 = some (wMgmt 8 1 []) := by decide +kernel

def Sys2Proof.Machine.wPacket : LinkPacket :=
  { vc := 1, cls := true, dst := 0x12345, src := 0x54321, dtile := 3, tag := 0x20000001, offset := 64, payload := zeros 16 }

/-- Witness for LinkPacketsRoundTrip, and a packet's header word written out from R504: VC 1, CLASS 1, LEN 1, DTILE 3. -/
theorem witness_packet : wPacket.fits := by
  unfold LinkPacket.fits; decide +kernel

theorem test_packet_header :
    wPacket.header = 2 ^ 254 + 2 ^ 253 + 0x12345 * 2 ^ 228 + 0x54321 * 2 ^ 208 + 3 * 2 ^ 204 + 2 ^ 192 + 0x20000001 * 2 ^ 160 + 64 * 2 ^ 112 := by decide +kernel

/-- A module with its ports UP, port 0 expecting SEQ 5. -/
def Sys2Proof.Machine.linkState (f : Port → Port) : State :=
  { netState with links := { netState.links with ports := List.replicate 8 (f { Port.reset with state := .up, rxNext := 5 }) } }

def Sys2Proof.Machine.wCw (seq : BitVec 12) : Codeword := ⟨seq, false, false, 0, []⟩

/-- Witnesses for CodewordsAreTakenInOrder: a codeword of fill in order, one out of order, a packet for another module and one for this. -/
theorem witness_codeword :
    (linkState id).up = true ∧ (linkState id).links.ports.length = 8 ∧ ((linkState id).port 0).state = .up ∧ (netState.port 0).state ≠ .up ∧
    (wCw 5).seq.toNat = ((linkState id).port 0).rxNext % 4096 ∧ (wCw 9).seq.toNat ≠ ((linkState id).port 0).rxNext % 4096 ∧
    (rxScan 1 (wCw 5).payload).1.isEmpty = true ∧ (rxScan 1 (wCw 5).payload).2.2 = false ∧
    ((linkState id).port 0).rxBytes = [] ∧ ((linkState id).port 0).rxStart = 0 ∧ ((linkState id).port 0).sendQ = [] ∧
    ((linkState id).port 0).replay.length < 2048 ∧ ((linkState id).port 0).reqCount = 0 ∧ ((linkState id).port 0).retryFrom = none := by decide +kernel

theorem witness_link_stores : (linkState id).storesOk := by constructor <;> decide +kernel

theorem witness_link_packet : (linkState id).routePort (dstWord (linkState id).coord) = none ∧ (linkState id).routePort 0x08000 = some 0 := by decide +kernel

/-- Witnesses for PortsRetrainAndGoDown. -/
theorem witness_ports :
    (linkState id).up = true ∧ (linkState id).links.ports.length = 8 ∧ (linkState id).bnt.runs = [] ∧ (linkState id).bnt.exchanges = [] ∧
    (linkState id).bnt.gathers = [] ∧ (linkState id).step = none ∧ (linkState id).filler = none ∧ regsWf (linkState id).regs = true ∧
    ((linkState fun p => { p with state := .retraining }).port 1).retrainAt + (linkState id).reg Reg.lnkDownTimeout * 1000000 ≤ 10 ^ 12 ∧
    ((linkState fun p => { p with replay := [wCw 0] }).port 0).ackAt + 20000 ≤ 20000 ∧
    ((linkState fun p => { p with lanes := List.range 16, laneSpare := 2 ^ 16 }).port 0).lanes.contains 3 = true ∧ (bitsSet (2 ^ 16) 18).head? = some 16 := by
  decide +kernel

theorem test_lanes : trainLanes 0x3FFFF = some (0xFFFF, 0x30000, 0, false) ∧ trainLanes 0x7F = none ∧ trainLanes 0x3FFEF = some (0x1FFEF, 0x20000, 0x10, false) := by
  decide +kernel

theorem witness_identity :
    let s := { (linkState fun p => { p with state := .down }).setReg Reg.cfgTorusExtent 0x01010102 with
      links := { (linkState id).links with ports := List.replicate 8 { Port.reset with state := .down }, axes := List.replicate 4 ⟨true, true, true, false⟩ } }
    (s.axis 0).through = true ∧ s.identityOk 0 ⟨true, 0, true, 0x3FFFF, true, true, 0x08000, 0x01010102, [1], 0⟩ = some 0 := by decide +kernel

/-- A powered module with tile 0's core rail as `f` makes it. -/
def Sys2Proof.Machine.railState (f : Rail → Rail) : State :=
  { netState with power := { netState.power with rails := List.replicate 10 (f { Rail.reset with on := true, point := 5, permitted := 5 }) } }

/-- Witnesses for RailsIslandsAndTheCeiling. -/
theorem witness_rails :
    (railState id).pins.pgood = true ∧ (railState id).power.rails.length = 10 ∧ ((railState id).power.rails.getD 0 Rail.reset).on = true ∧
    ((railState fun r => { r with on := false }).power.rails.getD 0 Rail.reset).on = false ∧ (railState id).step = none ∧ (railState id).filler = none ∧
    (railState id).power.tripLog = [] ∧ (railState id).power.islands.length = 612 ∧ (railState id).power.stackList.length = 20 ∧ vitalIsland 52 = true ∧
    regsWf (railState id).regs = true ∧ (railState id).power.ceilChanged + 1000000 ≤ 10 ^ 12 ∧ (railState id).counter ≤ 10 ^ 12 := by decide +kernel

/-- Boost enabled, tile 0's rail at point 5 with its conditions held since counter value 1. -/
def Sys2Proof.Machine.boostState : State :=
  let s := (railState fun r => { r with permitted := 7, boostSince := 1 }).setReg Reg.pwrBoostEn 1
  { s with power := { s.power with islands := s.power.islands.map fun i => { i with highest := 7, temp := 0 } } }

theorem witness_boost : (boostState.paceTo 200000).boostOk 0 6 = true ∧ boostState.counter ≤ 200000 ∧
    (boostState.power.rails.getD 0 Rail.reset).boostSince + 100000 ≤ 200000 := by decide +kernel

/-- R530's mean of forty samples of 1600 A. -/
theorem test_mean : ({ Rail.reset with samples := List.replicate 40 1600 } : Rail).mean = 1600 := by decide +kernel

/-- Witnesses for ScrubRefreshStressAndRebuilds: DRAM, tile store and local store words; a running module and an idle one. -/
theorem witness_upkeep :
    netState.up = true ∧ scrubWord 64 = true ∧ scrubWord 0x00A000000008 = true ∧ scrubWord (2 ^ 48) = true ∧ scrubWord 65 = false ∧
    scrubWord 0xFE0000000 = true ∧ firmwareWord 0xFE0000000 = true ∧ firmwareWord 64 = false ∧ netState.tileIn (wordTile 0xFE0000000) = true ∧
    netState.tileIn (wordTile 64) = true ∧ netState.tileIn (wordTile (2 ^ 48)) = true ∧ 19 < netState.power.stackList.length ∧
    netState.mainRunning = false ∧ (jobState .running).mainRunning = true := by decide +kernel

/-- R565: at 85 °C an hour is an hour; ten degrees more doubles it. -/
theorem test_stress : stressHour (85 * 16) = 1024 ∧ stressHour (95 * 16) = 2048 ∧ stressHour (75 * 16) = 512 := by decide +kernel

/-- Twin words of a ring position written out, and an event. -/
def Sys2Proof.Machine.wEvent (st : Status) : Event := hubEvent st 5 []

/-- Witnesses for EventsAreRecordedInOrder: an empty queue, one of another instant, a window with a suppressed event at its end. -/
theorem witness_record :
    (netState.tansy.queue.all fun q => q.time == (wEvent .railTrip).time) = true ∧ netState.tansy.queue = [] ∧ netState.tansy.dropped = 0 ∧
    netState.tansy.winStart + netState.tansy.winMs * 1000000 ≤ 10 ^ 9 ∧ 0 < (regGet netState.regs Reg.evtRateWindow).toNat ∧ regsWf netState.regs = true ∧
    (([({ wEvent .railTrip with time := 4 } : Event)]).all fun q => q.time == (wEvent .railTrip).time) = false := by decide +kernel

theorem witness_full_queue : 4032 ≤ (List.replicate 4032 (wEvent .dramHot)).length ∧ (wEvent .dramHot).cls ≠ .fatal := by
  exact ⟨Nat.le_of_eq List.length_replicate.symm, by decide⟩

theorem witness_write : (summaryBody ⟨0x204, 4, 3, 52, 96⟩ 0).length % 32 = 0 ∧ State.reset.tansy.wpos.val < ringSize ∧ State.reset.tansy.wpos.val % 32 = 0 := by
  decide +kernel


/-- Witness for the refusal of BiasLoopRunsOnceAtTheStepsEnd: two modules disagree about a layer's parameters. -/
theorem witness_bias_differ : ((Xpr.reset).join [⟨0, 0, 0, 1, []⟩, ⟨0, 0, 0, 2, []⟩]).paramsDiffer = true := by decide +kernel

/-- Witnesses for an EXCHANGE that completes: no row leaves, and no link bars rank 1. -/
theorem witness_exchange_runs :
    (let b := parseExch wExch.block
     let f := (Fmt.ofCode b.fmt).getD .bfloat16
     wExchState.exchSpansOk wExch b f ⟨1, 1, 1, 1⟩ = true) ∧ reaches wExchState 0 wExch.axes 1 mSegment ∧
    wExchState.otherRanks wExch = [1] ∧ wExchState.bnt.exchanges = [] := by
  unfold reaches; and_intros <;> decide +kernel

theorem witness_exchange_rows : ∀ g < 2,
    wExchState.segmentFor (parseExch wExch.block) .bfloat16 ⟨1, 1, 1, 1⟩
      ((List.range 256).map fun e => ((wExchState.xpr.active.getD (wExch.maskTiles.headD 0) []).getD e placeEmpty).val.toNat) g
      = .ok (List.replicate 16 0, []) := by
  have h : ∀ g < 2, (wExchState.segmentFor (parseExch wExch.block) .bfloat16 ⟨1, 1, 1, 1⟩
      ((List.range 256).map fun e => ((wExchState.xpr.active.getD (wExch.maskTiles.headD 0) []).getD e placeEmpty).val.toNat) g).toOption
      = some (List.replicate 16 0, []) := by decide +kernel
  exact fun g hg => ok_of_toOption (h g hg)

theorem witness_exchange_twins : ∀ e, twinOk ((wExchState.xpr.active.getD (wExch.maskTiles.headD 0) []).getD e placeEmpty) = true := by
  intro e
  rw [show wExch.maskTiles.headD 0 = 0 by decide +kernel, show wExchState.xpr.active.getD 0 [] = List.replicate 256 placeEmpty from rfl, getD_replicate_self]; decide

/-- A segment head of rank 1 that fits wExch's block and generation, and one of another layer; a damaged one, first and asked for again. -/
theorem witness_segments :
    (let b := parseExch wExch.block
     let w := segmentHead 1 1 b 0 []
     twinValue 48 ((twinBytes 48 w).take 96) = some w ∧ bitsOf w 351 348 = 1 ∧ bitsOf w 319 256 = wExchState.xpr.genActive ∧
     (bitsOf w 345 334, bitsOf w 333 325, bitsOf w 347 346) = (b.layer, b.mb, b.mode) ∧ bitsOf (w + putBits 345 334 1) 345 334 ≠ b.layer) ∧
    (∀ asked ∈ [[], [0]],
      let s := { wExchState with bnt := { wExchState.bnt with exchanges := [{ tag := 1, sent := true, segments := [], asked }] } }
      (s.bnt.exchanges.any fun x => x.tag == 1) = true ∧ s.fenced 1 = false ∧
      (s.bnt.exchanges.any fun x => x.tag == 1 && x.asked.contains 0) = !asked.isEmpty ∧ twinValue 48 ((leBytes 96 1).take 96) = none ∧
      bitsOf (leNat ((leBytes 96 1).take 48)) 351 348 = 0) ∧ reaches wExchState 0 wExch.axes 1 mSegmentAgain := by
  unfold reaches; and_intros <;> decide +kernel

/-- Witnesses for VetchRequestsMoveBuffers: a buffer shared between owner 0 and itself, its co-owner still using it or done. -/
theorem witness_vetch_free_share : ∀ done,
    (let s := wVetch true (some ⟨0, 0, 0, [(0, done)], false⟩)
     (s.vetchOf 0).shareOf 0 0 = some (0, Twin.both ⟨0, 0, 0, [(0, done)], false⟩) ∧ ((s.vetchOf 0).byHandle 0 0).map (·.2.2) = some 0 ∧
     ((s.vetchOf 0).mayAsk 0 0) = true ∧ (((s.vetchOf 0).pool 0).any fun p => p.bufferOk 0 && (p.buffer 0).isSome) = true) := by decide

/-- An ALL_GATHER of which rank 0 owns no tile, and a reduction whose contribution has no tile header. -/
def Sys2Proof.Machine.wAllGather : Bucket :=
  parseBucket (leBytes 64 (putBits 480 480 1 + putBits 479 477 kAllGather + putBits 476 473 8 + putBits 467 463 Fmt.bfloat16.code + putBits 416 416 1)
    ++ leBytes 32 (putBits 243 220 32 + putBits 219 204 32))

theorem witness_values :
    wAllGather.kind = kAllGather ∧ ((duo 0 wAllGather .bucket [wAllGather]).rankValue (wStep []) wAllGather).isOk = true ∧
    ((wValue 0 0 []).rankValue (wStep []) (wReduce 0)).isOk = false ∧
    (∀ kind ∈ [mHeader, mHeaderAgain, mMask, mShard, mShardAgain], reaches (wValue 0 0 []) 0 8 1 kind) := by
  unfold reaches; and_intros <;> decide +kernel

/-- A damaged header asked for, first and again. -/
theorem witness_header_again : ∀ asked ∈ [[], [(1, 0)]],
    (let r : BucketRun := { wRun none with asked }
     ((wValue 0 0 [r]).openRunOf 1).any (fun r => r.asked.contains (1, 0)) = !asked.isEmpty ∧
     ((wValue 0 0 [wRun none]).bucketDef (BitVec.ofNat 32 (bitsOf (putBits 255 224 1 + putBits 223 212 1) 255 224))).isSome = true ∧
     twinValue 32 (leBytes 64 (putBits 255 224 1 + putBits 223 212 1)) = none) := by decide +kernel

/-- Rank 1 of wGather, its shard's record at 0 with CRC `c`, the shard at 0x10000. -/
def Sys2Proof.Machine.wServe (c : Nat) : State :=
  (duo 1 wGather .gather [wGather]).putRec 0 0 (putBits 219 184 0x10000 + putBits 183 148 0x10000 + putBits 99 68 c)

def Sys2Proof.Machine.wServed (c : Nat) : Except Status (List (Nat × Nat × List Byte)) :=
  (((wServe c).myUnits wGather).filter fun e => decide (e.2.2.1 < e.2.2.2)).mapM
    fun e => ((wServe c).serveUnit wGather 0 e.1 e.2.2.1 e.2.2.2).map fun x => (e.2.1, x)

theorem served_rec : ∀ c < 2, (wServed c).toOption.map (fun es => es.map fun e => (e.2.1, e.2.2 == zeros 2064)) = some [(c, true)] := by decide +kernel

/-- Witness for GathersServeAndCheckShards: one of the two CRCs is not the shard's. -/
theorem witness_served : ∃ c es, wServed c = .ok es ∧ ∃ e ∈ es, (crc32 e.2.2).toNat ≠ e.2.1 := by
  have key : ∀ c < 2, ∃ u, wServed c = .ok [(u, c, zeros 2064)] := by
    intro c hc
    have h := served_rec c hc
    cases hs : wServed c with
    | error _ => rw [hs] at h; exact absurd h (by simp [Except.toOption])
    | ok es =>
      rw [hs] at h
      match es, h with
      | [(u, x, bs)], h =>
        simp [Except.toOption] at h
        exact ⟨u, by rw [h.1, h.2]⟩
      | [], h => simp [Except.toOption] at h
      | _ :: _ :: _, h => simp [Except.toOption] at h
  obtain ⟨u, h0⟩ := key 0 (by decide)
  obtain ⟨v, h1⟩ := key 1 (by decide)
  by_cases hz : (crc32 (zeros 2064)).toNat = 0
  · exact ⟨1, _, h1, _, List.mem_singleton_self _, by simp [hz]⟩
  · exact ⟨0, _, h0, _, List.mem_singleton_self _, hz⟩

/-- Witnesses for RanksCommitOrAbort: no record and no bias entry stands in another's way; a rank with no step of its own. -/
theorem witness_apart : recordsApart (wSeal 1 id) 0 ∧ biasApart (wSeal 1 id) 0 := by
  have h : (wSeal 1 id).partRecords 0 = [] := by decide +kernel
  have hb : (wSeal 1 id).xpr.biasShadow = [] := rfl
  unfold recordsApart biasApart
  rw [h, hb]
  exact ⟨fun _ h => absurd h List.not_mem_nil, List.Pairwise.nil, fun _ h => absurd h List.not_mem_nil⟩

theorem witness_idle_abort :
    ({ wSeal 1 id with step := none } : State).sealingStep 0 = none ∧ ({ wSeal 1 id with step := none } : State).jobRank 0 = 1 ∧
    (({ wSeal 1 id with step := none } : State).partition 0).state ≠ .empty ∧ ({ wSeal 1 id with step := none } : State).partRecords 0 = [] := by decide +kernel

/-- The ranks reach each other (TheRootDecidesOnceForAll, RanksPrepareOrFail, RanksWithoutADecisionAsk), and a decision kept for a rank that asks. -/
theorem witness_seal_reaches :
    (∀ k ∈ [mCommit, mAbort], reaches (wRoot 3 SealPart.reset) 0 allAxes 1 k) ∧ (∀ k ∈ [mConfirm, mFail, mDecision], reaches (wSeal 1 id) 0 allAxes 0 k) ∧
    ((wRoot 3 { SealPart.reset with decisions := [⟨1, true, 0, false, 0⟩] }).sealPart 0).decisions.find? (fun d => d.step == 1) = some ⟨1, true, 0, false, 0⟩ ∧
    ((wRoot 3 SealPart.reset).sealPart 0).decisions.find? (fun d => d.step == 1) = none := by
  unfold reaches; and_intros <;> decide +kernel


/-- Witnesses for StepRunsFrontCommand: empty receive buffers; a port above 2 MiB whose stop ends as it drains. -/
theorem witness_quiet_ports : (∀ e ∈ State.reset.eth, e.level = 0 ∧ e.xoff = false) ∧ State.reset.eth.length = 2 ∧ regsWf State.reset.regs = true := by
  decide +kernel

/-- Witness for the warm reset of ResetPinsAndWarmResets. -/
theorem witness_warm_pin :
    let s : State := { onState with
      boot := { onState.boot with dramKept := true }, upd := { onState.upd with runSlot := true }, pins := { onState.pins with resetFell := 0 } }
    s.boot.phase = .ready ∧ s.pins.resetFell + 1000 < 2000 ∧
      ({ s.atWall 2000 with pins := { s.pins with warmN := false, warmFell := 2000 } } : State).warmMadeCold = false ∧
      (s.cmp.streams.all fun x => x.2.cur.isNone) = true := by decide +kernel

/-- Witnesses for the time-outs of StartUpEndsReadyOrNamesWhyNot: what comes before step 3 is done; before step 4 it fails on an erased flash. -/
theorem witness_time_outs : (∃ v, bootState.upTo 3 = .ok v) ∧ ∃ v, bootState.upTo 4 = .error v := by
  have h3 : (bootState.upTo 3).isOk = true := by decide +kernel
  have h4 : (bootState.upTo 4).isOk = false := by decide +kernel
  refine ⟨ok_of_isOk h3, ?_⟩
  cases h : bootState.upTo 4 with
  | error v => exact ⟨v, rfl⟩
  | ok v => rw [h] at h4; exact absurd h4 (by simp [Except.isOk, Except.toBool])

/-- Witnesses for EchoAndNeighbourAnswers: port 0 takes no VLAN tag, and refuses one. -/
theorem witness_vlan : vlanOk (netState.reg (ethReg Reg.ethVlan 0)) none = true ∧ vlanOk (netState.reg (ethReg Reg.ethVlan 0)) (some 1) = false := by
  decide +kernel

/-- A load whose pool names the reserved class 6 (R285). -/
def Sys2Proof.Machine.wBadPool : List Byte :=
  leBytes 64 (putBits 501 494 1 + putBits 493 486 1 + putBits 485 476 1) ++ leBytes 16 (putBits 85 50 (2 ^ 21)) ++ leBytes 16 (putBits 117 115 6 + putBits 113 113 1 + putBits 76 55 3)

/-- Witness for PartitionsLoadAndAreWritten: a main load with room for that pool is refused by Vetch. -/
theorem witness_load_vetch : (∃ d, parseLoad wBadPool = some d ∧ (netState.queued (wMgmt 2 1 wBadPool)).loadOk d .train = true ∧
    ∃ x, d.vetch (netState.queued (wMgmt 2 1 wBadPool)).vetch = .error x) := by
  have h : ((parseLoad wBadPool).any fun d => (netState.queued (wMgmt 2 1 wBadPool)).loadOk d .train &&
      (match d.vetch (netState.queued (wMgmt 2 1 wBadPool)).vetch with | .error _ => true | .ok _ => false)) = true := by decide +kernel
  cases hd : parseLoad wBadPool with
  | none => rw [hd] at h; exact absurd h (by simp)
  | some d =>
    rw [hd] at h
    simp only [Option.any_some, Bool.and_eq_true] at h
    refine ⟨d, rfl, h.1, ?_⟩
    cases hv : d.vetch (netState.queued (wMgmt 2 1 wBadPool)).vetch with
    | error x => exact ⟨x, rfl⟩
    | ok vs => rw [hv] at h; exact absurd h.2 (by simp)

/-- A stream whose owner would have its home in a pool that is not there (R290). -/
theorem witness_stream_owner : (match ((wStreams 5 []).vetchOf 0).newOwner ⟨.stream, 0, 7, 0, 0, 0, 1⟩ with | .error st => some st | .ok _ => none) = some .poolConfig := by
  decide +kernel

/-- Witness for the digests of UpdatesAndStagedRecords: an entry whose digest is not of a digest's length is no part's. (No header can be shown that
checks: the root key is open, R597.) -/
theorem witness_bad_part : (∃ p, (wUpdState .receiving).badPart true (wUpdState .receiving).upd.header = some p) ∧
    (wUpdState .receiving).sec.floor ≤ headerVer (wUpdState .receiving).upd.header := by
  refine ⟨?_, by decide +kernel⟩
  have h : (manifest (wUpdState .receiving).upd.header).any (fun e => decide (e.digest.length ≠ 64)) = true := by decide +kernel
  obtain ⟨e, he, hl⟩ := List.any_eq_true.1 h
  have hs : ((manifest (wUpdState .receiving).upd.header).find? fun e => sha512 ((wUpdState .receiving).imageRead true e.off e.len) != e.digest).isSome = true :=
    List.find?_isSome.2 ⟨e, he, bne_iff_ne.2 fun hd => absurd (hd ▸ sha512_length _ : e.digest.length = 64) (of_decide_eq_true hl)⟩
  obtain ⟨x, hx⟩ := Option.isSome_iff_exists.1 hs
  exact ⟨x.type, by unfold State.badPart; rw [hx]; rfl⟩

/-- Witnesses for CodewordsAreTakenInOrder and PortsRetrainAndGoDown: nothing opens a slot when no step runs; what a training shows is the same
neighbour, or another. -/
theorem witness_link_premises :
    (linkState id).step = none ∧ (linkState id).filler = none ∧ noTraffic (linkState id) ∧ opensNothing (linkState id) wPacket := by
  refine ⟨rfl, rfl, ⟨rfl, rfl, rfl, fun _ h => ?_, fun _ h => ?_⟩, fun _ _ => Or.inl rfl⟩
  · exact absurd h (by rw [show (linkState id).step = none from rfl]; simp)
  · exact absurd h (by rw [show (linkState id).filler = none from rfl]; simp)

/-- A training that shows the neighbour of before, another, and none. -/
theorem witness_trained :
    let s := linkState fun p => { p with state := .retraining, peerSerial := [1] }
    ∀ serial ∈ [[1], [2]], ∀ lanes ∈ [0x3FFFF, 0x7F],
      (trainLanes ((2 ^ 18 - 1 - (s.port 0).laneFailed) &&& lanes)).isSome = decide (lanes = 0x3FFFF) ∧
      ((s.port 0).peerSerial = serial ∨ (s.port 0).peerSerial ≠ serial) := by decide +kernel

/-- Witnesses for RailsIslandsAndTheCeiling: an update one second after the first, within 2 % and not. -/
theorem witness_energy :
    (railState id).power.feeds.length = 32 ∧ (railState id).power.eLog = [(0, 0, 0)] ∧
    (let s : State := { railState id with power := { (railState id).power with eLog := [(0, 100, 100)] } }
     let q : List Nat := 100 :: List.replicate 63 0
     let b (x : Nat) := s.power.energyAt ⟨x, 0, 0, q⟩ (max s.counter 1000000000)
     (∀ a ∈ s.power.eLog, a.1 + 1000000000 ≤ (b 101).1 ∧ 50 * ((b 101).2.2 - a.2.2) ≤ 51 * ((b 101).2.1 - a.2.1) ∧ 49 * ((b 101).2.1 - a.2.1) ≤ 50 * ((b 101).2.2 - a.2.2)) ∧
     ∃ a ∈ s.power.eLog, a.1 + 1000000000 ≤ (b 200).1 ∧ 50 * ((b 200).2.2 - a.2.2) < 49 * ((b 200).2.1 - a.2.1)) := by decide +kernel
end

section
/-! SUPPORT for the steal groups (spec/05 R143 to R149): what the operations of OPEN, OFFER, WITHDRAW, a slab range, STEAL and TREE_ADDITION leave in
memory, in the clusters and in the cores. -/

namespace Sys2Proof.Machine

open Sys2Proof

/-! Issue on sound silicon. -/

/-- An instruction that is ready to issue issues, and ends as its engine says. -/
theorem State.issue_of_ready {s : State} {i op : Nat} {eng : Engine} {may : Core → W128 → Bool} {e : WinEntry} (hr : readyToIssue s i eng op may e)
    (mine : W128 → Bool) (also : Core → W128 → Bool) (run : State → Core → WinEntry → InstrEnd) (hm : mine e.word = true)
    (ha : also (s.core i) e.word = true) :
    s.issue i eng Health.sound mine also run = s.finishInstr i e (run s (s.core i) e) := by
  obtain ⟨hrun, hhead, -, hissue, -⟩ := hr
  simp only [State.issue, hrun, Bool.not_true, Bool.false_eq_true, if_false, hhead, hm, hissue, ha, or_self, Health.sound, State.reports, List.foldl_nil]

/-! Cores and clusters after the updates of this engine. -/

@[simp] theorem State.core_setCluster (s : State) (j cl : Nat) (k : ClusterSt) : (s.setCluster cl k).core j = s.core j := rfl

theorem State.core_setCore_same (s : State) (i : Nat) (c : Core) (h : s.storesOk) : (s.setCore i c).core i = c := by
  rw [State.core_setCore _ _ _ _ h.cores, if_pos rfl]

theorem State.core_setCore_ne (s : State) {i j : Nat} (c : Core) (h : s.storesOk) (hj : j ≠ i) : (s.setCore i c).core j = s.core j := by
  rw [State.core_setCore _ _ _ _ h.cores, if_neg hj]

theorem State.storesOk_drew {s : State} (n : Nat) (h : s.storesOk) : (s.drew n).storesOk := ⟨h.mem, h.flash0, h.flash1, h.regs, h.cores, h.clusters⟩

theorem State.storesOk_lsWrote {s : State} (i : Nat) (rs : List Span) (h : s.storesOk) : (s.lsWrote i rs).storesOk :=
  ⟨h.mem, h.flash0, h.flash1, h.regs, h.cores, h.clusters⟩

/-- An instruction that ran and writes no slot leaves the window and its counts. -/
theorem State.core_finishInstr_done (s : State) (i : Nat) (e : WinEntry) (c : Core) (h : s.storesOk) :
    (s.finishInstr i e (.done ⟨c, [], [], 0, 0⟩)).core i = (c.leave e).uncount e :=
  State.core_setCore_same s i _ h

/-! Marks: where nothing is marked lost, nothing that is written marks anything (R278). -/

theorem foldl_clearMarks_nil {α : Type} (a n : α → Nat) (ws : List α) : ws.foldl (fun k w => clearMarks k (a w) (n w)) [] = [] := by
  induction ws with
  | nil => rfl
  | cons w ws ih => exact ih

theorem State.marks_writeAll {s : State} (ws : List (Nat × List Byte)) (h : s.keep.marks = []) : (s.writeAll ws).keep.marks = [] := by
  show ws.foldl (fun k w => clearMarks k w.1 w.2.length) s.keep.marks = []
  rw [h]; exact foldl_clearMarks_nil _ _ ws

theorem State.marks_lsWrote {s : State} (i : Nat) (rs : List Span) (h : s.keep.marks = []) : (s.lsWrote i rs).keep.marks = [] := by
  show rs.foldl (fun m r => clearMarks m (lsKey i r.1) r.2) s.keep.marks = []
  rw [h]; exact foldl_clearMarks_nil _ _ rs

theorem State.marks_writeMem {s : State} (a : Nat) (bs : List Byte) (h : s.keep.marks = []) : (s.writeMem a bs).keep.marks = [] := by
  show clearMarks s.keep.marks a bs.length = []
  rw [h]; rfl

/-- The element codes of a merge-area entry, where nothing is marked lost. -/
theorem State.partialCodes_unmarked {s : State} (h : s.keep.marks = []) (cl : Nat) (d : Group) (t lo : Nat) :
    s.partialCodes cl d t lo = .ok (unpack 64 128 ((s.readMem (clusterStoreAddr cl (d.entryAt t lo)) 8208).drop 16)).toArray := by
  unfold State.partialCodes; rw [h]; rfl

/-! Bytes read beside and at what was written. -/

theorem bytesAt_bytesPut_ne (d : Byte) (m : List (Nat × Byte)) (a x n : Nat) (bs : List Byte) (hm : Sparse.wf d m = true)
    (hx : x + n ≤ a ∨ a + bs.length ≤ x) : bytesAt d (bytesPut d m a bs) x n = bytesAt d m x n := by
  rw [bytesAt_eq d _ x n (bytesPut_wf d m a bs hm), bytesAt_eq d m x n hm]
  refine List.map_congr_left fun i hi => ?_
  have := List.mem_range.mp hi
  rw [get_bytesPut, if_neg (by omega)]

theorem Core.read_write_ne (c : Core) (a x n : Nat) (bs : List Byte) (hc : Sparse.wf 0 c.ls = true) (hx : x + n ≤ a ∨ a + bs.length ≤ x) :
    (c.write a bs).read x n = c.read x n := bytesAt_bytesPut_ne 0 c.ls a x n bs hc hx

theorem State.readMem_congr {s t : State} (h : t.mem = s.mem) (a n : Nat) : t.readMem a n = s.readMem a n := by
  unfold State.readMem; rw [h]

theorem State.writeAll_cons (s : State) (w : Nat × List Byte) (ws : List (Nat × List Byte)) :
    s.writeAll (w :: ws) = (s.writeMem w.1 w.2).writeAll ws := rfl

/-- A range that no write touches reads as before. -/
theorem State.readMem_writeAll_apart (s : State) (ws : List (Nat × List Byte)) (x n : Nat) (h : Memory.wf s.mem = true)
    (hx : ∀ w ∈ ws, x + n ≤ w.1 ∨ w.1 + w.2.length ≤ x) : (s.writeAll ws).readMem x n = s.readMem x n := by
  induction ws generalizing s with
  | nil => rfl
  | cons w ws ih =>
    rw [State.writeAll_cons, ih _ (State.writeMem_wf s w.1 w.2 h) fun v hv => hx v (List.mem_cons_of_mem _ hv),
      State.readMem_writeMem_ne s w.1 x n w.2 h (hx w List.mem_cons_self)]

/-- One of several writes is read back when every other one is the same or lies apart. -/
theorem State.readMem_writeAll_mem (s : State) (ws : List (Nat × List Byte)) (a : Nat) (bs : List Byte) (h : Memory.wf s.mem = true)
    (hin : (a, bs) ∈ ws) (hx : ∀ w ∈ ws, w = (a, bs) ∨ a + bs.length ≤ w.1 ∨ w.1 + w.2.length ≤ a) :
    (s.writeAll ws).readMem a bs.length = bs := by
  induction ws generalizing s with
  | nil => exact absurd hin List.not_mem_nil
  | cons w ws ih =>
    have hrest := fun v hv => hx v (List.mem_cons_of_mem _ hv)
    rw [State.writeAll_cons]
    by_cases hlater : (a, bs) ∈ ws
    · exact ih _ (State.writeMem_wf s w.1 w.2 h) hlater hrest
    · obtain rfl : (a, bs) = w := (List.mem_cons.mp hin).resolve_right hlater
      rw [State.readMem_writeAll_apart _ _ _ _ (State.writeMem_wf s a bs h) fun v hv =>
          (hrest v hv).resolve_left fun e => hlater (e ▸ hv),
        State.readMem_writeMem s a bs h]

/-! Roots: what settling a group changes. -/

/-- A monadic fold none of whose steps fails succeeds, and keeps what every step keeps. -/
theorem foldlM_ok_rec {ε α β : Type} {motive : β → Prop} (f : β → α → Except ε β) (hstep : ∀ b a, motive b → ∃ r, f b a = .ok r ∧ motive r)
    (xs : List α) (b : β) (hb : motive b) : ∃ r, xs.foldlM f b = .ok r ∧ motive r := by
  induction xs generalizing b with
  | nil => exact ⟨b, rfl, hb⟩
  | cons x xs ih =>
    obtain ⟨r, hr, hm⟩ := hstep b x hb
    rw [List.foldlM_cons, hr]
    exact ih r hm

@[simp] theorem Lane.putTile_given (l : Lane) (b64 : Bool) (a : Nat) (codes : Array Nat) : (l.putTile b64 a codes).core.given = l.core.given := rfl

@[simp] theorem Lane.note_given (l : Lane) (index : Nat) : (l.note index).core.given = l.core.given := by
  unfold Lane.note; dsimp only; repeat' split
  all_goals rfl

/-- The tiles of a group whose roots are complete and not yet written at DST. -/
def StealGroup.due (g : StealGroup) : List Nat :=
  let d := parseGroup g.desc.toNat
  (List.range d.ot).filter fun t => g.done.contains (t, 0, d.slabs) && !g.roots.contains t

/-- One root written at DST by the core that settles its group. -/
def State.putRoot (s : State) (i : Nat) (d : Group) (acc : Lane × StealGroup) (t : Nat) : Except Status (Lane × StealGroup) :=
  (s.partialCodes (i / 12) d t 0).map fun sums =>
    (acc.1.putTile d.b64 (d.outAt t) (rawTile d.b64 (if t + 1 = d.ot then d.rows else 32) d.cols sums), { acc.2 with roots := acc.2.roots ++ [t] })

theorem State.putRoot_unmarked {s : State} (h : s.keep.marks = []) (i : Nat) (d : Group) (acc : Lane × StealGroup) (t : Nat) :
    ∃ r, s.putRoot i d acc t = .ok r ∧ r.1.core.given = acc.1.core.given := by
  unfold State.putRoot; rw [State.partialCodes_unmarked h]; exact ⟨_, rfl, Lane.putTile_given ..⟩

/-- What settling an open group leaves, once its due roots are put. -/
theorem State.settleGroup_of_roots {s : State} {i : Nat} {g g' : StealGroup} {l : Lane} (hg : s.groupOf i = some g)
    (hok : g.due.foldlM (s.putRoot i (parseGroup g.desc.toNat)) ({ Lane.of (s.core i) with nf := g.nf }, g) = .ok (l, g')) :
    s.settleGroup i =
      if g'.roots.length < (parseGroup g.desc.toNat).ot then ((s.setCore i l.core).lsWrote i l.wrote).setGroup { g' with nf := l.nf }
      else
        let l := l.note g'.entry.index
        ((s.setCore i { l.core.noSets.uncount g'.entry with slots := l.core.slots.filter fun e => e.2.state == .writing }).lsWrote i l.wrote).dropGroup i := by
  unfold StealGroup.due State.putRoot at hok
  unfold State.settleGroup
  rw [hg]; dsimp only at hok ⊢
  rw [hok]

/-- While nothing is marked lost, settling a group writes at most the core and its cluster: no memory, and no count of given slabs. -/
theorem State.settleGroup_cases (s : State) (i : Nat) (h : s.keep.marks = []) :
    s.settleGroup i = s ∨
      ∃ c ws cl k, c.given = (s.core i).given ∧ s.settleGroup i = ((s.setCore i c).lsWrote i ws).setCluster cl k := by
  cases hg : s.groupOf i with
  | none => left; unfold State.settleGroup; rw [hg]
  | some g =>
    right
    obtain ⟨⟨l, g'⟩, hok, hgiven⟩ := foldlM_ok_rec (motive := fun r => r.1.core.given = (s.core i).given) (s.putRoot i (parseGroup g.desc.toNat))
      (fun acc t hacc => (State.putRoot_unmarked h i _ acc t).imp fun r hr => ⟨hr.1, hr.2.trans hacc⟩) g.due
      ({ Lane.of (s.core i) with nf := g.nf }, g) rfl
    rw [State.settleGroup_of_roots hg hok]
    split
    · exact ⟨_, _, _, _, hgiven, rfl⟩
    · exact ⟨{ (l.note g'.entry.index).core.noSets.uncount g'.entry with
          slots := (l.note g'.entry.index).core.slots.filter fun e => e.2.state == .writing }, _, _, _,
        (Lane.note_given l g'.entry.index).trans hgiven, rfl⟩

@[simp] theorem State.settleGroup_mem {s : State} (i : Nat) (h : s.keep.marks = []) : (s.settleGroup i).mem = s.mem := by
  rcases State.settleGroup_cases s i h with he | ⟨c, ws, cl, k, -, he⟩
  · rw [he]
  · rw [he]; rfl

theorem State.core_settleGroup_ne {s : State} {i j : Nat} (hs : s.storesOk) (h : s.keep.marks = []) (hj : j ≠ i) :
    (s.settleGroup i).core j = s.core j := by
  rcases State.settleGroup_cases s i h with he | ⟨c, ws, cl, k, -, he⟩
  · rw [he]
  · rw [he]; exact State.core_setCore_ne s c hs hj

theorem State.given_settleGroup {s : State} {i : Nat} (hs : s.storesOk) (h : s.keep.marks = []) :
    ((s.settleGroup i).core i).given = (s.core i).given := by
  rcases State.settleGroup_cases s i h with he | ⟨c, ws, cl, k, hc, he⟩
  · rw [he]
  · rw [he]; exact (congrArg Core.given (State.core_setCore_same s i c hs)).trans hc

/-! OPEN, OFFER and WITHDRAW. -/

theorem State.freeBytes_length (s : State) (k n : Nat) : (s.freeBytes k n).length = n := by
  unfold State.freeBytes ceilDiv
  simp only [List.length_take, List.length_flatMap, leBytes_length, List.map_const', List.length_range, List.sum_replicate_nat]
  omega

theorem State.core_freeLs (s : State) (i : Nat) (r : Span) (h : s.storesOk) :
    (s.freeLs i r).core i = (s.core i).write r.1 (s.freeBytes 0 r.2) := State.core_setCore_same s i _ h

theorem State.core_freeLs_ne (s : State) {i j : Nat} (r : Span) (h : s.storesOk) (hj : j ≠ i) : (s.freeLs i r).core j = s.core j :=
  State.core_setCore_ne s _ h hj

theorem State.cluster_freeLs (s : State) (i : Nat) (r : Span) (cl : Nat) : (s.freeLs i r).cluster cl = s.cluster cl := rfl

@[simp] theorem State.freeLs_mem (s : State) (i : Nat) (r : Span) : (s.freeLs i r).mem = s.mem := rfl

theorem State.marks_freeLs {s : State} (i : Nat) (r : Span) (h : s.keep.marks = []) : (s.freeLs i r).keep.marks = [] :=
  State.marks_lsWrote i [r] h

theorem State.storesOk_freeLs {s : State} (i : Nat) (r : Span) (h : s.storesOk) : (s.freeLs i r).storesOk :=
  State.storesOk_lsWrote i _ (State.storesOk_drew _ (State.storesOk_setCore _ i _ h))

/-- The core after its OPEN: the instruction has left the window, and free bytes stand in the staging area. -/
theorem State.core_openGroup (s : State) (i : Nat) (e : WinEntry) (h : s.storesOk) :
    (s.openGroup i e).core i =
      let d := parseGroup ((s.core i).group e.word)
      let st := d.staging ((Fmt.ofCode d.fmtA).getD .bfloat16) ((Fmt.ofCode d.fmtW).getD .bfloat16)
      ((s.core i).leave e).write st.1 (s.freeBytes 0 st.2) := by
  unfold State.openGroup
  dsimp only
  rw [State.core_freeLs _ _ _ (State.storesOk_setCluster _ _ _ (State.storesOk_setCore _ _ _ h)), State.core_setCluster, State.core_setCore_same _ _ _ h]
  rfl

/-- The cluster after an OPEN: the new group stands last. -/
theorem State.groups_openGroup (s : State) (i : Nat) (e : WinEntry) (h : s.storesOk) :
    ((s.openGroup i e).cluster (i / 12)).groups = (s.cluster (i / 12)).groups ++
      [⟨i, BitVec.ofNat 512 ((s.core i).group e.word), e, [], [], 0, [], 0, stlRing e.word⟩] := by
  unfold State.openGroup
  dsimp only
  rw [State.cluster_freeLs, State.cluster_setCluster _ _ _ _ (State.storesOk_setCore _ _ _ h).clusters, if_pos rfl]

@[simp] theorem State.openGroup_mem (s : State) (i : Nat) (e : WinEntry) : (s.openGroup i e).mem = s.mem := by
  unfold State.openGroup; dsimp only; rw [State.freeLs_mem]; rfl

theorem State.window_openGroup (s : State) (i : Nat) (e : WinEntry) (h : s.storesOk) :
    ((s.openGroup i e).core i).window = (s.core i).window.filter fun w => w.index != e.index := by
  rw [State.core_openGroup s i e h]; rfl

/-- Outside the staging area the local store is as before an OPEN. -/
theorem State.read_openGroup_apart (s : State) (i : Nat) (e : WinEntry) (h : s.storesOk) (hls : Sparse.wf 0 (s.core i).ls = true) (a : Nat)
    (fa fw : Fmt) (hfa : Fmt.ofCode (parseGroup ((s.core i).group e.word)).fmtA = some fa)
    (hfw : Fmt.ofCode (parseGroup ((s.core i).group e.word)).fmtW = some fw)
    (ha : let st := (parseGroup ((s.core i).group e.word)).staging fa fw
      a < st.1 ∨ st.1 + st.2 ≤ a) : ((s.openGroup i e).core i).read a 1 = (s.core i).read a 1 := by
  rw [State.core_openGroup s i e h]
  dsimp only
  rw [hfa, hfw]
  refine Core.read_write_ne _ _ a 1 _ hls ?_
  rw [State.freeBytes_length]
  exact ha

/-- OPEN issues when the shadow is EMPTY, no slot is WRITING, nothing of R153 refuses it and its descriptor can be read. -/
theorem exec_stlOpen_issues {c : CoreId} {e : WinEntry} {s : State} (hg : s.groupOf c.idx = none)
    (hr : readyToIssue s c.idx .matrix 0x31 (fun _ w => stlOp w == 0) e) (hshadow : (s.core c.idx).shadow = .empty)
    (hslots : ((s.core c.idx).slots.any fun x => x.2.state == .writing) = false) (hbar : s.openBar (s.core c.idx) e.word = .ok ())
    (hdesc : s.lsBad c.idx (16 * stlAddr e.word) 64 = false) : exec (.stlOpen c .sound) s = .next (s.openGroup c.idx e) := by
  obtain ⟨hrun, hhead, hop, hissue, hstl⟩ := hr
  show execStlOpen c .sound s = _
  unfold execStlOpen
  simp only [hg, hhead, hrun, Bool.not_true, Bool.false_eq_true, hop, opStl, ne_eq, not_true_eq_false, beq_iff_eq.mp hstl, Nat.zero_ne_one,
    reduceCtorEq, hissue, hshadow, hslots, or_self, and_false, if_false, Health.sound, State.reports, List.foldl_nil, hbar, hdesc]

/-- OFFER and WITHDRAW leave the core that their engine gives, the instruction gone from its window. -/
theorem State.core_stlSimple {s : State} {i op : Nat} {e : WinEntry} (hs : s.storesOk)
    (hr : readyToIssue s i .matrix 0x31 (fun _ w => stlOp w == op) e) (f : Core → WinEntry → InstrEnd) (c : Core)
    (hf : f (s.core i) e = .done ⟨c, [], [], 0, 0⟩) : (s.stlSimple i op f).core i = (c.leave e).uncount e := by
  have hm : (isOp opStl e.word && stlOp e.word == op) = true := by
    obtain ⟨-, -, hop, -, hstl⟩ := hr
    simp only [isOp, hop, opStl, BEq.rfl, hstl, Bool.and_self]
  rw [show s.stlSimple i op f = s.finishInstr i e (f (s.core i) e) from
    State.issue_of_ready hr (fun w => isOp opStl w && stlOp w == op) _ _ hm rfl, hf, State.core_finishInstr_done _ _ _ _ hs]

/-! Lengths of the entries of a merge area. -/

theorem pack_go_length (bits k fuel : Nat) (cs : List Nat) (hc : cs.length = 8 * k) (hf : k < fuel) : (pack.go bits fuel cs).length = bits * k := by
  induction k generalizing fuel cs with
  | zero =>
    obtain ⟨fuel, rfl⟩ := Nat.exists_eq_succ_of_ne_zero (Nat.ne_of_gt hf)
    simp only [pack.go, List.length_eq_zero_iff.mp hc, List.isEmpty_nil, if_true, List.length_nil, Nat.mul_zero]
  | succ k ih =>
    obtain ⟨fuel, rfl⟩ := Nat.exists_eq_succ_of_ne_zero (Nat.ne_of_gt (Nat.zero_lt_of_lt hf))
    have hne : cs.isEmpty = false := by
      rw [List.isEmpty_eq_false_iff, ← List.length_pos_iff]; omega
    simp only [pack.go, hne, Bool.false_eq_true, if_false, List.length_append, leBytes_length]
    rw [ih fuel _ (by rw [List.length_drop]; omega) (by omega), Nat.mul_succ, Nat.add_comm]

theorem pack_length (bits k : Nat) (cs : List Nat) (hc : cs.length = 8 * k) : (pack bits cs).length = bits * k :=
  pack_go_length bits k _ cs hc (by omega)

/-- A dense tile of 1024 binary64 codes takes 8208 bytes (R87). -/
theorem encodeDense_binary64_length (codes : Array Nat) (h : codes.size = 1024) : (encodeDense (tileOfCodes .binary64 codes)).length = 8208 := by
  have hp : (pack 64 codes.toList).length = 64 * 128 := pack_length 64 128 _ (by rw [Array.length_toList, h])
  show (sealTile .dense 64 (tileOfCodes .binary64 codes).hasNonfinite false .binary64 (2 ^ 64 - 1) ([] ++ pack 64 codes.toList)).length = 8208
  unfold sealTile
  simp only [List.nil_append, List.append_assoc, List.length_append, leBytes_length, hp]

/-- Different tiles of one slab range have their entries apart (R146). -/
theorem Group.entryAt_apart (d : Group) (q : Nat) {x y : Nat} (hd : 0 < d.slabs) (h : x < y) : d.entryAt x q + 8208 ≤ d.entryAt y q := by
  have : (x + 1) * d.slabs ≤ y * d.slabs := Nat.mul_le_mul_right _ h
  unfold Group.entryAt
  rw [Nat.add_mul] at this
  omega

theorem clusterEntry_apart (cl : Nat) (d : Group) (q : Nat) {x y : Nat} (hd : 0 < d.slabs) (h : x ≠ y) :
    clusterStoreAddr cl (d.entryAt x q) + 8208 ≤ clusterStoreAddr cl (d.entryAt y q) ∨
      clusterStoreAddr cl (d.entryAt y q) + 8208 ≤ clusterStoreAddr cl (d.entryAt x q) := by
  unfold clusterStoreAddr
  rcases Nat.lt_or_gt_of_ne h with h | h
  · have := d.entryAt_apart q hd h; omega
  · have := d.entryAt_apart q hd h; omega

/-! Chains: what holds at every drain of a run. -/

/-- One pass drained: the partial closes first when the count is full (R124), and the rows that failed are added. -/
def Chain.drainPass (c : Chain) (index spillAt n : Nat) (acc : Lane × Slot × List (Nat × Nat × Nat)) (p : Array Nat × List Nat) :
    Lane × Slot × List (Nat × Nat × Nat) :=
  let lx := if partialFull acc.2.1.products then acc.1.closePartial index c.array c.slot c.pad.1 c.pad.2 acc.2.1 else (acc.1, acc.2.1)
  (lx.1, lx.2.drain spillAt (packing c.fmt) p.1, acc.2.2 ++ p.2.map fun m => (c.array, c.k0 + n, c.row0 + m))

/-- What holds of a chain's start and is kept by the drain of each of its passes holds of its run. -/
theorem Chain.run_induction {motive : Lane × Slot × List (Nat × Nat × Nat) → Prop} (c : Chain) (index spillAt : Nat) (ups : List Upset) (l : Lane)
    (x : Slot) (h0 : motive (l, x, []))
    (hstep : ∀ kn ∈ c.steps.zipIdx, ∀ p ∈ c.passesOf kn.1 (c.k0 + kn.2) ups, ∀ acc, motive acc → motive (c.drainPass index spillAt kn.2 acc p)) :
    motive (c.run index spillAt ups l x) :=
  List.foldlRecOn _ _ h0 fun _ hacc kn hkn => List.foldlRecOn _ _ hacc fun acc hacc p hp => hstep kn hkn p hp acc hacc

theorem Slot.drain_wide_size (x : Slot) (spillAt p : Nat) (part : Array Nat) (h : x.wide.size = 1024) : (x.drain spillAt p part).wide.size = 1024 := by
  unfold Slot.drain; dsimp only; split
  · simp only [Slot.spill, Array.size_map, Array.size_range]
  · exact h

theorem Slot.sums_size (x : Slot) (h : x.wide.size = 1024) : x.sums.size = 1024 := by
  unfold Slot.sums; split
  · simp only [Slot.spill, Array.size_map, Array.size_range]
  · exact h

/-- A chain that starts from +0 ends with 1024 sums. -/
theorem Chain.run_sums_size (c : Chain) (index spillAt : Nat) (ups : List Upset) (l : Lane) :
    (c.run index spillAt ups l Slot.start).2.1.sums.size = 1024 := by
  refine Slot.sums_size _ (c.run_induction (motive := fun r => r.2.1.wide.size = 1024) index spillAt ups l Slot.start Array.size_replicate ?_)
  intro kn _ p _ _ hacc
  refine Slot.drain_wide_size _ _ _ _ ?_
  split
  · exact Array.size_replicate
  · exact hacc

/-- A chain whose tiles were all read fails no test in its run when no test of a k-step fails. -/
theorem Chain.run_fails_nil (c : Chain) (index spillAt : Nat) (ups : List Upset) (l : Lane) (x : Slot) (hread : ∀ k ∈ c.steps, k.readable = true)
    (h : c.failing ups = []) : (c.run index spillAt ups l x).2.2 = [] := by
  refine c.run_induction (motive := fun r => r.2.2 = []) index spillAt ups l x rfl ?_
  intro kn hkn p hp _ hacc
  have hk : (if kn.1.readable then _ else _) = [] := List.flatMap_eq_nil_iff.mp h kn hkn
  rw [hread kn.1 (List.fst_mem_of_mem_zipIdx hkn), if_pos rfl] at hk
  have hrows := List.flatMap_eq_nil_iff.mp hk p hp
  unfold Chain.drainPass
  rw [hacc, hrows]; rfl

/-- A computation that succeeds succeeded in its first part. -/
theorem ok_of_bind_ok {ε α β : Type} {x : Except ε α} {f : α → Except ε β} {b : β} (h : (x >>= f) = .ok b) : ∃ a, x = .ok a ∧ f a = .ok b := by
  cases x with
  | error e => cases h
  | ok a => exact ⟨a, rfl, h⟩

/-- Every element of a monadic map that succeeds comes from its function. -/
theorem mem_of_mapM_ok {ε α β : Type} {f : α → Except ε β} {xs : List α} {ys : List β} (h : xs.mapM f = .ok ys) : ∀ y ∈ ys, ∃ x, f x = .ok y := by
  induction xs generalizing ys with
  | nil => cases h; exact fun _ hy => absurd hy List.not_mem_nil
  | cons x xs ih =>
    rw [List.mapM_cons] at h
    obtain ⟨z, hz, h⟩ := ok_of_bind_ok h
    obtain ⟨zs, hzs, h⟩ := ok_of_bind_ok h
    cases h
    intro y hy
    rcases List.mem_cons.mp hy with rfl | hy
    · exact ⟨x, hz⟩
    · exact ih hzs y hy

/-- Every k-step of a slab whose chain was formed has been read. -/
theorem State.slabChain_readable {s : State} {part cl : Nat} {g : Group} {fa fw : Fmt} {t q array slot row0 : Nat} {ch : Chain}
    (h : s.slabChain part cl g fa fw t q array slot row0 = .ok ch) : ∀ k ∈ ch.steps, k.readable = true := by
  obtain ⟨steps, hsteps, h⟩ := ok_of_bind_ok h
  cases h
  intro k hk
  obtain ⟨n, hn⟩ := mem_of_mapM_ok hsteps k hk
  obtain ⟨stat, -, hn⟩ := ok_of_bind_ok hn
  obtain ⟨str, -, hn⟩ := ok_of_bind_ok hn
  cases hn; rfl

/-! A thief's slabs. -/

/-- The slabs of a theft, one for each array: tile, array and slot 7. -/
def lootSlabs (ts : List Nat) : List (Nat × Nat × Nat) := ts.zipIdx.map fun x => (x.1, x.2, 7)

/-- No array of a thief takes two slabs. -/
theorem lootSlabs_before (ts : List Nat) {x : Nat × Nat} (hx : x ∈ ts.zipIdx) :
    ((lootSlabs ts).filter fun y => y.2.1 == x.2 && decide (y.1 < x.1)) = [] := by
  refine List.filter_eq_nil_iff.mpr fun y hy => ?_
  obtain ⟨z, hz, rfl⟩ := List.mem_map.mp hy
  rw [List.mem_zipIdx_iff_getElem?] at hx hz
  by_cases ha : z.2 = x.2
  · rw [ha, hx] at hz
    simp only [Option.some.inj hz, Nat.lt_irrefl, decide_false, Bool.and_false, Bool.false_eq_true, not_false_eq_true]
  · simp only [Bool.and_eq_true, beq_iff_eq, ha, false_and, not_false_eq_true]

/-- The binary64 entry of a slab that core `o` computes on sound silicon (R149). -/
def State.slabEntry (s : State) (o : Core) (ch : Chain) : List Byte :=
  encodeDense (tileOfCodes .binary64 (ch.run 0 (s.spillOf o) [] (Lane.of o) Slot.start).2.1.sums)

theorem State.slabEntry_length (s : State) (o : Core) (ch : Chain) : (s.slabEntry o ch).length = 8208 :=
  encodeDense_binary64_length _ (ch.run_sums_size ..)

/-- The slabs of a theft whose tiles read and whose lanes pass end with the sums of their chains. -/
theorem State.runSlabs_loot {s : State} {cl : Nat} {o : Core} {d : Group} {q : Nat} {ts : List Nat} {fa fw : Fmt} {chain : Nat → Chain}
    (hfa : Fmt.ofCode d.fmtA = some fa) (hfw : Fmt.ofCode d.fmtW = some fw)
    (h : ∀ x ∈ ts.zipIdx, s.slabChain o.part cl d fa fw x.1 q x.2 7 0 = .ok (chain x.1) ∧ (chain x.1).failing [] = []) :
    s.runSlabs cl o d q (lootSlabs ts) [] = .done (ts.map fun t => (t, s.slabEntry o (chain t))) := by
  have hchains : ((lootSlabs ts).map fun (t, array, slot) =>
      (t, s.slabChain o.part cl d fa fw t q array slot (32 * ((lootSlabs ts).filter fun x => x.2.1 == array && decide (x.1 < t)).length)))
      = ts.map fun t => (t, .ok (chain t)) := by
    conv => rhs; rw [← List.zipIdx_map_fst 0 ts]
    rw [lootSlabs, List.map_map, List.map_map, ← lootSlabs]
    refine List.map_congr_left fun x hx => ?_
    have hslab := (h x hx).1
    simp only [Function.comp_apply, lootSlabs_before ts hx, List.length_nil, Nat.mul_zero, hslab]
  have hfails : (ts.flatMap fun t => ((chain t).run 0 (s.spillOf o) [] (Lane.of o) Slot.start).2.2) = [] := by
    refine List.flatMap_eq_nil_iff.mpr fun t ht => ?_
    obtain ⟨n, hn⟩ := List.mem_iff_getElem?.mp ht
    obtain ⟨hok, hpass⟩ := h (t, n) (List.mem_zipIdx_iff_getElem?.mpr hn)
    exact Chain.run_fails_nil _ _ _ _ _ _ (State.slabChain_readable hok) hpass
  have hgood (bad : Nat × Except (Status × Nat) Chain → Option (Status × Nat)) (hb : ∀ t, bad (t, .ok (chain t)) = none) :
      (ts.map fun t => (t, .ok (chain t))).filterMap bad = [] := by
    rw [List.filterMap_map]
    exact List.filterMap_eq_nil_iff.mpr fun t _ => hb t
  have houts : (ts.map fun t => (t, (Except.ok (chain t) : Except (Status × Nat) Chain))).filterMap (fun r =>
      r.2.toOption.map fun ch => (r.1, ch.run 0 (s.spillOf o) [] (Lane.of o) Slot.start))
      = ts.map fun t => (t, (chain t).run 0 (s.spillOf o) [] (Lane.of o) Slot.start) := by
    rw [List.filterMap_map]
    exact congrFun List.filterMap_eq_map ts
  unfold State.runSlabs
  rw [hfa, hfw]
  dsimp only
  rw [hchains, hgood _ fun _ => rfl, houts, List.flatMap_map, hfails]
  exact congrArg SlabEnd.done List.map_map

/-- The state of a theft before its group is settled: the entries written, the slabs counted, the thief's staging area given free bytes. -/
def State.stolen (s : State) (i : Nat) (g : StealGroup) (q : Nat) (ts : List Nat) (parts : List (Nat × List Byte)) : State :=
  let s1 := s.putPartials (i / 12) { g with taken := g.taken ++ ts.map fun t => (t, q) } q parts
  let o := s1.core g.owner
  let s2 := s1.setCore g.owner { o with given := o.given + ts.length }
  (s2.setCore i { s2.core i with taken := (s2.core i).taken + ts.length }).freeLs i (offerSpan (s.core i).offer)

section Theft

variable {s : State} {i q : Nat} {g : StealGroup} {ts : List Nat} {parts : List (Nat × List Byte)}

/-- The entries that a slab range writes in the merge area. -/
def StealGroup.entries (g : StealGroup) (cl q : Nat) (parts : List (Nat × List Byte)) : List (Nat × List Byte) :=
  parts.map fun p => (clusterStoreAddr cl ((parseGroup g.desc.toNat).entryAt p.1 q), p.2)

theorem State.stolen_mem : (s.stolen i g q ts parts).mem = (s.writeAll (g.entries (i / 12) q parts)).mem := rfl

theorem State.marks_putPartials {cl : Nat} (h : s.keep.marks = []) : (s.putPartials cl g q parts).keep.marks = [] :=
  State.marks_writeAll _ h

theorem State.storesOk_putPartials {cl : Nat} (h : s.storesOk) : (s.putPartials cl g q parts).storesOk :=
  State.storesOk_setCluster _ _ _ (State.storesOk_writeAll _ _ h)

theorem State.marks_stolen (h : s.keep.marks = []) : (s.stolen i g q ts parts).keep.marks = [] :=
  State.marks_freeLs i _ (State.marks_putPartials h)

theorem State.storesOk_stolen (h : s.storesOk) : (s.stolen i g q ts parts).storesOk :=
  State.storesOk_freeLs i _ (State.storesOk_setCore _ _ _ (State.storesOk_setCore _ _ _ (State.storesOk_putPartials h)))

theorem State.taken_stolen (h : s.storesOk) (hne : g.owner ≠ i) :
    ((s.stolen i g q ts parts).core i).taken = (s.core i).taken + ts.length := by
  unfold State.stolen
  dsimp only
  rw [State.core_freeLs _ _ _ (State.storesOk_setCore _ _ _ (State.storesOk_setCore _ _ _ (State.storesOk_putPartials h))),
    State.core_setCore_same _ _ _ (State.storesOk_setCore _ _ _ (State.storesOk_putPartials h)),
    State.core_setCore_ne _ _ (State.storesOk_putPartials h) hne.symm]
  rfl

theorem State.given_stolen (h : s.storesOk) (hne : g.owner ≠ i) :
    ((s.stolen i g q ts parts).core g.owner).given = (s.core g.owner).given + ts.length := by
  unfold State.stolen
  dsimp only
  rw [State.core_freeLs_ne _ _ (State.storesOk_setCore _ _ _ (State.storesOk_setCore _ _ _ (State.storesOk_putPartials h))) hne,
    State.core_setCore_ne _ _ (State.storesOk_setCore _ _ _ (State.storesOk_putPartials h)) hne,
    State.core_setCore_same _ _ _ (State.storesOk_putPartials h)]
  rfl

end Theft

/-- A STEAL always ends in a next state. -/
theorem execSteal_completes (c : CoreId) (h : Health) (s : State) : ∃ t, exec (.steal c h) s = .next t := by
  show ∃ t, execSteal c h s = .next t
  unfold execSteal
  dsimp only
  repeat' split
  all_goals exact ⟨_, rfl⟩

/-- A STEAL that finds loot and whose slabs end with their entries. -/
theorem exec_steal_done {c : CoreId} {g : StealGroup} {q : Nat} {ts : List Nat} {s : State} {parts : List (Nat × List Byte)}
    (hv : s.victim c.idx = some (g, q, ts)) (hrun : s.coreRuns c.idx = true) (hmay : (s.core c.idx).maySteal = true) (hg : s.groupOf c.idx = none)
    (hp : s.runSlabs (c.idx / 12) (s.core g.owner) (parseGroup g.desc.toNat) q (lootSlabs ts) [] = .done parts) :
    exec (.steal c .sound) s = .next ((s.stolen c.idx g q ts parts).settleGroup g.owner) := by
  show execSteal c .sound s = _
  unfold lootSlabs at hp
  unfold execSteal
  simp only [hv, hrun, Bool.not_true, Bool.false_eq_true, hmay, hg, Option.isSome_none, or_self, if_false, Health.sound, State.reports,
    List.foldl_nil, hp]
  rfl

/-! An owner's slab range and an addition. -/

/-- STL_OPEN of a core whose group is open goes on with its next slab range. -/
theorem exec_stlOpen_open (c : CoreId) (h : Health) {s : State} {g : StealGroup} (hg : s.groupOf c.idx = some g) :
    exec (.stlOpen c h) s = .next (s.ownerRange c.idx h g) := by
  show execStlOpen c h s = _
  unfold execStlOpen
  simp only [hg]

/-- The owner's next range, its slabs done: their entries are written and the group is settled. -/
theorem exec_stlOpen_range {c : CoreId} {g : StealGroup} {s : State} {parts : List (Nat × List Byte)} (hg : s.groupOf c.idx = some g)
    (hrun : s.coreRuns c.idx = true) (hnext : g.next < (parseGroup g.desc.toNat).slabs)
    (hp : s.runSlabs (c.idx / 12) (s.core c.idx) (parseGroup g.desc.toNat) g.next
      (((List.range (parseGroup g.desc.toNat).ot).filter fun x => !g.taken.contains (x, g.next)).map fun x => (x, x % 4, x / 4)) [] = .done parts) :
    exec (.stlOpen c .sound) s
      = .next ((s.putPartials (c.idx / 12) { g with next := g.next + 1 } g.next parts).settleGroup c.idx) := by
  rw [exec_stlOpen_open _ _ hg, State.ownerRange]
  simp only [Nat.not_le.mpr hnext, hrun, Bool.not_true, Bool.false_eq_true, or_self, if_false, Health.sound, State.reports, List.foldl_nil, hp]

/-- The entry that an addition writes over its left input: the binary64 sums of the entries (n, lo) and (n, mid) (R149). -/
def State.entrySum (s : State) (cl : Nat) (d : Group) (n lo mid : Nat) : List Byte :=
  let code (x k : Nat) : Nat := (unpack 64 128 ((s.readMem (clusterStoreAddr cl (d.entryAt n x)) 8208).drop 16)).toArray.getD k 0
  encodeDense (tileOfCodes .binary64 ((Array.range 1024).map fun k =>
    FloatFmt.b64.encode (FVal.add (FloatFmt.b64.decode (code lo k)) (FloatFmt.b64.decode (code mid k)))))

/-- An addition whose two inputs are present, while nothing is marked lost. -/
theorem exec_treeAddition_adds {c : CoreId} {g : StealGroup} {n lo mid hi : Nat} {s : State} (hm : s.keep.marks = [])
    (hg : s.groupOf c.idx = some g) (hsum : g.nextSum = some (n, lo, mid, hi)) (hrun : s.coreRuns c.idx = true) :
    exec (.treeAddition c) s =
      let d := parseGroup g.desc.toNat
      .next (((s.writeMem (clusterStoreAddr (c.idx / 12) (d.entryAt n lo)) (s.entrySum (c.idx / 12) d n lo mid)).setGroup
        { g with done := (g.done.filter fun e => e != (n, lo, mid) && e != (n, mid, hi)) ++ [(n, lo, hi)] }).settleGroup c.idx) := by
  show execTreeAddition c s = _
  unfold execTreeAddition
  simp only [hg, hsum, hrun, State.partialCodes_unmarked hm, Bool.not_true, Bool.false_eq_true, if_false]
  rfl

/-! What the entries leave in memory. -/

/-- A byte outside the entries of a slab range is as before. -/
theorem State.readMem_entries_apart {s : State} (hs : s.storesOk) (g : StealGroup) (cl q : Nat) (parts : List (Nat × List Byte)) (a : Nat)
    (ha : ∀ p ∈ parts, a < clusterStoreAddr cl ((parseGroup g.desc.toNat).entryAt p.1 q) ∨
      clusterStoreAddr cl ((parseGroup g.desc.toNat).entryAt p.1 q) + p.2.length ≤ a) :
    (s.writeAll (g.entries cl q parts)).readMem a 1 = s.readMem a 1 := by
  refine State.readMem_writeAll_apart s _ a 1 hs.mem fun w hw => ?_
  obtain ⟨p, hp, rfl⟩ := List.mem_map.mp hw
  exact ha p hp

/-- Each slab's entry holds its sums, whatever other slabs of the range are written. -/
theorem State.readMem_entries_mem {s : State} (hs : s.storesOk) (g : StealGroup) (cl q : Nat) (o : Core) (chain : Nat → Chain) {ts : List Nat}
    {x : Nat} (hx : x ∈ ts) :
    (s.writeAll (g.entries cl q (ts.map fun t => (t, s.slabEntry o (chain t))))).readMem
      (clusterStoreAddr cl ((parseGroup g.desc.toNat).entryAt x q)) 8208 = s.slabEntry o (chain x) := by
  have hlen := s.slabEntry_length o (chain x)
  have hread := State.readMem_writeAll_mem s (g.entries cl q (ts.map fun t => (t, s.slabEntry o (chain t))))
    (clusterStoreAddr cl ((parseGroup g.desc.toNat).entryAt x q)) (s.slabEntry o (chain x)) hs.mem
  rw [hlen] at hread
  refine hread (List.mem_map.mpr ⟨_, List.mem_map_of_mem hx, rfl⟩) fun w hw => ?_
  obtain ⟨p, hp, rfl⟩ := List.mem_map.mp hw
  obtain ⟨y, -, rfl⟩ := List.mem_map.mp hp
  by_cases hxy : x = y
  · exact .inl (by rw [hxy])
  · right
    rw [State.slabEntry_length]
    exact clusterEntry_apart cl _ q (Nat.succ_pos _) hxy

/-- What a theft leaves: the entries in memory, and the slabs counted at the thief and at the owner. -/
theorem State.settled_theft {s : State} (hs : s.storesOk) (hm : s.keep.marks = []) (i q : Nat) (g : StealGroup) (ts : List Nat)
    (parts : List (Nat × List Byte)) :
    ((s.stolen i g q ts parts).settleGroup g.owner).mem = (s.writeAll (g.entries (i / 12) q parts)).mem ∧
      (g.owner ≠ i → (((s.stolen i g q ts parts).settleGroup g.owner).core i).taken = (s.core i).taken + ts.length ∧
        (((s.stolen i g q ts parts).settleGroup g.owner).core g.owner).given = (s.core g.owner).given + ts.length) := by
  have hmarks : (s.stolen i g q ts parts).keep.marks = [] := State.marks_stolen hm
  refine ⟨(State.settleGroup_mem _ hmarks).trans State.stolen_mem, fun hne => ⟨?_, ?_⟩⟩
  · rw [State.core_settleGroup_ne (State.storesOk_stolen hs) hmarks hne.symm, State.taken_stolen hs hne]
  · rw [State.given_settleGroup (State.storesOk_stolen hs) hmarks, State.given_stolen hs hne]

/-- Memory after an addition is that of its one write. -/
theorem State.settled_addition_mem {s : State} (hm : s.keep.marks = []) (i a : Nat) (bs : List Byte) (g : StealGroup) :
    (((s.writeMem a bs).setGroup g).settleGroup i).mem = (s.writeMem a bs).mem := State.settleGroup_mem i (State.marks_writeMem a bs hm)

/-- Memory after a slab range is that of its entries' writes. -/
theorem State.settled_range_mem {s : State} (hm : s.keep.marks = []) (i q : Nat) (g : StealGroup) (parts : List (Nat × List Byte)) :
    ((s.putPartials (i / 12) g q parts).settleGroup i).mem = (s.writeAll (g.entries (i / 12) q parts)).mem :=
  State.settleGroup_mem i (State.marks_putPartials hm)

/-- Settles O23: each command's end state is named once above; what it leaves is read off the writes of its merge-area entries. -/
theorem stealGroupsOpenShareAndMerge : Obligations.StealGroupsOpenShareAndMerge := by
  unfold Obligations.StealGroupsOpenShareAndMerge
  refine ⟨?opening, ?offer, ?withdraw, ?range, ?theft, ?loot, ?addition⟩
  case opening =>
    intro c e s hs hls hg hr hshadow hslots hbar hdesc
    exact ⟨_, exec_stlOpen_issues hg hr hshadow hslots hbar hdesc,
      ⟨_, State.groups_openGroup s c.idx e hs, rfl, rfl, rfl, rfl, rfl, rfl⟩, State.window_openGroup s c.idx e hs, State.openGroup_mem ..,
      State.read_openGroup_apart s c.idx e hs hls⟩
  case offer =>
    intro c e s hs hfill hr hspan htop
    have htrf : inTrf (16 * stlAddr e.word, 48 * 1024) = false := decide_eq_false (Nat.not_lt.mpr htop)
    exact ⟨_, rfl, State.core_stlSimple hs hr _ _ (if_neg (by simp only [offerSpan, hfill, hspan, htrf, Bool.not_true, Bool.false_eq_true, or_self, not_false_eq_true]))⟩
  case withdraw =>
    intro c e s hs hfill hr
    exact ⟨_, rfl, State.core_stlSimple hs hr _ _ (if_neg (by simp only [hfill, Bool.false_eq_true, not_false_eq_true]))⟩
  case range =>
    intro c g s hs hm hg hrun hnext
    refine ⟨_, exec_stlOpen_open c .sound hg, fun parts hp a ha => ?_⟩
    have hend := (exec_stlOpen_open c .sound hg).symm.trans (exec_stlOpen_range hg hrun hnext hp)
    rw [Host.Outcome.next.inj hend, State.readMem_congr (State.settled_range_mem hm ..)]
    exact State.readMem_entries_apart hs g _ _ parts a ha
  case theft =>
    intro c g q ts s hs hm hv hrun hmay hg
    obtain ⟨t, ht⟩ := execSteal_completes c .sound s
    refine ⟨t, ht, fun parts hp => ?_⟩
    obtain rfl := Host.Outcome.next.inj (ht.symm.trans (exec_steal_done hv hrun hmay hg hp))
    obtain ⟨hmem, hcounts⟩ := State.settled_theft hs hm c.idx q g ts parts
    refine ⟨hcounts, fun a ha => ?_⟩
    rw [State.readMem_congr hmem]
    exact State.readMem_entries_apart hs g _ q parts a ha
  case loot =>
    intro c g q ts fa fw chain s hs hm hv hrun hmay hg hne d o hfa hfw hchain
    obtain ⟨hmem, hcounts⟩ := State.settled_theft hs hm c.idx q g ts (ts.map fun t => (t, s.slabEntry o (chain t)))
    refine ⟨_, exec_steal_done hv hrun hmay hg (State.runSlabs_loot hfa hfw hchain), (hcounts hne).1, (hcounts hne).2, fun x hx => ?_⟩
    rw [State.readMem_congr hmem]
    exact State.readMem_entries_mem hs g _ q o chain hx
  case addition =>
    intro c g n lo mid hi s hs hm hg hsum hrun
    refine ⟨_, exec_treeAddition_adds hm hg hsum hrun, ?_, fun a ha => ?_⟩
    · rw [State.readMem_congr (State.settled_addition_mem hm ..)]
      exact State.readMem_writeMem s _ _ hs.mem
    · rw [State.readMem_congr (State.settled_addition_mem hm ..)]
      exact State.readMem_writeMem_ne s _ a 1 _ hs.mem ha

end Sys2Proof.Machine
end

section
/-! SUPPORT for the stores' canonical form (spec/09 R260, R277, R279): what each operation of the model does to memory, flash, register words, cores and
clusters, as one rule per operation, `State.storesOk.<operation>`, so that the rule for a chain of operations is the chain of their rules. Rules that the laws
state with explicit operands stand here with implicit ones, for the chains. The headings name the model's files. -/

namespace Sys2Proof.Machine

open Sys2Proof

/-- What storesOk speaks of. -/
def State.stores (s : State) :=
  (s.mem, s.flash0, s.flash1, s.regs, s.cores, s.clusters)

/-- An update of other fields keeps the stores. -/
theorem State.storesOk.same {s t : State} (h : s.storesOk) (e : t.stores = s.stores) : t.storesOk := by
  simp only [State.stores, Prod.mk.injEq] at e
  obtain ⟨hm, hf, hg, hr, hc, hk⟩ := e
  exact ⟨hm ▸ h.mem, hf ▸ h.flash0, hg ▸ h.flash1, hr ▸ h.regs, hc ▸ h.cores, hk ▸ h.clusters⟩

/-- As `same`, for a record update written out: the fields are compared as they stand, without unfolding what they hold. -/
theorem State.storesOk.updated {s t : State} (h : s.storesOk)
    (e : (t.mem, t.flash0, t.flash1, t.regs, t.cores, t.clusters) = (s.mem, s.flash0, s.flash1, s.regs, s.cores, s.clusters)) :
    t.storesOk := h.same e

theorem State.storesOk.ite {p : Prop} [Decidable p] {s t : State} (hs : s.storesOk) (ht : t.storesOk) : (if p then s else t).storesOk := by
  split
  · exact hs
  · exact ht

section Pairs

variable {α β : Type} {x y : State × α}

theorem State.storesOk.paired {t : State} {a : α} (h : t.storesOk) : (t, a).1.storesOk := h

theorem State.storesOk.of_pair {t : State} {a : α} (e : x = (t, a)) (h : x.1.storesOk) : t.storesOk := by
  rw [e] at h; exact h

theorem State.storesOk.ite₁ {p : Prop} [Decidable p] (hx : x.1.storesOk) (hy : y.1.storesOk) : (if p then x else y).1.storesOk := by
  split
  · exact hx
  · exact hy

theorem State.storesOk.foldl₁ {f : State × α → β → State × α} {xs : List β} (h : x.1.storesOk)
    (hf : ∀ {x : State × α} {b : β}, x.1.storesOk → (f x b).1.storesOk) : (xs.foldl f x).1.storesOk := by
  induction xs generalizing x with
  | nil => exact h
  | cons b xs ih => exact ih (hf h)

end Pairs

section

variable {s : State}

theorem State.storesOk.foldl {α : Type} {f : State → α → State} {xs : List α} (h : s.storesOk)
    (hf : ∀ {s : State} {a : α}, s.storesOk → (f s a).storesOk) : (xs.foldl f s).storesOk :=
  State.storesOk_foldl f (fun _ _ => hf) xs s h

theorem State.storesOk.withLif {x : Lifetime} (h : s.storesOk) : ({ s with lif := x } : State).storesOk := h.same rfl

theorem State.storesOk.withParts {x : List Partition} (h : s.storesOk) : ({ s with parts := x } : State).storesOk := h.same rfl

/-! Tansy -/

/-- What the recorder hands back keeps flash device 0 and the register words in canonical form. -/
structure TansyOut.storesOk (o : TansyOut) : Prop where
  flash : Sparse.wf 0xFF o.flash = true
  regs : regsWf o.regs = true

theorem spillSlot_wf {f : List (Nat × Byte)} (h : Sparse.wf 0xFF f = true) (slot : Nat) (bytes : List Byte) (part : Nat) :
    Sparse.wf 0xFF (spillSlot f slot bytes part) = true := by
  refine bytesPut_wf _ _ _ _ ?_
  split
  · exact Sparse.wf_filter _ _ _ h
  · exact h

theorem spillMiss_wf {f : List (Nat × Byte)} (h : Sparse.wf 0xFF f = true) (slot : Nat) : Sparse.wf 0xFF (spillMiss f slot) = true := by
  unfold spillMiss
  split
  · exact Sparse.wf_filter _ _ _ h
  · exact h

theorem spillOne_wf {f : List (Nat × Byte)} (h : Sparse.wf 0xFF f = true) (bad : List Nat) (bytes : List Byte) (part tries slot : Nat) :
    Sparse.wf 0xFF (spillOne bad bytes part tries f slot).1 = true := by
  induction tries generalizing f slot with
  | zero => exact spillSlot_wf h ..
  | succ tries ih =>
    unfold spillOne
    split
    · exact ih (spillMiss_wf h slot) _
    · exact spillSlot_wf h ..

theorem spill_wf {f : List (Nat × Byte)} (h : Sparse.wf 0xFF f = true) (bad : List Nat) (next : Nat) (bytes : List Byte) :
    Sparse.wf 0xFF (spill bad f next bytes).1 = true := by
  unfold spill
  split
  · exact spillOne_wf h ..
  · exact spillOne_wf (spillOne_wf h ..) ..

theorem TansyOut.storesOk.record {o : TansyOut} (h : o.storesOk) (boot code : Nat) (cls : EvClass) (time : Nat) (source : W32) (body : List Byte) :
    (o.record boot code cls time source body).storesOk := by
  unfold TansyOut.record
  split
  rename_i tn n bytes _
  extract_lets regs
  have hr : regsWf regs = true := by
    unfold regs
    split
    · exact h.regs
    · exact regAdd_wf _ _ _ h.regs
  split
  · refine ⟨spill_wf h.flash .., ?_⟩
    dsimp only
    split
    · exact hr
    · exact regAdd_wf _ _ _ hr
  · exact ⟨h.flash, hr⟩

theorem TansyOut.storesOk.foldl {α : Type} {f : TansyOut → α → TansyOut} {xs : List α} {o : TansyOut} (h : o.storesOk)
    (hf : ∀ {o : TansyOut} {a : α}, o.storesOk → (f o a).storesOk) : (xs.foldl f o).storesOk := by
  induction xs generalizing o with
  | nil => exact h
  | cons a xs ih => exact ih (hf h)

theorem TansyOut.storesOk.closeWindows {o : TansyOut} (h : o.storesOk) (boot t : Nat) : (o.closeWindows boot t).storesOk := by
  unfold TansyOut.closeWindows
  extract_lets _ _ _ o₁
  have h₁ : o₁.storesOk := h.foldl fun h => h.record ..
  split
  · exact h
  · exact ⟨h₁.flash, h₁.regs⟩

theorem TansyOut.storesOk.take {o : TansyOut} (h : o.storesOk) (boot : Nat) (early : Bool) (e : Event) : (o.take boot early e).storesOk := by
  unfold TansyOut.take
  extract_lets o₁ _ o₂
  have h₁ : o₁.storesOk := by
    unfold o₁
    split
    · exact h
    · exact h.closeWindows ..
  have h₂ : o₂.storesOk := h₁.record ..
  split
  · exact h₂
  split
  · exact ⟨h₂.flash, h₂.regs⟩
  split
  · exact ⟨h₂.flash, h₂.regs⟩
  · exact ⟨h₁.flash, regAdd_wf _ _ _ h₁.regs⟩

theorem TansyOut.storesOk.withTansy {o : TansyOut} (h : o.storesOk) (x : Tansy) : ({ o with tansy := x } : TansyOut).storesOk := ⟨h.flash, h.regs⟩

theorem TansyOut.storesOk.drain {o : TansyOut} (h : o.storesOk) (boot : Nat) (early : Bool) (now : Nat) : (o.drain boot early now).storesOk := by
  unfold TansyOut.drain
  extract_lets o₁ _ o₂ o₃
  have h₁ : o₁.storesOk := h.foldl fun h => h.take ..
  have h₂ : o₂.storesOk := h₁.withTansy _
  have h₃ : o₃.storesOk := h₂.take ..
  split
  · exact h₂
  · exact h₃.withTansy _

theorem State.storesOk.tansyOut (h : s.storesOk) : s.tansyOut.storesOk := ⟨h.flash0, h.regs⟩

theorem State.storesOk.setTansy {o : TansyOut} (h : s.storesOk) (ho : o.storesOk) : (s.setTansy o).storesOk :=
  { h with flash0 := ho.flash, regs := ho.regs }

theorem State.storesOk.event {e : Event} (h : s.storesOk) : (s.event e).storesOk := h.setTansy ((h.tansyOut.drain ..).take ..)

theorem State.storesOk.closeRate (h : s.storesOk) : s.closeRate.storesOk := by
  refine h.setTansy ?_
  split
  · exact h.tansyOut.drain ..
  · exact (h.tansyOut.drain ..).closeWindows ..

theorem State.storesOk.note {st : Status} {args : List Nat} (h : s.storesOk) : (s.note st args).storesOk := h.event

theorem State.storesOk.count {key n : Nat} (h : s.storesOk) : (s.count key n).storesOk := State.storesOk_count _ _ _ h

theorem State.storesOk.twinFound {n : Nat} (h : s.storesOk) : (s.twinFound n).storesOk := h.count

theorem State.storesOk.twinRestored {e : Event} (h : s.storesOk) : (s.twinRestored e).storesOk := h.count.event

theorem State.storesOk.at {t : Nat} (h : s.storesOk) : (s.at t).storesOk := h.same rfl

/-! Ops -/

theorem State.storesOk.drew {n : Nat} (h : s.storesOk) : (s.drew n).storesOk := State.storesOk_drew n h

theorem State.storesOk.writeMem {a : Nat} {bs : List Byte} (h : s.storesOk) : (s.writeMem a bs).storesOk := State.storesOk_writeMem _ _ _ h

theorem State.storesOk.writeAll {ws : List (Nat × List Byte)} (h : s.storesOk) : (s.writeAll ws).storesOk := State.storesOk_writeAll _ _ h

theorem State.storesOk.mark {ws : List Nat} (h : s.storesOk) : (s.mark ws).storesOk := h.same rfl

theorem State.storesOk.setCore {i : Nat} {c : Core} (h : s.storesOk) : (s.setCore i c).storesOk := State.storesOk_setCore _ _ _ h

theorem State.storesOk.setCluster {i : Nat} {c : ClusterSt} (h : s.storesOk) : (s.setCluster i c).storesOk := State.storesOk_setCluster _ _ _ h

theorem regsWf_ite_regAdd {p : Prop} [Decidable p] {m : List (Nat × W64)} (k n : Nat) (h : regsWf m = true) :
    regsWf (if p then regAdd m k n else m) = true := by
  split
  · exact regAdd_wf _ _ _ h
  · exact h

theorem State.storesOk.accrue (h : s.storesOk) : s.accrue.storesOk := by
  refine .ite h { h with regs := ?_ }
  exact regsWf_ite_regAdd _ _ (regsWf_ite_regAdd _ _ (regsWf_ite_regAdd _ _ (regsWf_ite_regAdd _ _ h.regs)))

theorem State.storesOk.takeFingerprint {count : Bool} (h : s.storesOk) : (s.takeFingerprint count).storesOk :=
  { h with regs := regsWf_ite_regAdd _ _ h.regs }

theorem State.storesOk.modPart {p : Nat} {f : Partition → Partition} (h : s.storesOk) : (s.modPart p f).storesOk := h.same rfl

/-! Vetch -/

theorem State.storesOk.setVetch {t : Nat} {v : VetchTile} (h : s.storesOk) : (s.setVetch t v).storesOk := h.same rfl

theorem State.storesOk.vetchDone {tile part o : Nat} {alloc : Bool} {r : VetchResult} (h : s.storesOk) : (s.vetchDone tile part o alloc r).storesOk := by
  unfold State.vetchDone
  extract_lets s₁ s₂ s₃
  have h₁ : s₁.storesOk := .ite h.count h
  have h₂ : s₂.storesOk := .ite h₁.count h₁
  have h₃ : s₃.storesOk := .ite h₂.twinFound h₂
  split
  · exact h₃.count.event
  split
  · exact h₃
  · exact h₃.event

theorem State.storesOk.vetchEach {tile part : Nat} {rs : List (Nat × VetchResult)} (h : s.storesOk) : (s.vetchEach tile part rs).storesOk :=
  h.foldl fun h => h.vetchDone

theorem State.storesOk.vetchFree {tile part o handle : Nat} (h : s.storesOk) : (s.vetchFree tile part o handle).storesOk := h.setVetch.vetchDone

theorem State.storesOk.vetchRemove {tile part o : Nat} (h : s.storesOk) : (s.vetchRemove tile part o).storesOk := h.setVetch.vetchEach

theorem State.storesOk.vetchRefused {tile part pool : Nat} {st : Status} (h : s.storesOk) : (s.vetchRefused tile part pool st).storesOk := h.vetchDone

theorem State.storesOk.forgetHandle {tile handle : Nat} (h : s.storesOk) : (s.forgetHandle tile handle).storesOk := h.same rfl

theorem State.storesOk.vetchRequest {op tile : Nat} {req : W256} {part : Nat} (h : s.storesOk) : (s.vetchRequest op tile req part).storesOk := by
  unfold State.vetchRequest
  extract_lets _ _ _ _ _ _ _ _ s₁ s₂
  have h₁ : s₁.storesOk := h.setVetch.vetchDone
  have h₂ : s₂.storesOk := .ite h₁.forgetHandle h₁
  exact h₂.same rfl

/-! Journal -/

theorem State.storesOk.sendRaw {port : Fin 2} {prio : Nat} {o : Out} (h : s.storesOk) : (s.sendRaw port prio o).storesOk :=
  State.storesOk_sendRaw _ _ _ _ h

theorem State.storesOk.sendUdp {port : Fin 2} {ingest : Bool} {dst : Addr} {o : EthHead → Out} (h : s.storesOk) :
    (s.sendUdp port ingest dst o).storesOk := State.storesOk_sendUdp _ _ _ _ _ h

theorem State.storesOk.setSession {i : Nat} {x : Session} (h : s.storesOk) : (s.setSession i x).storesOk := State.storesOk_setSession _ _ _ h

theorem State.storesOk.sendFrame {i : Nat} {f : TxFrame} (h : s.storesOk) : (s.sendFrame i f).storesOk := State.storesOk_sendFrame _ _ _ h

theorem State.storesOk.sendAck {i : Nat} (h : s.storesOk) : (s.sendAck i).storesOk := h.sendFrame

theorem State.storesOk.sendS {i type flags : Nat} {reqId : W64} {status : Nat} {body : List Byte} (h : s.storesOk) :
    (s.sendS i type flags reqId status body).storesOk := State.storesOk_sendS _ _ _ _ _ _ _ h

theorem State.storesOk.flushWaiting {i : Nat} (h : s.storesOk) : (s.flushWaiting i).storesOk := h.setSession.foldl fun h => h.sendS

theorem State.storesOk.respond {i : Nat} {reqId : W64} {status : Status} {body : List Byte} (h : s.storesOk) :
    (s.respond i reqId status body).storesOk := State.storesOk_respond _ _ _ _ _ h

theorem State.storesOk.jnlCode {c : Cmd} {kind : EntryKind} {code summary : Nat} (h : s.storesOk) : (s.jnlCode c kind code summary).storesOk := h.same rfl

theorem State.storesOk.jnlEntry {c : Cmd} {kind : EntryKind} {status : Status} {summary : Nat} (h : s.storesOk) :
    (s.jnlEntry c kind status summary).storesOk := State.storesOk_jnlEntry _ _ _ _ _ h

theorem State.storesOk.jnlRead {jseq : Nat} (h : s.storesOk) : (s.jnlRead jseq).1.storesOk := by
  unfold State.jnlRead
  split
  · exact h
  · exact ((h.same (by rfl)).count.twinFound.foldl fun h => h.twinRestored).paired
  · exact h
  · exact h.twinFound.paired

theorem State.storesOk.checkRing (h : s.storesOk) : s.checkRing.storesOk := h.foldl fun h => h.jnlRead

theorem State.storesOk.setQueue {c : Cmd} {q : CmdQueue} (h : s.storesOk) : (s.setQueue c q).storesOk := State.storesOk_setQueue _ _ _ h

theorem State.storesOk.finish {c : Cmd} {kind : EntryKind} {status : Status} {summary : Nat} {rec : List Byte} (h : s.storesOk) :
    (s.finish c kind status summary rec).storesOk := State.storesOk_finish _ _ _ _ _ _ h

theorem State.storesOk.complete {c : Cmd} {status : Status} (h : s.storesOk) : (s.complete c status).storesOk := h.finish

theorem State.storesOk.abandon {c : Cmd} (h : s.storesOk) : (s.abandon c).storesOk := h.jnlEntry.setQueue.same rfl

theorem State.storesOk.runQueued {family op jseq : Nat} {f : Cmd → State → State} (h : s.storesOk)
    (hf : ∀ {c : Cmd} {t : State}, t.storesOk → (f c t).storesOk) : (s.runQueued family op jseq f).storesOk :=
  State.storesOk_runQueued _ _ _ _ _ (fun _ _ => hf) h

/-! Records -/

theorem State.storesOk.flash {copy : Bool} (h : s.storesOk) : Sparse.wf 0xFF (s.flash copy) = true := by
  cases copy
  · exact h.flash0
  · exact h.flash1

theorem State.storesOk.setFlash {copy : Bool} {f : List (Nat × Byte)} (h : s.storesOk) (hf : Sparse.wf 0xFF f = true) :
    (s.setFlash copy f).storesOk := .ite { h with flash1 := hf } { h with flash0 := hf }

theorem State.storesOk.eraseFlash {copy : Bool} {off len : Nat} (h : s.storesOk) :
    (s.setFlash copy (flashErase (s.flash copy) off len)).storesOk := h.setFlash (Sparse.wf_filter _ _ _ h.flash)

theorem State.storesOk.putFlash {copy : Bool} {off len : Nat} {bs : List Byte} (h : s.storesOk) : (s.putFlash copy off len bs).storesOk :=
  h.setFlash (bytesPut_wf _ _ _ _ (Sparse.wf_filter _ _ _ h.flash))

theorem regsWf_foldl {α : Type} {f : List (Nat × W64) → α → List (Nat × W64)} {xs : List α} {m : List (Nat × W64)} (h : regsWf m = true)
    (hf : ∀ {m : List (Nat × W64)} {a : α}, regsWf m = true → regsWf (f m a) = true) : regsWf (xs.foldl f m) = true := by
  induction xs generalizing m with
  | nil => exact h
  | cons a xs ih => exact ih (hf h)

theorem regsWf_filter {m : List (Nat × W64)} (p : Nat × W64 → Bool) (h : regsWf m = true) : regsWf (m.filter p) = true := by
  simp only [regsWf, Bool.and_eq_true, List.all_eq_true, decide_eq_true_eq] at h ⊢
  exact ⟨fun e he => h.1 e (List.mem_filter.mp he).1, h.2.sublist List.filter_sublist⟩

theorem applyCfg_wf {m : List (Nat × W64)} (r : Option CfgRec) (h : regsWf m = true) : regsWf (applyCfg m r) = true := by
  unfold applyCfg
  cases r with
  | none => exact regsWf_filter _ h
  | some r =>
    refine regsWf_foldl (regsWf_filter _ h) fun h => ?_
    split
    · exact regSet_wf _ _ _ h
    · exact h

/-! Links -/

theorem State.storesOk.setPort {i : Nat} {p : Port} (h : s.storesOk) : (s.setPort i p).storesOk := h.same rfl

theorem State.storesOk.setAxis {a : Nat} {x : Axis} (h : s.storesOk) : (s.setAxis a x).storesOk := h.same rfl

theorem State.storesOk.portEvent {st : Status} {i : Nat} {args : List Nat} (h : s.storesOk) : (s.portEvent st i args).storesOk := h.event

theorem State.storesOk.resend {i : Nat} (h : s.storesOk) : (s.resend i).storesOk := h.same rfl

theorem State.storesOk.addRetry {ns : Nat} (h : s.storesOk) : (s.addRetry ns).storesOk := { h with regs := regAdd_wf _ _ _ h.regs }

theorem State.storesOk.countRetry {i : Nat} (h : s.storesOk) : (s.countRetry i).storesOk := by
  unfold State.countRetry
  extract_lets
  split
  · exact h.setPort.addRetry
  · exact h

theorem State.storesOk.startRetrain {i : Nat} (h : s.storesOk) : (s.startRetrain i).storesOk := h.countRetry.setPort.count.portEvent

theorem State.storesOk.releaseHold {mask : Nat} (h : s.storesOk) : (s.releaseHold mask).storesOk := by
  unfold State.releaseHold
  exact h.foldl fun h => (.ite (h.setAxis.foldl fun h => (.ite h.setPort h)) h)

theorem State.storesOk.closeAxis {a : Nat} (h : s.storesOk) : (s.closeAxis a).storesOk := by
  refine h.accrue.setAxis.foldl fun h => ?_
  split
  · exact h
  · exact h
  · exact h
  · exact h.countRetry.setPort

theorem State.storesOk.endTraining {i : Nat} {tr : PortTrain} (h : s.storesOk) : (s.endTraining i tr).state.storesOk := by
  unfold State.endTraining
  extract_lets
  split
  · exact h.setPort
  split
  · exact h.setPort
  split
  · exact State.storesOk.portEvent (s := State.setPort _ _ _) (h.same rfl)
  · exact State.storesOk.resend (s := State.setPort _ _ _) (h.same rfl)

/-! Immediate -/

/-- The state that an immediate command answers with, if it answers, has its stores in canonical form. -/
def ImmOut.storesOk : ImmOut → Prop
  | .error _ => True
  | .ok (_, _, t) => t.storesOk

theorem State.storesOk.immediate {family op sess : Nat} {reqId : W64} {r : ImmOut} (h : s.storesOk) (hr : r.storesOk) :
    (s.immediate family op sess reqId r).storesOk := by
  unfold State.immediate
  split
  · exact h.count.respond
  · have ht : State.storesOk _ := hr
    exact .ite ht.respond (ht.same (by rfl)).respond

theorem State.storesOk.runImmediate {family op sess : Nat} {reqId : W64} {loader : Bool} {f : State → ImmOut} (h : s.storesOk)
    (hf : (f s).storesOk) : (s.runImmediate family op sess reqId loader f).storesOk := by
  unfold State.runImmediate
  refine .ite (h.immediate ?_) h
  split
  · exact trivial
  · exact hf

theorem clearRc_wf {m : List (Nat × W64)} (block : Nat) (offs : List Nat) (h : regsWf m = true) : regsWf (clearRc m block offs) = true := by
  refine regsWf_foldl h fun h => ?_
  split
  · exact regSet_wf _ _ _ h
  · exact h

theorem liveWrite_wf {m : List (Nat × W64)} (block off v : Nat) (h : regsWf m = true) : regsWf (liveWrite m block off v).2 = true := by
  unfold liveWrite
  split
  · split
    · exact regSet_wf _ _ _ h
    · exact h
  · exact h

theorem State.storesOk.beforeWrite {block : Nat} (h : s.storesOk) : (s.beforeWrite block).storesOk := by
  unfold State.beforeWrite
  split
  · exact h.accrue
  split
  · exact h.closeRate
  · exact h

theorem State.storesOk.regRead {params : List Byte} (h : s.storesOk) : (s.regRead params).storesOk := by
  unfold State.regRead
  extract_lets
  split
  · exact trivial
  split
  · exact trivial
  · exact { h with regs := clearRc_wf _ _ h.regs }

theorem State.storesOk.regWrite {params : List Byte} (h : s.storesOk) : (s.regWrite params).storesOk := by
  unfold State.regWrite
  extract_lets _ _ _ _ s₁ regs
  have h₁ : s₁.storesOk := h.beforeWrite
  have hr : regsWf regs = true := regsWf_foldl h₁.regs fun h => liveWrite_wf _ _ _ h
  have h₂ : ({ s₁ with regs } : State).storesOk := { h₁ with regs := hr }
  split
  · exact trivial
  split
  · exact trivial
  split
  · exact trivial
  split
  · exact trivial
  · exact h₂.releaseHold

theorem State.storesOk.endSession {i : Nat} (h : s.storesOk) : (s.endSession i).storesOk := h.setSession

theorem State.storesOk.eraStart (h : s.storesOk) : s.eraStart.1.storesOk := by
  unfold State.eraStart
  split
  · exact h.jnlRead
  · exact h

theorem State.storesOk.jnlReadMany {n j : Nat} (h : s.storesOk) : (State.jnlReadMany n s j).1.storesOk := by
  induction n generalizing s j with
  | zero => exact h
  | succ n ih => exact ih h.jnlRead

theorem State.storesOk.jnlReadCmd {params : List Byte} (h : s.storesOk) : (s.jnlReadCmd params).storesOk := by
  unfold State.jnlReadCmd
  extract_lets
  generalize s.jnl.first = first
  split
  · exact trivial
  split
  · split
    rename_i e
    exact .of_pair e h.eraStart
  split
  · exact h
  split
  rename_i e
  exact .of_pair e h.jnlReadMany

theorem State.storesOk.jnlOutstanding {params : List Byte} (h : s.storesOk) : (s.jnlOutstanding params).storesOk := by
  unfold State.jnlOutstanding
  split
  · exact trivial
  · exact h

theorem State.storesOk.jnlResult {params : List Byte} (h : s.storesOk) : (s.jnlResult params).storesOk := by
  unfold State.jnlResult
  split
  · exact trivial
  split
  · exact h
  · exact h

theorem State.storesOk.sessList {params : List Byte} (h : s.storesOk) : (s.sessList params).storesOk := by
  unfold State.sessList
  split
  · exact trivial
  · exact h

theorem State.storesOk.sessEnd {sess : Nat} {params : List Byte} (h : s.storesOk) : (s.sessEnd sess params).storesOk := by
  unfold State.sessEnd
  extract_lets
  split
  · exact trivial
  split
  · exact h.sendS.endSession
  · exact h

theorem State.storesOk.attest {params : List Byte} (h : s.storesOk) : (s.attest params).storesOk := by
  unfold State.attest
  split
  · exact trivial
  · exact h.drew.count

theorem State.storesOk.setCursor {i : Nat} {spill : Bool} {v : Nat} (h : s.storesOk) : (s.setCursor i spill v).storesOk := h.setSession

theorem State.storesOk.releaseAlerts (h : s.storesOk) : s.releaseAlerts.storesOk := h.same rfl

theorem State.storesOk.evtRead {sess : Nat} {params : List Byte} (h : s.storesOk) : (s.evtRead sess params).storesOk := by
  unfold State.evtRead
  extract_lets _ _ _ _ _ _ _ s₁ s₂
  have h₁ : s₁.storesOk := h.setCursor
  have h₂ : s₂.storesOk := .ite h₁ h₁.releaseAlerts
  split
  · exact trivial
  split
  · exact h
  · exact State.storesOk.ite h₂ (h₂.same rfl)

theorem State.storesOk.evtCursor {sess : Nat} {params : List Byte} (h : s.storesOk) : (s.evtCursor sess params).storesOk := by
  unfold State.evtCursor
  split
  · exact trivial
  extract_lets
  split
  extract_lets
  split
  · exact trivial
  split
  · exact trivial
  · exact h.setCursor

/-! Update -/

theorem State.storesOk.writePointer {slot : Bool} {ver : Nat} (h : s.storesOk) : (s.writePointer slot ver).storesOk := h.putFlash.putFlash

theorem State.storesOk.writeFloor {gen floor : Nat} (h : s.storesOk) : (s.writeFloor gen floor).storesOk := h.putFlash.putFlash

theorem State.storesOk.updBegin {slot : Nat} {params : List Byte} (h : s.storesOk) : (s.updBegin slot params).1.storesOk := by
  unfold State.updBegin
  split
  · exact h
  split
  · exact h.eraseFlash.same rfl
  · exact h

theorem flashWrites_wf {f : List (Nat × Byte)} (a : Nat) (cells : List (Nat × Byte)) (h : Sparse.wf 0xFF f = true) :
    Sparse.wf 0xFF (cells.foldl (fun f c => flashWrite f (a + c.1) [c.2]) f) = true := by
  induction cells generalizing f with
  | nil => exact h
  | cons c cells ih => exact ih (bytesPut_wf _ _ _ _ h)

theorem State.storesOk.updData {slot : Nat} {params : List Byte} {back : ReadBack} (h : s.storesOk) : (s.updData slot params back).1.storesOk := by
  unfold State.updData
  extract_lets
  split
  split
  · exact h
  split
  · exact h
  split
  · exact h
  split
  · exact h
  · exact (h.setFlash (flashWrites_wf _ _ h.flash)).same rfl

theorem State.storesOk.updActivate {slot : Nat} {params : List Byte} (h : s.storesOk) : (s.updActivate slot params).1.storesOk := by
  unfold State.updActivate
  extract_lets _ _ _ _ _ _ _ s₁
  have h₁ : s₁.storesOk := .ite h (h.setFlash (bytesPut_wf _ _ _ _ h.flash))
  split
  · exact h
  split
  · exact h
  split
  · exact h
  split
  · exact h
  split
  · exact h
  split
  · exact h
  split
  · exact h.same rfl
  split
  · exact h₁.writePointer.note.count.same rfl
  · exact h₁

theorem State.storesOk.updAbort {slot : Nat} (h : s.storesOk) : (s.updAbort slot).1.storesOk := by
  unfold State.updAbort
  extract_lets
  split
  · exact h
  split
  · exact h
  · exact h.eraseFlash.same rfl

theorem State.storesOk.finishWith {c : Cmd} {r : State × Status} (h : r.1.storesOk) : (State.finishWith c r).storesOk := h.complete

theorem State.storesOk.cfgStage {params : List Byte} (h : s.storesOk) : (s.cfgStage params).1.storesOk := by
  unfold State.cfgStage
  split
  · exact (h.eraseFlash (copy := false)).paired
  split
  · exact h.putFlash.paired
  · exact h

/-! Reset -/

theorem State.storesOk.abandonAll {cs : List Cmd} (h : s.storesOk) : (s.abandonAll cs).storesOk := h.foldl fun h => h.abandon

theorem State.storesOk.powerLoss (h : s.storesOk) : s.powerLoss.storesOk := State.storesOk_powerLoss _ h

theorem State.storesOk.coldReset {cause : Nat} (h : s.storesOk) : (s.coldReset cause).storesOk := by
  have h₁ : (s.abandonAll s.allCmds).storesOk := h.abandonAll
  exact ⟨rfl, h₁.flash0, h₁.flash1, rfl, rfl, rfl⟩

theorem State.storesOk.rewindStreams (h : s.storesOk) : s.rewindStreams.storesOk := by
  refine h.foldl fun {s _} h => ?_
  split
  split
  · extract_lets s₁
    have h₁ : s₁.storesOk := .ite h h.vetchFree
    exact h₁.same rfl
  · exact h

theorem State.storesOk.warmReset {cause : Nat} (h : s.storesOk) : (s.warmReset cause).storesOk := by
  have h₁ : s.rewindStreams.storesOk := h.rewindStreams
  exact ⟨Memory.wf_filter _ _ h₁.mem, h₁.flash0, h₁.flash1, rfl, rfl, rfl⟩

theorem State.storesOk.requestWarm {cause : Nat} (h : s.storesOk) : (s.requestWarm cause).storesOk := by
  unfold State.requestWarm
  split
  · exact h.coldReset
  · exact h.warmReset

/-! PinCmds -/

theorem State.storesOk.atWall {t : Nat} (h : s.storesOk) : (s.atWall t).storesOk := h.same rfl

theorem State.storesOk.powerUp (h : s.storesOk) : s.powerUp.storesOk := h.same rfl

theorem State.storesOk.leakTrip (h : s.storesOk) : s.leakTrip.storesOk := by
  unfold State.leakTrip
  extract_lets s₁
  have h₁ : s₁.storesOk := h.note.powerLoss
  exact h₁.same rfl

/-! Smb -/

theorem State.storesOk.emit {o : Out} (h : s.storesOk) : (s.emit o).storesOk := h.same rfl

theorem State.storesOk.smbRead {addr : BitVec 7} {cmd : Byte} {bs : List Byte} (h : s.storesOk) : (s.smbRead addr cmd bs).storesOk := h.emit

theorem State.storesOk.smbRefuse (h : s.storesOk) : s.smbRefuse.storesOk := (h.same (by rfl)).emit

/-! TestPort -/

theorem State.storesOk.loadIr {ir : TapIr} {bits : List Bool} (h : s.storesOk) : (s.loadIr ir bits).storesOk := h.same rfl

theorem State.storesOk.tapBypass (h : s.storesOk) : s.tapBypass.storesOk := h.loadIr

theorem State.storesOk.extest {ir : TapIr} (h : s.storesOk) : (s.extest ir).storesOk := by
  unfold State.extest
  split
  · exact h
  split
  · exact h.tapBypass
  · exact h.same rfl

/-! EthNet -/

theorem State.storesOk.setEth {p : Fin 2} {e : EthPort} (h : s.storesOk) : (s.setEth p e).storesOk := h.same rfl

theorem State.storesOk.sendPfc {p : Fin 2} {stop : Bool} (h : s.storesOk) : (s.sendPfc p stop).storesOk :=
  { h with regs := regAdd_wf _ _ _ h.regs }

theorem State.storesOk.flow {f : Frame} (h : s.storesOk) : (s.flow f).storesOk := by
  unfold State.flow
  extract_lets
  split
  · exact h.setEth.sendPfc
  · exact h.setEth

theorem State.storesOk.drainPort {p : Fin 2} {ns : Nat} (h : s.storesOk) : (s.drainPort p ns).storesOk :=
  { h with regs := regsWf_ite_regAdd _ _ h.regs }

theorem State.storesOk.countFrame {f : Frame} (h : s.storesOk) : (s.countFrame f).storesOk := by
  unfold State.countFrame
  extract_lets r r₁ r₂
  have h₁ : regsWf r₁ = true := regAdd_wf _ _ _ (regAdd_wf _ _ _ h.regs)
  have h₂ : regsWf r₂ = true := by
    unfold r₂
    split
    · exact regAdd_wf _ _ _ h₁
    · exact regAdd_wf _ _ _ h₁
  exact { h with regs := regsWf_ite_regAdd _ _ h₂ }

theorem State.storesOk.dropFrame {f : Frame} (h : s.storesOk) : (s.dropFrame f).storesOk := h.count

theorem State.storesOk.frameIn {f : Frame} {portReg : Nat} {k : State → State} (h : s.storesOk) (hk : ∀ {t : State}, t.storesOk → (k t).storesOk) :
    (s.frameIn f portReg k).storesOk := by
  have h₁ : ((s.flow f).countFrame f).storesOk := h.flow.countFrame
  exact .ite h (.ite h₁ (.ite (hk h₁) h₁.dropFrame))

theorem State.storesOk.flushPaused {p : Fin 2} (h : s.storesOk) : (s.flushPaused p).storesOk := { h with regs := regAdd_wf _ _ _ h.regs }

theorem State.storesOk.resolved {port : Fin 2} {hop : Addr} {mac : BitVec 48} (h : s.storesOk) : (s.resolved port hop mac).storesOk :=
  h.setEth.foldl fun h => h.sendRaw

theorem State.storesOk.selectApp {p : Fin 2} {rate : Nat} (h : s.storesOk) : (s.selectApp p rate).storesOk := h.setEth

theorem State.storesOk.ethLink {p : Fin 2} {up : Bool} (h : s.storesOk) : (s.ethLink p up).storesOk := by
  unfold State.ethLink
  extract_lets
  split
  · exact h
  · exact h.setEth.note

/-! Campion -/

theorem State.storesOk.sendUnauth {f : Frame} {type : Nat} {status : Status} {body : List Byte}
    (h : s.storesOk) : (s.sendUnauth f type status body).1.storesOk := by
  unfold State.sendUnauth
  extract_lets
  split
  · exact h
  · exact (h.same (by rfl)).sendUdp.paired

theorem State.storesOk.ctrlIn {type : Nat} {f : Frame} {t : Nat} {k : State → CtrlFrame → State} (h : s.storesOk)
    (hk : ∀ {u : State} {c : CtrlFrame}, u.storesOk → (k u c).storesOk) : (s.ctrlIn type f t k).storesOk := by
  refine h.at.frameIn fun h => ?_
  split
  · exact .ite (hk h) h.dropFrame
  · exact h.dropFrame

theorem State.storesOk.takeAck {i ack : Nat} (h : s.storesOk) : (s.takeAck i ack).storesOk := by
  unfold State.takeAck
  extract_lets
  split
  · exact h.setSession.flushWaiting
  · exact h

theorem State.storesOk.authIn {type : Nat} {f : Frame} {t : Nat} {k : State → CtrlFrame → State} (h : s.storesOk)
    (hk : ∀ {u : State} {c : CtrlFrame}, u.storesOk → (k u c).storesOk) : (s.authIn type f t k).storesOk := by
  refine h.ctrlIn fun h => ?_
  extract_lets
  split
  · split
    rename_i u _ e
    have hu : u.storesOk := .of_pair e h.sendUnauth
    exact .ite hu.count hu
  · exact .ite h.count (hk h.setSession.takeAck)

theorem State.storesOk.ackIfDue {i : Nat} (h : s.storesOk) : (s.ackIfDue i).storesOk := by
  unfold State.ackIfDue
  extract_lets
  split
  · exact h.sendAck
  · exact h

theorem State.storesOk.immResult {family op sess : Nat} {params : List Byte} (h : s.storesOk) : (s.immResult family op sess params).storesOk := by
  unfold State.immResult
  split
  · exact h.sessList
  · exact h.sessEnd
  · exact h.attest
  · exact h.regRead
  · exact h.regWrite
  · exact h.jnlReadCmd
  · exact h.jnlOutstanding
  · exact h.jnlResult
  · exact h.evtRead
  · exact h.evtCursor
  · exact trivial

theorem State.storesOk.acceptQueued {sess : Nat} {reqId : W64} {hdr : CmdHdr} {mgmt : Bool} {params : List Byte}
    (h : s.storesOk) : (s.acceptQueued sess reqId hdr mgmt params).storesOk :=
  (h.setQueue.same (by rfl)).respond

theorem State.storesOk.loaderUpdate {sess : Nat} {reqId : W64} {hdr : CmdHdr} {params : List Byte} (h : s.storesOk) :
    (s.loaderUpdate sess reqId hdr params).storesOk := by
  unfold State.loaderUpdate
  extract_lets
  split
  rename_i s₁ _ e
  have h₁ : s₁.storesOk := by
    refine .of_pair e ?_
    split
    · exact h.updBegin
    · exact h.updData
    · exact h.updActivate
    · exact h.updAbort
  extract_lets s₂ s₃
  have h₂ : s₂.storesOk := h₁.respond
  have h₃ : s₃.storesOk := .ite h₂.sendS h₂
  exact .ite h₃.coldReset h₃

theorem State.storesOk.loaderCommand {sess : Nat} {reqId : W64} {bs : List Byte} (h : s.storesOk) : (s.loaderCommand sess reqId bs).storesOk := by
  unfold State.loaderCommand
  extract_lets
  split
  · exact h.respond
  · exact .ite h.respond (.ite h.loaderUpdate (.ite (h.immediate h.immResult) h.respond))

theorem State.storesOk.acceptCommand {sess : Nat} {reqId : W64} {bs : List Byte} (h : s.storesOk) : (s.acceptCommand sess reqId bs).storesOk := by
  unfold State.acceptCommand
  refine .ite h.loaderCommand ?_
  extract_lets s₁ s₂ hdr params r s₃
  have h₁ : s₁.storesOk := h.checkRing
  have h₂ : s₂.storesOk := h₁.count
  have h₃ : s₃.storesOk := h₁.immediate h₁.immResult
  clear_value s₁ s₂ s₃ r
  split
  · exact State.storesOk.respond (.ite h₂.count h₂)
  split
  · split
    · exact .ite h₃.sendS h₃
    · exact h₃
  · exact h₁.acceptQueued
  · exact h₁

theorem State.storesOk.deliverCommand {i : Nat} {f : RxFrame} (h : s.storesOk) : (s.deliverCommand i f).storesOk := by
  unfold State.deliverCommand
  extract_lets
  split
  · exact h.setSession
  split
  · exact h.setSession.respond
  split
  · exact h.setSession
  · exact h.setSession.acceptCommand

theorem State.storesOk.recordTime {utc : Nat} (h : s.storesOk) : (s.recordTime utc).storesOk := h.note.same rfl

theorem State.storesOk.deliver {i : Nat} {f : RxFrame} (h : s.storesOk) : (s.deliver i f).storesOk := by
  unfold State.deliver
  split
  · exact h.sendAck.endSession
  split
  · exact h.recordTime
  split
  · exact h.deliverCommand
  · exact h

theorem State.storesOk.deliverAll {n i : Nat} (h : s.storesOk) : (State.deliverAll n s i).storesOk := by
  induction n generalizing s with
  | zero => exact h
  | succ n ih =>
    unfold State.deliverAll
    extract_lets
    split
    · exact h
    · exact ih h.setSession.deliver

theorem State.storesOk.sequence {i : Nat} {f : RxFrame} (h : s.storesOk) : (s.sequence i f).storesOk := by
  unfold State.sequence
  extract_lets
  split
  · exact h.sendAck
  split
  · exact h
  · exact h.setSession.deliverAll.ackIfDue

theorem State.storesOk.numberedIn {type : Nat} {f : Frame} {t : Nat} (h : s.storesOk) : (s.numberedIn type f t).storesOk :=
  h.authIn fun h => h.sequence

theorem State.storesOk.setStream {j : Nat} {x : Stream} (h : s.storesOk) : (s.setStream j x).storesOk := h.same rfl

theorem State.storesOk.sendCredit {j : Nat} {limit : Option Nat} (h : s.storesOk) : (s.sendCredit j limit).storesOk := by
  unfold State.sendCredit
  split
  · exact h
  · exact h.setStream.sendUdp

theorem State.storesOk.refuseIngest {j : Nat} {x : Stream} {reg : Nat} (h : s.storesOk) : (s.refuseIngest j x reg).storesOk := by
  unfold State.refuseIngest
  extract_lets
  split
  · exact h.setStream.count.sendCredit
  · exact h.setStream.count

theorem State.storesOk.ingestFrame {j : Nat} {x : Stream} {cur : Nat × Nat × Nat × Bool} {body : List Byte} {fin : Bool}
    (h : s.storesOk) : (s.ingestFrame j x cur body fin).storesOk := by
  unfold State.ingestFrame
  split
  · split
    · extract_lets _ s₁ s₂ _ _ _ s₃ _ s₄ s₅
      have h₁ : s₁.storesOk := .ite h h.writeMem
      have h₂ : s₂.storesOk := .ite h₁.vetchFree h₁
      have h₃ : s₃.storesOk := h₂.setStream
      have h₄ : s₄.storesOk := h₂.writeMem
      have h₅ : s₅.storesOk := .ite h₄.event h₄
      split
      · split
        · exact h₃.sendCredit
        · exact h₃
      · exact h₅.setStream.sendCredit

/-! Spares -/

theorem State.storesOk.mapRails {f : Nat → Rail → Rail} (h : s.storesOk) : (s.mapRails f).storesOk := h.same rfl

theorem State.storesOk.mapIslands {f : Nat → Island → Island} (h : s.storesOk) : (s.mapIslands f).storesOk := h.same rfl

theorem State.storesOk.modIsland {i : Nat} {f : Island → Island} (h : s.storesOk) : (s.modIsland i f).storesOk := h.same rfl

theorem State.storesOk.modRail {t : Nat} {f : Rail → Rail} (h : s.storesOk) : (s.modRail t f).storesOk := h.same rfl

theorem State.storesOk.spareChanged (h : s.storesOk) : s.spareChanged.storesOk := h.same rfl

theorem State.storesOk.substituted {logical old new : W32} {tile : Nat} (h : s.storesOk) : (s.substituted logical old new tile).storesOk :=
  h.event.count

theorem State.storesOk.noteSubst (h : s.storesOk) : s.noteSubst.storesOk := h.same rfl

theorem State.storesOk.retired {tile : Nat} {unit : W32} (h : s.storesOk) : (s.retired tile unit).storesOk := h.event

theorem State.storesOk.fillerBack {cores : Nat → Bool} (h : s.storesOk) : (s.fillerBack cores).storesOk := h.same rfl

theorem State.storesOk.freshCluster {i : Nat} (h : s.storesOk) : (s.freshCluster i).storesOk :=
  { h with mem := Memory.wf_filter _ _ h.mem, cores := Sparse.wf_filter _ _ _ h.cores, clusters := Sparse.wf_set _ _ _ _ h.clusters }

theorem State.storesOk.freshCore {i : Nat} (h : s.storesOk) : (s.freshCore i).storesOk := { h with cores := Sparse.wf_set _ _ _ _ h.cores }

theorem State.storesOk.coreFault {i : Nat} (h : s.storesOk) : (s.coreFault i).1.storesOk := by
  unfold State.coreFault
  split
  · exact h
  extract_lets
  split
  · extract_lets s₁ s₂
    have h₁ : s₁.storesOk := (h.same (by rfl)).spareChanged
    have h₂ : s₂.storesOk := .ite h₁.retired h₁
    split
    · exact h₂.freshCore.substituted.noteSubst.paired
    · exact h₂.freshCluster.substituted.paired
    · exact h₂.freshCore.paired

theorem State.storesOk.clusterFault {i : Nat} (h : s.storesOk) : (s.clusterFault i).1.storesOk := by
  unfold State.clusterFault
  extract_lets
  split
  · extract_lets s₁ s₂
    have h₁ : s₁.storesOk := (h.same (by rfl)).spareChanged
    have h₂ : s₂.storesOk := .ite h₁.retired h₁
    split
    · exact h₂.freshCluster.paired
    · exact h₂.freshCluster.substituted.paired

theorem State.storesOk.failStep {filler : Bool} {st : Status} (h : s.storesOk) : (s.failStep filler st).storesOk := by
  unfold State.failStep
  extract_lets
  split
  · exact h.same rfl
  · exact h.same rfl

theorem State.storesOk.logItem {r : StepRun} {i : Nat} {st : Status} {c : Core} (h : s.storesOk) : (s.logItem r i st c).storesOk := by
  unfold State.logItem
  extract_lets
  split
  · exact h
  · exact h.writeMem

theorem State.storesOk.logTile {filler : Bool} {t : Nat} {st : Status} (h : s.storesOk) : (s.logTile filler t st).storesOk := by
  unfold State.logTile
  split
  · exact h
  · exact h.foldl fun h => .ite h.logItem h

theorem State.storesOk.endTile {t : Nat} {st : Status} (h : s.storesOk) : (s.endTile t st).storesOk := by
  unfold State.endTile
  extract_lets s₁ _ s₂
  have h₁ : s₁.storesOk := h.logTile.logTile
  have h₂ : s₂.storesOk :=
    { h₁ with mem := Memory.wf_filter _ _ h₁.mem, cores := Sparse.wf_filter _ _ _ h₁.cores, clusters := Sparse.wf_filter _ _ _ h₁.clusters }
  exact h₂.failStep.failStep

theorem State.storesOk.moveJournal {t : Nat} (h : s.storesOk) : (s.moveJournal t).storesOk := by
  unfold State.moveJournal
  extract_lets
  split
  · split
    · exact h.same rfl
    · exact h.same rfl
  · split
    · split
      · exact h.same rfl
      · exact h.same rfl
    · exact h

theorem State.storesOk.loseTile {t : Nat} (h : s.storesOk) : (s.loseTile t).storesOk := { h with mem := Memory.wf_filter _ _ h.mem }

theorem State.storesOk.isolateTile {t : Nat} (h : s.storesOk) : (s.isolateTile t).storesOk := by
  unfold State.isolateTile
  split
  · exact h
  extract_lets s₁ _ _ s₂ s₃ _ s₄
  have h₁ : s₁.storesOk := h.loseTile
  have h₂ : s₂.storesOk := h₁.same rfl
  have h₃ : s₃.storesOk := h₂.moveJournal.spareChanged
  have h₄ : s₄.storesOk := .ite h₃.closeAxis h₃
  exact h₄.event.endTile

theorem State.storesOk.isolateIfEmpty {t : Nat} (h : s.storesOk) : (s.isolateIfEmpty t).storesOk := by
  unfold State.isolateIfEmpty
  split
  · exact h.isolateTile
  · exact h

theorem State.storesOk.corrected {a : Nat} (h : s.storesOk) : (s.corrected a).storesOk := by
  unfold State.corrected
  split
  · extract_lets
    split
    · exact h.event.same rfl
    · exact h.event.same rfl

theorem State.storesOk.uncorrectable {a : Nat} (h : s.storesOk) : (s.uncorrectable a).storesOk := by
  unfold State.uncorrectable
  extract_lets s₁
  have h₁ : s₁.storesOk := h.mark
  split
  · exact h₁.same rfl
  · exact h₁

theorem State.storesOk.writeLifetimeOnce {ok : Bool} (h : s.storesOk) : (s.writeLifetimeOnce ok).storesOk := by
  unfold State.writeLifetimeOnce
  extract_lets _ s₁ base b
  have hf : Sparse.wf 0xFF (flashErase s₁.flash1 base 0x20000) = true := Sparse.wf_filter _ _ _ h.flash1
  have h₁ : ({ s₁ with flash1 := flashErase s₁.flash1 base 0x20000 } : State).storesOk := { h with flash1 := hf }
  split
  · exact { h with flash1 := bytesPut_wf _ _ _ _ hf }
  · exact h₁.count.note

theorem State.storesOk.writeLifetime {n : Nat} (h : s.storesOk) : (State.writeLifetime n s).storesOk := by
  induction n generalizing s with
  | zero => exact h.writeLifetimeOnce
  | succ n ih => exact ih h.writeLifetimeOnce

theorem State.storesOk.repairEvents {n : Nat} (h : s.storesOk) : (s.repairEvents n).storesOk := h.foldl fun h => h.note

theorem State.storesOk.swapTables (h : s.storesOk) : s.swapTables.storesOk := by
  unfold State.swapTables
  extract_lets _ s₁ s₂ s₃ _ s₄ s₅ _ s₆
  have h₁ : s₁.storesOk := h.same rfl
  have h₂ : s₂.storesOk := h₁.note
  have h₃ : s₃.storesOk := h₂.writeLifetime
  have h₄ : s₄.storesOk := .ite (.ite (h₃.same rfl) h₂) h
  have h₅ : s₅.storesOk := h₄.repairEvents
  have h₆ : s₆.storesOk := h₅.same rfl
  split
  · exact h₆.note
  · exact h₄

/-! StartUp -/

theorem State.storesOk.haltWith {st : Status} {args : List Nat} (h : s.storesOk) : (s.haltWith st args).storesOk := by
  unfold State.haltWith
  extract_lets s₁ s₂ _ s₃
  have h₁ : s₁.storesOk := h.foldl fun h => h.closeAxis
  have h₂ : s₂.storesOk := h₁.mapRails
  have h₃ : s₃.storesOk := h₂.event
  exact h₃.updated (by with_reducible rfl)

theorem State.storesOk.halt {st : Status} (h : s.storesOk) : (s.halt st).storesOk := h.haltWith

/-- Start-up, halted or not, leaves the stores in canonical form. -/
def Started.storesOk : Started → Prop
  | .error t => t.storesOk
  | .ok t => t.storesOk

theorem State.storesOk.stepDone {n : Nat} (h : s.storesOk) : (s.stepDone n).storesOk := h.same rfl

theorem State.storesOk.step2 {r : StartReport} (h : s.storesOk) : (s.step2 r).storesOk := by
  unfold State.step2
  extract_lets _ _ s₁ _ _ _ s₂ _ _ s₃
  have h₁ : s₁.storesOk := h.same rfl
  have h₂ : s₂.storesOk := h₁.same rfl
  have h₃ : s₃.storesOk := .ite (h₂.same rfl) h₂
  split
  · exact h₃.halt
  extract_lets s₄
  have h₄ : s₄.storesOk := .ite h₃ h₃.note
  exact State.storesOk.stepDone (h₄.updated (by with_reducible rfl))

theorem State.storesOk.noteLate {n : Nat} (h : s.storesOk) : (s.noteLate n).storesOk := by
  unfold State.noteLate
  split
  · exact h.note
  · exact h

theorem State.storesOk.loadIdentity (h : s.storesOk) : s.loadIdentity.storesOk := by
  unfold State.loadIdentity
  split
  · exact h
  · exact h.same rfl

theorem State.storesOk.loadLifetime {b : List Byte} (h : s.storesOk) : (s.loadLifetime b).storesOk := h.same rfl

theorem State.storesOk.shippedLifetime {r : StartReport} (h : s.storesOk) : (s.shippedLifetime r).storesOk := h.same rfl

theorem State.storesOk.enterDefaults {st : CfgStatus} (h : s.storesOk) : (s.enterDefaults st).storesOk := by
  unfold State.enterDefaults
  extract_lets _ s₁
  have h₁ : s₁.storesOk := { h with regs := applyCfg_wf none h.regs }
  exact h₁.note

theorem State.storesOk.applyRecord {r : CfgRec} (h : s.storesOk) : (s.applyRecord r).storesOk := by
  unfold State.applyRecord
  extract_lets
  split
  rename_i m _ _
  extract_lets _ _ s₁
  have h₁ : s₁.storesOk := { h with regs := applyCfg_wf (some m) h.regs }
  exact .ite h₁.note h₁

theorem State.storesOk.configure (h : s.storesOk) : s.configure.storesOk := by
  unfold State.configure
  extract_lets _ s₁
  have h₁ : s₁.storesOk := .ite (h.note.setFlash (Sparse.wf_filter _ _ _ h.flash0)) h
  split
  · exact h₁.enterDefaults
  · exact .ite h₁.enterDefaults (.ite h₁.enterDefaults h₁.applyRecord)

theorem State.storesOk.startLoader {r : StartReport} (h : s.storesOk) : (s.startLoader r).storesOk := by
  unfold State.startLoader
  extract_lets s₁ s₂ es regs regs' up _ s₃ s₄
  have h₂ : s₂.storesOk := by
    unfold s₂
    split
    · exact h.loadIdentity.loadLifetime
    · exact h.loadIdentity
  have hr : regsWf regs' = true := regSet_wf _ _ _ (regsWf_foldl h₂.regs fun h => regSet_wf _ _ _ h)
  have h₃ : s₃.storesOk := { h₂ with regs := hr }
  exact h₃.note.setEth.selectApp.setEth

theorem State.storesOk.step3 {r : StartReport} (h : s.storesOk) : (s.step3 r).storesOk := by
  unfold State.step3
  extract_lets
  split
  extract_lets s₁ s₂ _
  have h₁ : s₁.storesOk := h.same rfl
  have h₂ : s₂.storesOk := .ite h₁.note h₁
  clear_value s₂
  split
  · exact h₂.startLoader
  extract_lets _ s₃ s₄
  have h₃ : s₃.storesOk := h₂.updated (by with_reducible rfl)
  have h₄ : s₄.storesOk := .ite h₃ h₃.note
  exact h₄.stepDone

theorem State.storesOk.step4 {r : StartReport} (h : s.storesOk) : (s.step4 r).storesOk := by
  unfold State.step4
  split
  · exact h.halt
  extract_lets s₁ _ _ s₂ s₃ s₄
  have h₂ : s₂.storesOk := h.loadIdentity.same rfl
  have h₃ : s₃.storesOk := by
    unfold s₃
    split
    · exact h₂.loadLifetime
    · exact h₂.shippedLifetime
  split
  · exact h₃.halt
  · have h₄ : s₄.storesOk := h₃.configure
    exact State.storesOk.stepDone (h₄.updated (by with_reducible rfl))

theorem State.storesOk.startIsolate {t : Nat} (h : s.storesOk) : (s.startIsolate t).storesOk := by
  unfold State.startIsolate
  split
  · exact h
  · exact h.loseTile.event

theorem State.storesOk.journalOff (h : s.storesOk) : s.journalOff.storesOk := by
  unfold State.journalOff
  exact h.foldl fun h => .ite h h.moveJournal

theorem State.storesOk.step5 {r : StartReport} (h : s.storesOk) : (s.step5 r).storesOk :=
  (((h.foldl fun h => h.loseTile).foldl fun h => h.startIsolate).foldl fun h => h.startIsolate).mapRails.stepDone

theorem State.storesOk.trainPc {pc : Nat × Nat × Nat} (h : s.storesOk) : (s.trainPc pc).storesOk := by
  unfold State.trainPc
  extract_lets
  split
  · exact h
  split
  · exact (h.same (by rfl)).repairEvents
  · exact h.startIsolate

theorem State.storesOk.journalStart (h : s.storesOk) : s.journalStart.storesOk := by
  unfold State.journalStart
  extract_lets
  split
  · exact h.same rfl
  split
  · split
    · exact h.same rfl
    · exact h.halt
  · exact (h.foldl fun h => h.jnlRead : State.storesOk _)

theorem State.storesOk.step6 {r : StartReport} (h : s.storesOk) : (s.step6 r).storesOk := by
  unfold State.step6
  extract_lets s₁ s₂ s₃
  have h₂ : s₂.storesOk := h.noteLate.foldl fun h => h.trainPc
  have h₃ : s₃.storesOk := h₂.foldl fun h => h.startIsolate
  have hj : s₃.journalStart.storesOk := h₃.journalStart
  split
  · rename_i e
    rw [e] at hj
    exact hj
  · rename_i t e
    rw [e] at hj
    have ht : t.storesOk := hj
    extract_lets t₁
    have h₁ : t₁.storesOk := ht.journalOff
    exact h₁.same rfl

theorem State.storesOk.step7 {r : StartReport} (h : s.storesOk) : (s.step7 r).storesOk := by
  unfold State.step7
  extract_lets s₁ _ _ _ s₂ s₃ _ s₄ s₅ s₆
  have h₁ : s₁.storesOk := h.noteLate
  have h₂ : s₂.storesOk := h₁.foldl fun h => h.event
  have h₃ : s₃.storesOk := h₂.foldl fun h => h.event
  have h₄ : s₄.storesOk := h₃.updated (by with_reducible rfl)
  have h₅ : s₅.storesOk := h₄.foldl fun h => h.event
  have h₆ : s₆.storesOk := h₅.foldl fun h => h.event
  split
  · exact h₁.halt
  · exact State.storesOk.stepDone (h₆.updated (by with_reducible rfl))

theorem State.storesOk.guardSteps {note : Bool} (h : s.storesOk) : (s.guardSteps note).storesOk := by
  refine h.foldl fun h => ?_
  extract_lets _ _ _ _ s₁ s₂ s₃
  have h₁ : s₁.storesOk := h.modIsland
  have h₂ : s₂.storesOk := .ite h₁.note h₁
  have h₃ : s₃.storesOk := .ite h₂.note h₂
  exact .ite h (.ite h₃.note h₃)

theorem State.storesOk.step8 {r : StartReport} (h : s.storesOk) : (s.step8 r).storesOk := by
  unfold State.step8
  extract_lets s₁ _ s₂ s₃ s₄ _ _ _ _ s₅ _ s₆ _ s₇
  have h₁ : s₁.storesOk := h.noteLate
  have h₂ : s₂.storesOk := h₁.withLif
  have h₃ : s₃.storesOk := h₂.foldl fun h => .ite h.startIsolate h
  have h₄ : s₄.storesOk := State.storesOk.journalOff (h₃.foldl fun h => h.startIsolate)
  have h₅ : s₅.storesOk := h₄.withLif
  have h₆ : s₆.storesOk := h₅.takeFingerprint
  have h₇ : s₇.storesOk := .ite h₆.withParts h₆
  exact h₇.guardSteps.stepDone

theorem State.storesOk.startAxis {r : StartReport} {a : Nat} (h : s.storesOk) : (s.startAxis r a).storesOk := by
  unfold State.startAxis
  extract_lets is tr s₁ s₂ s₃ s₄ s₅
  have h₁ : s₁.storesOk := h.foldl fun h => .ite h.setPort (.ite h.setPort.portEvent h.setPort)
  have h₂ : s₂.storesOk := h₁.foldl fun h => .ite h.setPort h
  have h₃ : s₃.storesOk := h₁.foldl fun h => .ite h.setPort h
  have h₄ : s₄.storesOk := h₁.setAxis
  have h₅ : s₅.storesOk := h₄.foldl fun h => .ite h.setPort.endTraining h
  exact .ite (h.foldl fun h => h.setPort) (.ite (h.foldl fun h => h.setPort) (.ite h₂.note (.ite h₃.setAxis h₅.setAxis)))

theorem State.storesOk.step9 {r : StartReport} (h : s.storesOk) : (s.step9 r).storesOk := (h.noteLate.foldl fun h => h.startAxis).stepDone

theorem State.storesOk.step10 {r : StartReport} (h : s.storesOk) : (s.step10 r).storesOk := by
  refine State.storesOk.stepDone (h.noteLate.foldl fun h => ?_)
  extract_lets s₁ _ _ s₂
  have h₁ : s₁.storesOk := .ite h.selectApp h
  have h₂ : s₂.storesOk := h₁.setEth
  exact .ite h₂.ethLink h₂

theorem State.storesOk.writeBack {staged : Bool} (h : s.storesOk) : (s.writeBack staged).storesOk := by
  unfold State.writeBack
  split
  · exact h
  extract_lets _ _ _ _ _ s₁ s₂
  have h₁ : s₁.storesOk := h.putFlash
  have h₂ : s₂.storesOk := .ite (h₁.eraseFlash (copy := false)) h₁
  exact .ite h (h₂.updated (by with_reducible rfl))

theorem State.storesOk.raiseFloor (h : s.storesOk) : s.raiseFloor.storesOk := by
  unfold State.raiseFloor
  extract_lets
  split
  · exact (h.writeFloor.same (by rfl)).note
  · exact h

theorem State.storesOk.step11 {staged : Bool} (h : s.storesOk) : (s.step11 staged).storesOk := by
  unfold State.step11
  extract_lets s₀ _ s₁ e s₂ s₃
  have h₀ : s₀.storesOk := h.noteLate
  have h₁ : s₁.storesOk := State.storesOk.stepDone (h₀.updated (by with_reducible rfl))
  have h₂ : s₂.storesOk := h₁.updated (by with_reducible rfl)
  have h₃ : s₃.storesOk := h₂.writeLifetime.raiseFloor.writeBack
  exact .ite (h₃.foldl fun h => .ite h.sendCredit h) h₃

theorem State.storesOk.startTimes {r : StartReport} (h : s.storesOk) : (s.startTimes r).storesOk := h.same rfl

theorem State.storesOk.startUp {r : StartReport} (h : s.storesOk) : (s.startUp r).storesOk := by
  unfold State.startUp
  extract_lets s₁
  have h₁ : s₁.storesOk := h.startTimes
  clear_value s₁
  have h₂ := h₁.step2 (r := r)
  generalize s₁.step2 r = x at h₂ ⊢
  cases x with
  | error t => exact h₂
  | ok s₂ =>
  have h₂ : s₂.storesOk := h₂
  refine .ite h₂.leakTrip ?_
  have h₃ := h₂.step3 (r := r)
  generalize s₂.step3 r = x at h₃ ⊢
  cases x with
  | error t => exact h₃
  | ok s₃ =>
  have h₃ : s₃.storesOk := h₃
  dsimp only
  have h₄ := h₃.step4 (r := r)
  generalize s₃.step4 r = x at h₄ ⊢
  cases x with
  | error t => exact h₄
  | ok s₄ =>
  have h₄ : s₄.storesOk := h₄
  dsimp only
  have h₆ := (h₄.step5 (r := r)).step6 (r := r)
  generalize (s₄.step5 r).step6 r = x at h₆ ⊢
  cases x with
  | error t => exact h₆
  | ok s₆ =>
  have h₆ : s₆.storesOk := h₆
  dsimp only
  have h₇ := h₆.step7 (r := r)
  generalize s₆.step7 r = x at h₇ ⊢
  cases x with
  | error t => exact h₇
  | ok s₇ => 
    have h₇ : s₇.storesOk := h₇
    exact h₇.step8.step9.step10.step11

theorem State.storesOk.upTo {n : Nat} (h : s.storesOk) : (s.upTo n).storesOk := by
  unfold State.upTo
  extract_lets r
  split
  · exact h.stepDone
  have h₂ := h.step2 (r := r)
  generalize s.step2 r = x at h₂ ⊢
  cases x with
  | error t => exact h₂
  | ok s₂ =>
  have h₂ : s₂.storesOk := h₂
  dsimp only
  split
  · exact h₂
  have h₃ := h₂.step3 (r := r)
  generalize s₂.step3 r = x at h₃ ⊢
  cases x with
  | error t => exact h₃
  | ok s₃ =>
  have h₃ : s₃.storesOk := h₃
  dsimp only
  split
  · exact h₃
  · exact h₃.step4

/-! Steps -/

theorem State.storesOk.setViews (h : s.storesOk) : s.setViews.storesOk := h.same rfl

theorem State.storesOk.countHold {i : Nat} (h : s.storesOk) : (s.countHold i).storesOk := by
  unfold State.countHold
  split
  · exact h.count
  · exact h

theorem State.storesOk.releaseCore {i : Nat} (h : s.storesOk) : (s.releaseCore i).storesOk := h.countHold.setCore.setCluster

theorem State.storesOk.releaseCores {filler : Bool} (h : s.storesOk) : (s.releaseCores filler).storesOk := h.foldl fun h => h.releaseCore

theorem State.storesOk.preempt {i : Nat} (h : s.storesOk) : (s.preempt i).storesOk := by
  unfold State.preempt
  extract_lets
  split
  · exact h.releaseCore.setCore
  · exact h

theorem State.storesOk.restartFiller (h : s.storesOk) : s.restartFiller.storesOk := ((h.foldl fun h => h.preempt).same (by rfl)).foldl fun h => h.setCore

theorem State.storesOk.addPace {reason ns : Nat} (h : s.storesOk) : (s.addPace reason ns).storesOk := by
  unfold State.addPace
  split
  · exact h.same rfl
  · exact h

theorem State.storesOk.rehouse {i : Nat} (h : s.storesOk) : (s.rehouse i).storesOk := by
  unfold State.rehouse
  split
  · exact h
  split
  · exact h
  split
  · extract_lets
    split
    · exact (h.same (by rfl)).spareChanged.freshCore.substituted.noteSubst
    · exact (h.same (by rfl)).spareChanged.freshCluster.substituted
    · exact (h.same (by rfl)).spareChanged.freshCore

theorem State.storesOk.wearCores {t g : Nat} (h : s.storesOk) : (s.wearCores t g).storesOk := by
  unfold State.wearCores
  extract_lets _ s₁ s₂
  have h₁ : s₁.storesOk := h.updated (by with_reducible rfl)
  have h₂ : s₂.storesOk := h₁.foldl fun h => h.retired
  exact .ite h (h₂.foldl fun h => h.rehouse)

theorem State.storesOk.wearCluster {t q : Nat} (h : s.storesOk) : (s.wearCluster t q).storesOk := by
  unfold State.wearCluster
  split
  · exact h
  extract_lets
  split
  · exact (h.same (by rfl)).retired
  split
  · extract_lets
    split
    · exact ((h.same (by rfl)).retired.same (by rfl)).spareChanged.freshCluster
    · exact ((h.same (by rfl)).retired.same (by rfl)).spareChanged.freshCluster.substituted

theorem State.storesOk.wearIsland {i : Nat} (h : s.storesOk) : (s.wearIsland i).storesOk := by
  unfold State.wearIsland
  extract_lets
  split
  · exact h
  split
  · exact h.wearCores.isolateIfEmpty
  split
  · exact h.wearCluster.isolateIfEmpty
  · exact h.wearCluster.isolateIfEmpty

theorem State.storesOk.boundaryUnits (h : s.storesOk) : s.boundaryUnits.storesOk := by
  unfold State.boundaryUnits
  extract_lets s₁ s₂ _ _ s₃
  have h₁ : s₁.storesOk := h.guardSteps
  have h₂ : s₂.storesOk := h₁.foldl fun h => h.wearIsland
  have h₃ : s₃.storesOk := h₂.withLif.foldl fun h => h.isolateTile
  exact h₃.swapTables

theorem State.storesOk.pauseGeometry (h : s.storesOk) : s.pauseGeometry.storesOk := by
  unfold State.pauseGeometry
  exact h.foldl fun h => .ite (h.same (by rfl)).modPart h

theorem State.storesOk.boundaryGeometry (h : s.storesOk) : s.boundaryGeometry.storesOk := by
  unfold State.boundaryGeometry
  split
  · exact (h.takeFingerprint.note.same (by rfl)).pauseGeometry
  · exact h.pauseGeometry

theorem State.storesOk.loseCores (h : s.storesOk) : s.loseCores.storesOk :=
  { h with cores := rfl, clusters := rfl, mem := Memory.wf_filter _ _ h.mem }

theorem State.storesOk.loseTileStores (h : s.storesOk) : s.loseTileStores.storesOk := { h with mem := Memory.wf_filter _ _ h.mem }

theorem State.storesOk.railsTo {on : Bool} (h : s.storesOk) : (s.railsTo on).storesOk := h.mapRails

theorem State.storesOk.closeAxes (h : s.storesOk) : s.closeAxes.storesOk := h.foldl fun h => h.closeAxis

theorem State.storesOk.openAxes (h : s.storesOk) : s.openAxes.storesOk := by
  unfold State.openAxes
  exact h.foldl fun h => (.ite h (h.setAxis.foldl fun h => (.ite h.setPort h)))

theorem State.storesOk.creditAll {held : Bool} (h : s.storesOk) : (s.creditAll held).storesOk := by
  unfold State.creditAll
  exact h.foldl fun h => .ite h.sendCredit h

theorem State.storesOk.movePower {dest : PowerState} (h : s.storesOk) : (s.movePower dest).storesOk := by
  unfold State.movePower
  extract_lets _ s₁ s₂ _ s₃ s₄ up down off offRails offAxes _ _ _ _ _ moved
  have h₁ : s₁.storesOk := h.foldl fun h => h.preempt
  have h₂ : s₂.storesOk := .ite h₁.mapRails h₁
  have h₃ : s₃.storesOk := h₂.updated (by with_reducible rfl)
  have h₄ : s₄.storesOk := .ite h₃.loseTileStores h₃
  have hup : up.storesOk := .ite h₄.loseCores.railsTo h₄
  have hdown : down.storesOk := .ite h₄.restartFiller.loseCores.railsTo h₄
  have hoff : offAxes.storesOk := h₄.writeLifetime.restartFiller.loseCores.railsTo.closeAxes
  clear_value up down offAxes
  have hmoved : moved.storesOk := by
    unfold moved
    split
    · exact .ite hup.openAxes.creditAll hup
    · exact .ite hup.openAxes.creditAll hup
    · exact .ite hdown.openAxes.creditAll hdown
    · exact hdown.loseTileStores.rewindStreams.creditAll.closeAxes
    · exact ⟨rfl, hoff.flash0, hoff.flash1, hoff.regs, hoff.cores, hoff.clusters⟩
  exact hmoved.note

theorem State.storesOk.abandonPart {p : Nat} (h : s.storesOk) : (s.abandonPart p).storesOk := h.abandonAll

theorem State.storesOk.removePartition {p : Nat} (h : s.storesOk) : (s.removePartition p).storesOk :=
  ((h.abandonPart.foldl fun h => h.setVetch.vetchEach).same (by rfl)).setViews

theorem State.storesOk.stopJob {p : Nat} (h : s.storesOk) : (s.stopJob p).storesOk := h.abandonPart.modPart

theorem State.storesOk.tryPause {c : Cmd} {p : Nat} (h : s.storesOk) : (s.tryPause c p).storesOk := by
  unfold State.tryPause
  extract_lets
  split
  · exact h.complete
  split
  · exact h
  · exact h.modPart.complete

theorem State.storesOk.tryStop {c : Cmd} {p : Nat} {unload : Bool} (h : s.storesOk) : (s.tryStop c p unload).storesOk := by
  unfold State.tryStop
  extract_lets _ s₁
  have h₁ : s₁.storesOk := by
    unfold s₁
    split
    · exact h.removePartition
    · exact h
  exact .ite h.complete (.ite h.modPart (.ite h₁.removePartition.complete h.stopJob.complete))

theorem State.storesOk.tryPower {c : Cmd} {v : Nat} (h : s.storesOk) : (s.tryPower c v).storesOk := by
  unfold State.tryPower
  split
  · exact h.complete
  split
  · exact (h.same (by rfl)).complete
  split
  · exact h.same rfl
  · exact h.movePower.complete

theorem State.storesOk.settleMgmt (h : s.storesOk) : s.settleMgmt.storesOk := by
  unfold State.settleMgmt
  split
  · split
    · exact h
    · extract_lets
      split
      · exact h.tryPause
      · exact h.tryStop
      · exact h.tryStop
      · exact h.tryPower
      · exact h
  · exact h

theorem State.storesOk.boundary (h : s.storesOk) : s.boundary.storesOk := h.boundaryUnits.boundaryGeometry.settleMgmt

theorem State.storesOk.settle (h : s.storesOk) : s.settle.storesOk := by
  unfold State.settle
  split
  · exact h.boundary
  · exact h

theorem State.storesOk.clearStep {filler : Bool} {p step : Nat} (h : s.storesOk) : (s.clearStep filler p step).storesOk := by
  unfold State.clearStep
  extract_lets s₁ s₂ _ _ s₃
  have h₁ : s₁.storesOk := h.releaseCores
  have h₂ : s₂.storesOk := .ite h₁.restartFiller h₁
  have h₃ : s₃.storesOk := h₂.same rfl
  split
  · exact h₃.same rfl
  · exact h₃.same rfl

theorem State.storesOk.completeStep {filler : Bool} {fail : Option Status} (h : s.storesOk) : (s.completeStep filler fail).storesOk := by
  unfold State.completeStep
  split
  · exact h
  extract_lets s₁ _ _ _ _ cmd s₂ s₃
  have h₁ : s₁.storesOk := .ite h.accrue h.accrue.boundaryUnits
  have h₂ : s₂.storesOk := h₁.clearStep
  have h₃ : s₃.storesOk := by
    unfold s₃
    cases cmd
    · exact h₂
    · exact h₂.finish
  exact .ite h₃.settleMgmt h₃.boundaryGeometry.settleMgmt

theorem State.storesOk.endFailed (h : s.storesOk) : s.endFailed.storesOk := by
  unfold State.endFailed
  extract_lets s₁
  have h₁ : s₁.storesOk := by
    unfold s₁
    split
    · split
      · exact h.completeStep
      · exact h
    · exact h
  split
  · split
    · exact h₁.completeStep
    · exact h₁
  · exact h₁

theorem State.storesOk.replayStep {r : StepRun} (h : s.storesOk) : (s.replayStep r).storesOk := by
  unfold State.replayStep
  extract_lets s₁ s₂
  have h₁ : s₁.storesOk := by
    unfold s₁
    split
    · exact h.jnlEntry
    · exact h
  have h₂ : s₂.storesOk := h₁.releaseCores
  exact h₂.same rfl

/-! Bias -/

theorem State.storesOk.biasUpdate {step : Nat} {others : List DemandMsg} (h : s.storesOk) : (s.biasUpdate step others).1.storesOk := by
  unfold State.biasUpdate
  extract_lets
  split
  · exact h
  · exact (h.same (by rfl)).paired

theorem State.storesOk.biasFlip (h : s.storesOk) : s.biasFlip.storesOk := by
  unfold State.biasFlip
  split
  · exact h.writeAll.same rfl
  · exact h

theorem State.storesOk.biasEnd {step : Nat} (h : s.storesOk) : (s.biasEnd step).1.storesOk := by
  unfold State.biasEnd
  split
  rename_i s₁ _ e
  have h₁ : s₁.storesOk := .of_pair e (.ite₁ h h.biasUpdate)
  exact .ite h₁.biasFlip h₁

/-! Jobs -/

theorem State.storesOk.zeroRanges {rs : List (Nat × Nat)} (h : s.storesOk) : (s.zeroRanges rs).storesOk :=
  { h with mem := Memory.wf_filter _ _ h.mem }

theorem State.storesOk.emptySides (h : s.storesOk) : s.emptySides.storesOk := h.foldl fun h => h.setCore

theorem State.storesOk.loadPartition {params : List Byte} (h : s.storesOk) : (s.loadPartition params).1.storesOk := by
  unfold State.loadPartition
  split
  · exact h
  split
  · exact h
  split
  · exact h
  split
  · exact h.vetchRefused.paired
  extract_lets _ s₁ s₂ _ s₃ _ s₄ s₅ _ s₆
  have h₁ : s₁.storesOk := h.modPart
  have h₂ : s₂.storesOk := (h₁.same (by rfl)).zeroRanges
  have h₃ : s₃.storesOk := h₂.modPart
  have h₄ : s₄.storesOk := h₃.same rfl
  have h₅ : s₅.storesOk := h₄.zeroRanges.emptySides
  have h₆ : s₆.storesOk := .ite (h₅.same rfl) h₄
  exact h₆.setViews.paired

theorem State.storesOk.loadFromStream {c : Cmd} (h : s.storesOk) : (s.loadFromStream c).storesOk := by
  unfold State.loadFromStream
  extract_lets
  split
  · exact h.complete
  split
  · exact h.complete
  split
  · exact h
  split
  · exact h.complete
  extract_lets
  split
  · exact h.complete
  split
  · exact h.complete
  · exact (h.writeMem.foldl fun h => (.ite h h.vetchFree)).complete

theorem State.storesOk.streamOpen {part : Nat} {params : List Byte} (h : s.storesOk) : (s.streamOpen part params).1.storesOk := by
  unfold State.streamOpen
  extract_lets
  split
  · exact h
  split
  · exact h.vetchRefused.paired
  · exact h.setVetch.setStream.sendCredit.paired

theorem State.storesOk.streamClose {part j : Nat} (h : s.storesOk) : (s.streamClose part j).1.storesOk := by
  unfold State.streamClose
  split
  · split
    · exact h
    · exact (h.vetchRemove.same (by rfl)).paired
  · exact h

theorem State.storesOk.jobStart {p : Nat} {params : List Byte} (h : s.storesOk) : (s.jobStart p params).1.storesOk := by
  unfold State.jobStart
  extract_lets
  split
  · exact h
  · exact h.modPart.paired

theorem State.storesOk.jobResume {p : Nat} (h : s.storesOk) : (s.jobResume p).1.storesOk := by
  unfold State.jobResume
  split
  · exact h.modPart.paired
  · exact h

theorem State.storesOk.placeStage {params : List Byte} (h : s.storesOk) : (s.placeStage params).1.storesOk := by
  unfold State.placeStage
  extract_lets
  split
  · exact h
  · exact (h.same (by rfl)).paired

/-! Nodes -/

theorem State.storesOk.setRun {filler : Bool} {r : StepRun} (h : s.storesOk) : (s.setRun filler r).storesOk := by
  unfold State.setRun
  split
  · exact h.same rfl
  · exact h.same rfl

theorem State.storesOk.mapRun {filler : Bool} {f : StepRun → StepRun} (h : s.storesOk) : (s.mapRun filler f).storesOk := by
  unfold State.mapRun
  split
  · exact h.same rfl
  · exact h.same rfl

theorem State.storesOk.defer {r : StepRun} {i : Nat} {hdr : ItemHdr} {tile : Nat} (h : s.storesOk) : (s.defer r i hdr tile).storesOk := by
  unfold State.defer
  extract_lets
  split
  · split
    · exact h.mapRun
    · exact h.mapRun.event
  · exact h.mapRun.same rfl

theorem State.storesOk.promote {i : Nat} (h : s.storesOk) : (s.promote i).storesOk := h.mapRun.same rfl

theorem State.storesOk.endPass (h : s.storesOk) : s.endPass.storesOk := by
  unfold State.endPass
  split
  · split
    · exact h.foldl fun h => h.promote
    · exact h
  · exact h

theorem State.storesOk.admitRoutes {t : Nat} (h : s.storesOk) : (s.admitRoutes t).storesOk := h.same rfl

theorem State.storesOk.makeReady {filler : Bool} {r : StepRun} {i : Nat} {n : Node} (h : s.storesOk) : (s.makeReady filler r i n).storesOk := by
  unfold State.makeReady
  split
  · split
    · exact h.logItem.mapRun
    · split
      · exact h.defer
      · exact h.mapRun
  · exact (h.mapRun.same (by rfl)).admitRoutes
  · exact h.mapRun

theorem State.storesOk.wake {filler : Bool} {n : Nat} (h : s.storesOk) : (State.wake filler n s).storesOk := by
  induction n generalizing s with
  | zero => exact h
  | succ n ih =>
    unfold State.wake
    split
    · exact h
    extract_lets
    split
    · exact h
    split
    · exact ih h.makeReady
    · exact h

theorem State.storesOk.wakeAll {filler : Bool} (h : s.storesOk) : (s.wakeAll filler).storesOk := by
  unfold State.wakeAll
  extract_lets
  split
  · exact h.wake
  · exact h.wake.endPass

theorem State.storesOk.finishStep {filler : Bool} (h : s.storesOk) : (s.finishStep filler).storesOk := by
  unfold State.finishStep
  split
  · split
    · exact h.endFailed
    · split
      · split
        · exact h.completeStep
        · exact h.biasEnd.completeStep
      · exact h
  · exact h

theorem State.storesOk.nodeDone {filler : Bool} {i : Nat} {st : Status} {core : Option Core} (h : s.storesOk) : (s.nodeDone filler i st core).storesOk := by
  unfold State.nodeDone
  split
  · exact h
  split
  · exact h
  split
  · exact h
  extract_lets
  split
  · exact h.logItem.mapRun.wakeAll
  · exact h.logItem.mapRun.failStep

theorem State.storesOk.tagDone {tag : W32} {st : Status} (h : s.storesOk) : (s.tagDone tag st).storesOk := by
  unfold State.tagDone
  split
  · exact h
  extract_lets
  split
  · exact h.foldl fun h => h.nodeDone
  · exact (h.foldl fun h => h.nodeDone).failStep

theorem State.storesOk.writeRecord {d : Bucket} {w : Nat} {codes : List Nat} {nf : Nat → Nat} (h : s.storesOk) : (s.writeRecord d w codes nf).storesOk :=
  h.foldl fun h => h.writeMem

theorem State.storesOk.failRecord {d : Bucket} {st : Status} (h : s.storesOk) : (s.failRecord d st).storesOk := by
  unfold State.failRecord
  extract_lets
  split
  · exact h.writeRecord
  split
  · exact h.writeRecord
  · exact h.drew.writeRecord

theorem State.storesOk.dropRun {tag : W32} {st : Status} (h : s.storesOk) : (s.dropRun tag st).storesOk := (h.same (by rfl)).tagDone

theorem State.storesOk.linkLost {i : Nat} {all : Bool} (h : s.storesOk) : (s.linkLost i all).storesOk := by
  unfold State.linkLost
  extract_lets _ _ _ s₁
  have h₁ : s₁.storesOk := .ite h h.drew
  refine State.storesOk.endFailed (h₁.foldl fun h => ?_)
  refine State.storesOk.dropRun ?_
  split
  · exact h.failRecord
  · exact h

/-! Burnet -/

theorem State.storesOk.toRank {part axes r kind : Nat} {bytes : List Byte} (h : s.storesOk) : (s.toRank part axes r kind bytes).storesOk := by
  unfold State.toRank
  extract_lets
  split
  · split
    · exact h.failStep
    · exact h
  · exact h.same rfl

theorem State.storesOk.putRec {n off w : Nat} (h : s.storesOk) : (s.putRec n off w).storesOk := h.writeMem

theorem State.storesOk.modRunOf {tag : W32} {f : BucketRun → BucketRun} (h : s.storesOk) : (s.modRunOf tag f).storesOk := h.same rfl

theorem State.storesOk.modSeal {p : Nat} {f : SealPart → SealPart} (h : s.storesOk) : (s.modSeal p f).storesOk := h.same rfl

theorem State.storesOk.endBucket {d : Bucket} {st : Status} (h : s.storesOk) : (s.endBucket d st).storesOk := by
  unfold State.endBucket
  extract_lets s₁ s₂ s₃
  have h₁ : s₁.storesOk := .ite h.count (.ite h.count h)
  have h₂ : s₂.storesOk := .ite h₁.twinFound h₁
  have h₃ : s₃.storesOk := .ite h₂ h₂.failRecord
  exact h₃.dropRun.finishStep

/-! Setup -/

theorem State.storesOk.dropOwners {tag : W32} (h : s.storesOk) : (s.dropOwners tag).storesOk := (h.foldl fun h => (h.foldl fun h => h.vetchRemove))

/-- The state that an operation which may fail leaves has its stores in canonical form. -/
def leavesStoresOk {ε : Type} : Except ε State → Prop
  | .error _ => True
  | .ok t => t.storesOk

theorem State.storesOk.foldlM {ε α : Type} {f : State → α → Except ε State} {xs : List α} (h : s.storesOk)
    (hf : ∀ {s : State} {a : α}, s.storesOk → leavesStoresOk (f s a)) : leavesStoresOk (xs.foldlM f s) := by
  induction xs generalizing s with
  | nil => exact h
  | cons a xs ih =>
    rw [List.foldlM_cons]
    have ha := hf (a := a) h
    cases e : f s a with
    | error => exact trivial
    | ok t => rw [e] at ha; exact ih ha

theorem State.storesOk.addOwners {d : Bucket} (h : s.storesOk) : leavesStoresOk (s.addOwners d) := by
  unfold State.addOwners
  extract_lets add
  cases d.maskTiles.foldlM add s.vetch with
  | error => exact trivial
  | ok vs => exact h.same rfl

theorem State.storesOk.collSetup {part : Nat} {params : List Byte} (h : s.storesOk) : (s.collSetup part params).1.storesOk := by
  unfold State.collSetup
  extract_lets d
  split
  · exact h
  split
  · exact h
  split
  · exact h
  split
  · exact h
  split
  · exact h
  split
  · exact h
  split
  · exact h
  have ha := h.dropOwners (tag := d.tag) |>.addOwners (d := d)
  split
  · exact h.vetchRefused.paired
  · rename_i t e
    rw [e] at ha
    have ht : t.storesOk := ha
    extract_lets t₁ t₂
    have h₁ : t₁.storesOk := ht.foldl fun h => h.putRec
    have h₂ : t₂.storesOk := h₁.foldl fun h => .ite h.writeMem h.writeMem.writeMem
    exact h₂.same rfl

theorem State.storesOk.collRemove {part : Nat} {tag : W32} (h : s.storesOk) : (s.collRemove part tag).1.storesOk := by
  unfold State.collRemove
  split
  · exact h
  split
  · exact h
  · exact (h.dropOwners.same (by rfl)).paired

/-! Reduce -/

theorem State.storesOk.ensureRun {d : Bucket} {step : Nat} (h : s.storesOk) : (s.ensureRun d step).storesOk := by
  unfold State.ensureRun
  split
  · exact h
  · exact h.same rfl

theorem State.storesOk.fixMask {d : Bucket} {step : Nat} {codes : List Nat} (h : s.storesOk) : (s.fixMask d step codes).storesOk :=
  h.modRunOf.foldl fun h => h.toRank

theorem State.storesOk.openBucket {d : Bucket} {step : Nat} (h : s.storesOk) : (s.openBucket d step).storesOk := by
  unfold State.openBucket
  extract_lets
  split
  · exact h.ensureRun
  split
  · exact h.ensureRun
  split
  · exact h.ensureRun.modRunOf.fixMask
  · split
    · exact h.ensureRun.modRunOf.fixMask
    · exact h.ensureRun.modRunOf.endBucket
  · exact h.ensureRun.modRunOf

theorem State.storesOk.openLeaves {filler : Bool} (h : s.storesOk) : (s.openLeaves filler).storesOk := by
  unfold State.openLeaves
  split
  · exact h
  · exact h.foldl fun h => .ite h.openBucket h

theorem State.storesOk.nodeEnd {filler : Bool} {i : Nat} {st : Status} {core : Option Core} (h : s.storesOk) : (s.nodeEnd filler i st core).storesOk :=
  h.nodeDone.openLeaves.finishStep

theorem State.storesOk.finishOp {d : Bucket} (h : s.storesOk) : (s.finishOp d).storesOk := (h.same (by rfl)).writeRecord.count.tagDone.openLeaves.finishStep

theorem State.storesOk.bucketRecord {d : Bucket} {r : BucketRun} {codes : List Nat} {st : Status} {nonfinite : Bool}
    (h : s.storesOk) : (s.bucketRecord d r codes st nonfinite).1.storesOk := by
  unfold State.bucketRecord
  exact .ite h h.drew

theorem State.storesOk.omitEvents {d : Bucket} {step : Nat} {codes : List Nat} (h : s.storesOk) : (s.omitEvents d step codes).storesOk := by
  unfold State.omitEvents
  exact h.foldl fun h => .ite h.event h

theorem State.storesOk.completeBucket {r : StepRun} {filler : Bool} {d : Bucket} {run : BucketRun} {codes : List Nat} (h : s.storesOk) :
    (s.completeBucket r filler d run codes).storesOk := by
  unfold State.completeBucket
  split
  · exact h.endBucket
  extract_lets _ _ _ _
  split
  rename_i s₂ w slow reason thr e
  have h₂ : s₂.storesOk := .of_pair e (State.storesOk.bucketRecord h.writeAll)
  extract_lets s₃ s₄ s₅ s₆ s₇ _ s₈
  have h₄ : s₄.storesOk := h₂.writeRecord.count.count
  have h₅ : s₅.storesOk := .ite h₄ h₄.count.count
  have h₆ : s₆.storesOk := h₅.count
  have h₇ : s₇.storesOk := .ite h₆ h₆.omitEvents
  have h₈ : s₈.storesOk := h₇.updated (by with_reducible rfl)
  exact h₈.modRunOf.mapRun.tagDone.openLeaves.finishStep

theorem State.storesOk.settleBucket {d : Bucket} (h : s.storesOk) : (s.settleBucket d).storesOk := by
  unfold State.settleBucket
  split
  · extract_lets _ _ s₁
    have h₁ : s₁.storesOk := .ite h.fixMask h
    split
    · split
      · split
        · exact h₁.completeBucket
        · exact h₁
      · exact h₁
    · exact h₁
  · exact h

theorem State.storesOk.sendValue {d : Bucket} {step : Nat} {vals : List (Nat × Codes)} {nf empty : Bool} (h : s.storesOk) :
    (s.sendValue d step vals nf empty).storesOk := by
  unfold State.sendValue
  extract_lets _ data
  split
  extract_lets head both
  have hh {s : State} {r a n : Nat} (h : s.storesOk) : (head s r a n).storesOk := h.toRank
  have hd {s : State} {r a n : Nat} (h : s.storesOk) : (data s r a n).storesOk := .ite h h.toRank
  refine h.foldl fun h => .ite (h.foldl fun h => hd (hh h)) ?_
  extract_lets s₁ us s₂
  have h₁ : s₁.storesOk := .ite (hh h) h
  have h₂ : s₂.storesOk := h₁.foldl fun h => hd (hh h)
  exact .ite (hd (hd h₂)) h₂

theorem State.storesOk.headerTwin {tag : W32} {rank first : Nat} (h : s.storesOk) : (s.headerTwin tag rank first).storesOk := by
  unfold State.headerTwin
  split
  · exact h
  extract_lets
  split
  · exact h.ensureRun.endBucket
  · exact h.ensureRun.modRunOf.twinFound.toRank

theorem State.storesOk.takeHeader {d : Bucket} {w : Nat} (h : s.storesOk) : (s.takeHeader d w).storesOk := by
  unfold State.takeHeader
  extract_lets _ _ _ _ s₁ _ _ _ s₂
  have h₁ : s₁.storesOk := h.openBucket
  have h₂ : s₂.storesOk := .ite h₁.modRunOf.twinRestored h₁
  exact .ite h (.ite h.count.event (.ite h (.ite h.count (.ite h₁ h₂.modRunOf.settleBucket))))

/-! Gather -/

theorem State.storesOk.modGather {tag : W32} {f : GatherRun → GatherRun} (h : s.storesOk) : (s.modGather tag f).storesOk := h.same rfl

theorem State.storesOk.settleGather {d : Bucket} (h : s.storesOk) : (s.settleGather d).storesOk := by
  unfold State.settleGather
  split
  · exact h
  extract_lets
  split
  · exact h
  split
  · exact h.endBucket
  · exact ((h.foldl fun h => h.writeMem).same (by rfl)).finishOp

theorem State.storesOk.sendMoves {part : Nat} {q : PermBlock} {me : Nat} (h : s.storesOk) : leavesStoresOk (s.sendMoves part q me) := by
  refine h.foldlM fun {s x} h => ?_
  obtain ⟨e, k⟩ := x
  dsimp only
  split
  · split
    · refine h.foldlM fun {s y} h => ?_
      obtain ⟨n, g, i⟩ := y
      dsimp only
      cases s.moveOut _ k n i g with
      | error => exact trivial
      | ok m => exact h.toRank
    · exact h
  · exact h

theorem State.storesOk.permuteMoves {d : Bucket} {q : PermBlock} {me : Nat} {data : List (Bucket × Except Status MoveData)} (h : s.storesOk) :
    leavesStoresOk (s.permuteMoves d q me data) := by
  unfold State.permuteMoves
  cases data.mapM (m := Except Status) _ with
  | error => exact trivial
  | ok ws =>
    have hm := h.sendMoves (part := d.part) (q := q) (me := me)
    dsimp only [bind, Except.bind]
    split
    · exact trivial
    · rename_i t e
      rw [e] at hm
      exact (State.storesOk.writeAll hm).modSeal

/-! Router -/

theorem State.storesOk.placeEntry {t e : Nat} (h : s.storesOk) : (s.placeEntry t e).1.storesOk := by
  unfold State.placeEntry
  extract_lets
  split
  · exact h
  split
  · exact h
  · exact (h.same (by rfl)).twinFound.twinRestored.paired

theorem State.storesOk.placement {t : Nat} (h : s.storesOk) : (s.placement t).1.storesOk := by
  refine State.storesOk.foldl₁ h fun {x e} h => ?_
  split
  · exact h
  split
  rename_i e
  exact .of_pair e (State.storesOk.placeEntry h)

theorem State.storesOk.route {filler : Bool} {t : Nat} {req : RouteReq} (h : s.storesOk) : (s.route filler t req).1.storesOk := by
  unfold State.route
  split
  · exact h
  split
  · exact h
  extract_lets d
  split
  rename_i s₁ _ e
  have h₁ : s₁.storesOk := .of_pair e h.placement
  split
  · exact h₁.twinFound
  split
  · exact h₁
  split
  · exact h₁
  split
  · exact h₁
  split
  · exact h₁
  extract_lets _ _ o _ s₂ s₃
  clear_value o
  have h₂ : s₂.storesOk := h₁.writeAll
  have h₃ : s₃.storesOk := h₂.count.count.count.count
  exact h₃.updated (by with_reducible rfl)

/-! Exchange -/

theorem State.storesOk.modExchange {tag : W32} {f : ExchangeRun → ExchangeRun} (h : s.storesOk) : (s.modExchange tag f).storesOk := h.same rfl

theorem State.storesOk.ensureExchange {tag : W32} (h : s.storesOk) : (s.ensureExchange tag).storesOk := by
  unfold State.ensureExchange
  split
  · exact h
  · exact h.same rfl

theorem State.storesOk.settleExchange {d : Bucket} (h : s.storesOk) : (s.settleExchange d).storesOk := by
  unfold State.settleExchange
  split
  · exact h
  extract_lets _ b f
  refine .ite h ?_
  split
  rename_i s₁ tab e
  have h₁ : s₁.storesOk := .of_pair e h.placement
  cases tab with
  | none => exact h₁.endBucket
  | some tab =>
    cases s₁.routeFacts b with
    | none => exact h₁.endBucket
    | some facts =>
      dsimp only
      split
      · exact h₁.endBucket
      · exact (h₁.writeAll.same (by rfl)).finishOp

theorem State.storesOk.takeSegment {d : Bucket} {w : Nat} {rows : List Byte} (h : s.storesOk) : (s.takeSegment d w rows).storesOk := by
  unfold State.takeSegment
  extract_lets _ _ s₁ _ _ s₂
  have h₁ : s₁.storesOk := h.ensureExchange
  have h₂ : s₂.storesOk := .ite h₁.twinRestored h₁
  exact .ite h (.ite h.endBucket h₂.modExchange.settleExchange)

/-! Seal -/

theorem State.storesOk.mapShadows {p : Nat} {f : Nat → Nat} (h : s.storesOk) : (s.mapShadows p f).storesOk := by
  refine h.foldl fun h => ?_
  split
  split
  · exact .ite h.putRec h
  · exact h

theorem State.storesOk.decisionEntry {p : Nat} {d : Decision} (h : s.storesOk) : (s.decisionEntry p d).storesOk := by
  unfold State.decisionEntry
  split
  · split
    · exact h.jnlEntry
    · exact h.jnlCode
  · exact h

theorem State.storesOk.applyCommit {r : StepRun} {gen : Nat} (h : s.storesOk) : (s.applyCommit r gen).storesOk := by
  unfold State.applyCommit
  extract_lets s₁ s₂ _ _ s₃ s₄ s₅ s₆
  have h₁ : s₁.storesOk := h.mapShadows
  have h₂ : s₂.storesOk := h₁.biasFlip
  have h₃ : s₃.storesOk := h₂.same rfl
  have h₄ : s₄.storesOk := h₃.modSeal
  have h₅ : s₅.storesOk := h₄.modPart
  have h₆ : s₆.storesOk := by
    unfold s₆
    split
    · split
      · exact h₅
      · exact h₅.jnlEntry
    · exact h₅
  exact h₆.completeStep

theorem State.storesOk.startNodes {filler : Bool} (h : s.storesOk) : (s.startNodes filler).storesOk := h.wakeAll.openLeaves.finishStep

theorem State.storesOk.finishAbort (h : s.storesOk) : s.finishAbort.storesOk := by
  unfold State.finishAbort
  split
  · exact h
  split
  · exact h
  split
  · exact h
  extract_lets _ s₁ _ s₂ s₃ s₄ _ s₅ s₆
  have h₁ : s₁.storesOk := h.mapShadows
  have h₂ : s₂.storesOk := h₁.writeAll
  have h₃ : s₃.storesOk := h₂.modSeal
  have h₄ : s₄.storesOk := by
    unfold s₄
    split
    · split
      · exact h₃
      · exact h₃.jnlCode
    · exact h₃
  have h₅ : s₅.storesOk := h₄.count.event
  have h₆ : s₆.storesOk := h₅.replayStep
  split
  · split
    · exact h₆
    · exact h₆.startNodes
  · exact h₅.completeStep

theorem State.storesOk.takeAbort {r : StepRun} {replay : Bool} {cause : Nat} (h : s.storesOk) : (s.takeAbort r replay cause).storesOk :=
  h.mapRun.finishAbort

theorem State.storesOk.abortIdle {p step cause : Nat} (h : s.storesOk) : (s.abortIdle p step cause).storesOk := by
  unfold State.abortIdle
  extract_lets s₁ s₂
  have h₁ : s₁.storesOk := h.mapShadows.modSeal
  have h₂ : s₂.storesOk := by
    unfold s₂
    split
    · exact h₁.jnlCode
    · exact h₁
  exact h₂.count.event

theorem State.storesOk.sendDecision {p r : Nat} {d : Decision} (h : s.storesOk) : (s.sendDecision p r d).storesOk := h.toRank

theorem State.storesOk.announce {p : Nat} {d : Decision} (h : s.storesOk) : (s.announce p d).storesOk := by
  unfold State.announce
  extract_lets
  split
  · split
    · exact h.decisionEntry.modSeal.foldl fun h => h.sendDecision
    · split
      · exact (h.decisionEntry.modSeal.foldl fun h => h.sendDecision).applyCommit
      · exact (h.decisionEntry.modSeal.foldl fun h => h.sendDecision).takeAbort
  · exact h.decisionEntry.modSeal.foldl fun h => h.sendDecision

theorem State.storesOk.decideAbort {p cause : Nat} (h : s.storesOk) : (s.decideAbort p cause).storesOk := h.modSeal.announce

theorem State.storesOk.vote {p : Nat} {v : SealVote} (h : s.storesOk) : (s.vote p v).storesOk := by
  unfold State.vote
  extract_lets
  split
  · split
    · exact h
    · exact h.sendDecision
  · split
    · exact h
    · split
      · exact h.modSeal.decideAbort
      · split
        · exact h.modSeal.decideAbort
        · split
          · exact h.modSeal.announce
          · exact h.modSeal

theorem State.storesOk.castVote {p : Nat} {v : SealVote} (h : s.storesOk) : (s.castVote p v).storesOk := by
  unfold State.castVote
  split
  · exact h.vote
  split
  · exact h.toRank
  · exact h.toRank

theorem State.storesOk.sealCrcs {p : Nat} (h : s.storesOk) : leavesStoresOk (s.sealCrcs p) := by
  refine h.foldlM fun {s x} h => ?_
  obtain ⟨n, off, wf⟩ := x
  dsimp only [bind, Except.bind]
  cases s.shardRec n off with
  | error => exact trivial
  | ok w =>
    dsimp only
    split
    · cases s.loadBytes _ _ with
      | error => exact trivial
      | ok bs => exact h.putRec
    · exact h

theorem State.storesOk.sendFail {p : Nat} {r : StepRun} {st : Status} (h : s.storesOk) : (s.sendFail p r st).storesOk := h.mapRun.castVote

theorem State.storesOk.prepare {p : Nat} {r : StepRun} (h : s.storesOk) : (s.prepare p r).storesOk := by
  unfold State.prepare
  split
  rename_i s₁ _ e
  have h₁ : s₁.storesOk := .of_pair e (.ite₁ h h.biasUpdate)
  refine .ite h₁.failStep.sendFail ?_
  have hc := h₁.sealCrcs (p := p)
  split
  · exact h₁.failStep.sendFail
  · rename_i s₂ e₂
    rw [e₂] at hc
    have h₂ : s₂.storesOk := hc
    extract_lets s₃ _ _ s₄
    have h₃ : s₃.storesOk := by
      unfold s₃
      split
      · exact h₂.jnlEntry
      · exact h₂
    have h₄ : s₄.storesOk := .ite (h₃.updated (by with_reducible rfl)) h₃
    exact h₄.mapRun.modSeal.castVote

theorem State.storesOk.rootHears {p rank t : Nat} {v : SealVote} (h : s.storesOk) : (s.rootHears p rank t v).storesOk := by
  unfold State.rootHears
  split
  · exact h
  · exact h.at.vote

/-! Sched -/

theorem State.storesOk.refuseStep {c : Cmd} {step : Nat} {st : Status} (h : s.storesOk) : (s.refuseStep c step st).storesOk := h.finish

theorem State.storesOk.beginStep {filler : Bool} {r : StepRun} (h : s.storesOk) : (s.beginStep filler r).storesOk := by
  unfold State.beginStep
  extract_lets s₁ _ s₂ s₃
  have h₁ : s₁.storesOk := h.accrue
  have h₂ : s₂.storesOk := .ite h₁ (h₁.same rfl)
  have h₃ : s₃.storesOk := h₂.modSeal
  exact h₃.setRun.startNodes

theorem State.storesOk.lsWrote {core : Nat} {rs : List (Nat × Nat)} (h : s.storesOk) : (s.lsWrote core rs).storesOk := h.same rfl

theorem State.storesOk.startItem {filler : Bool} {core i : Nat} {r : StepRun} {hdr : ItemHdr}
    (h : s.storesOk) : (s.startItem filler core i r hdr).storesOk := by
  unfold State.startItem
  extract_lets
  split
  · exact (h.same (by rfl)).mapRun.nodeEnd
  · exact (h.same (by rfl)).mapRun.setCore.lsWrote

theorem State.storesOk.resumeItem {core part : Nat} {u : Suspended} (h : s.storesOk) : (s.resumeItem core part u).storesOk := h.setCore

theorem State.storesOk.chooseMain {r : StepRun} {core : Nat} (h : s.storesOk) : (s.chooseMain r core).1.storesOk := by
  unfold State.chooseMain
  extract_lets
  split
  · exact h
  split
  · exact h
  extract_lets
  split
  · exact (h.foldl fun h => h.promote).paired
  split
  · exact (h.foldl fun h => h.promote).paired
  · exact (h.foldl fun h => h.promote).paired

theorem State.storesOk.startMain {core : Nat} (h : s.storesOk) : (s.startMain core).storesOk := by
  unfold State.startMain
  split
  · exact h
  refine .ite h ?_
  split
  · rename_i e
    exact .of_pair e h.chooseMain
  · rename_i e
    exact State.storesOk.startItem (.of_pair e h.chooseMain) |>.endPass

theorem State.storesOk.startFiller {core : Nat} (h : s.storesOk) : (s.startFiller core).storesOk := by
  unfold State.startFiller
  split
  · exact h
  split
  · exact h
  split
  · exact h.resumeItem
  split
  · exact h.startItem
  · exact h

theorem State.storesOk.endItem {i : Nat} {st : Status} (h : s.storesOk) : (s.endItem i st).storesOk := by
  unfold State.endItem
  extract_lets
  split
  · exact h
  · exact h.releaseCore.nodeEnd.finishAbort

theorem State.storesOk.backToReady {filler : Bool} {n : Nat} (h : s.storesOk) : (s.backToReady filler n).storesOk := h.mapRun

theorem State.storesOk.clearCluster {cluster : Nat} (h : s.storesOk) : (s.clearCluster cluster).storesOk := by
  refine h.fillerBack.foldl fun h => ?_
  extract_lets
  split
  · exact h.endItem
  · exact h.releaseCore
  · exact h

theorem State.storesOk.countRerun {n : Nat} (h : s.storesOk) : (s.countRerun n).storesOk := h.mapRun.count.addPace

theorem State.storesOk.rerunItem {i n : Nat} {hdr : ItemHdr} (h : s.storesOk) : (s.rerunItem i n hdr).storesOk := by
  unfold State.rerunItem
  split
  · exact h
  extract_lets
  split
  · exact h.countRerun.startItem
  · exact h.countRerun.backToReady

theorem State.storesOk.faultedItem {i : Nat} {c : Core} (h : s.storesOk) : (s.faultedItem i c).storesOk := by
  unfold State.faultedItem
  split
  · split
    · exact h
    · split
      · exact h.backToReady.finishAbort
      · split
        · exact h.nodeEnd.finishAbort
        · exact h.rerunItem
  · exact h.backToReady
  · exact h

theorem State.storesOk.chargeCore {i : Nat} (h : s.storesOk) : (s.chargeCore i).storesOk := by
  unfold State.chargeCore
  split
  · exact h.clearCluster.coreFault
  · exact h.coreFault.isolateIfEmpty

theorem State.storesOk.itemFault {i : Nat} (h : s.storesOk) : (s.itemFault i).storesOk := by
  unfold State.itemFault
  extract_lets
  split
  · exact h.chargeCore
  · exact h.releaseCore.chargeCore.faultedItem

theorem State.storesOk.chargeOnly {i : Nat} {st : Status} (h : s.storesOk) : (s.chargeOnly i st).storesOk := h.endItem.chargeCore

theorem State.storesOk.clusterFaulted {cluster : Nat} (h : s.storesOk) : (s.clusterFaulted cluster).storesOk := by
  unfold State.clusterFaulted
  extract_lets s₁
  have h₁ : s₁.storesOk := h.clearCluster
  exact h₁.clusterFault.endFailed

/-! Issue -/

theorem State.storesOk.endsWith {i : Nat} {st : Status} (h : s.storesOk) : (s.endsWith i st).storesOk := h.setCore

theorem State.storesOk.fetch {i : Nat} {spans : Core → W128 → Spans} (h : s.storesOk) : (s.fetch i spans).storesOk := by
  unfold State.fetch
  extract_lets
  split
  · exact h
  split
  · split
    · exact h.endsWith
    · exact h
  · split
    · exact h
    · split
      · exact h
      · exact h.setCore

theorem State.storesOk.coreEvent {i : Nat} {st : Status} {array : Option Nat} {args : List Nat} (h : s.storesOk) : (s.coreEvent i st array args).storesOk :=
  h.event

theorem State.storesOk.laneEvent {i : Nat} {f : LaneFail} (h : s.storesOk) : (s.laneEvent i f).storesOk := h.coreEvent

theorem State.storesOk.finishInstr {i : Nat} {e : WinEntry} {r : InstrEnd} (h : s.storesOk) : (s.finishInstr i e r).storesOk := by
  unfold State.finishInstr
  split
  · extract_lets _ _ s₁
    have h₁ : s₁.storesOk := .ite h h.count
    exact h₁.setCore.lsWrote.drew
  · exact h.endsWith
  · extract_lets s₁ s₂ s₃
    have h₁ : s₁.storesOk := h.setCore.drew
    have h₂ : s₂.storesOk := by
      unfold s₂
      split
      · exact h₁.laneEvent
      · exact h₁
    have h₃ : s₃.storesOk := .ite h₂.coreEvent h₂
    split
    · exact h₃.chargeOnly
    · exact h₃.endsWith
  · exact h.laneEvent.itemFault
  · exact h.itemFault

theorem State.storesOk.reports {x : Health} (h : s.storesOk) : (s.reports x).storesOk :=
  (h.foldl fun h => h.corrected).foldl fun h => h.uncorrectable

theorem State.storesOk.issue {i : Nat} {eng : Engine} {x : Health} {mine : W128 → Bool} {also : Core → W128 → Bool} {run : State → Core → WinEntry → InstrEnd}
    (h : s.storesOk) : (s.issue i eng x mine also run).storesOk := by
  unfold State.issue
  extract_lets
  split
  · exact h
  split
  · exact h
  split
  · exact h
  split
  · exact h.reports.itemFault
  · exact h.reports.finishInstr

/-! Steal -/

theorem State.storesOk.freeLs {i : Nat} {r : Span} (h : s.storesOk) : (s.freeLs i r).storesOk := h.setCore.drew.lsWrote

theorem State.storesOk.setGroup {g : StealGroup} (h : s.storesOk) : (s.setGroup g).storesOk := h.setCluster

theorem State.storesOk.dropGroup {owner : Nat} (h : s.storesOk) : (s.dropGroup owner).storesOk := h.setCluster

theorem State.storesOk.openGroup {i : Nat} {e : WinEntry} (h : s.storesOk) : (s.openGroup i e).storesOk := h.setCore.setCluster.freeLs

theorem State.storesOk.putPartials {cl : Nat} {g : StealGroup} {q : Nat} {parts : List (Nat × List Byte)}
    (h : s.storesOk) : (s.putPartials cl g q parts).storesOk :=
  h.writeAll.setGroup

theorem State.storesOk.settleGroup {i : Nat} (h : s.storesOk) : (s.settleGroup i).storesOk := by
  unfold State.settleGroup
  split
  · exact h
  extract_lets _ _ _ r
  cases r with
  | error => exact h.clusterFaulted
  | ok x => exact .ite h.setCore.lsWrote.setGroup h.setCore.lsWrote.dropGroup

theorem State.storesOk.ownerRange {i : Nat} {x : Health} {g : StealGroup} (h : s.storesOk) : (s.ownerRange i x g).storesOk := by
  unfold State.ownerRange
  extract_lets _ s₁ _ _
  have h₁ : s₁.storesOk := h.reports
  refine .ite h (.ite h.reports.itemFault ?_)
  split
  · exact h₁.putPartials.settleGroup
  · exact h₁.clusterFaulted
  · exact State.storesOk.endsWith (State.storesOk.dropGroup (.ite h₁.coreEvent h₁))
  · exact h₁.laneEvent.itemFault

theorem State.storesOk.stlSimple {i op : Nat} {f : Core → WinEntry → InstrEnd} (h : s.storesOk) : (s.stlSimple i op f).storesOk := h.issue

theorem State.storesOk.thiefFault {i owner : Nat} (h : s.storesOk) : (s.thiefFault i owner).storesOk := by
  unfold State.thiefFault
  exact h.releaseCore.faultedItem.itemFault

/-! Dma -/

theorem State.storesOk.putSide {i : Nat} {ls : Bool} {a : Nat} {bs : List Byte} (h : s.storesOk) : (s.putSide i ls a bs).storesOk := by
  unfold State.putSide
  split
  · exact h.setCore.lsWrote
  · exact h.writeMem

theorem State.storesOk.endMove {i : Nat} {e : WinEntry} (h : s.storesOk) : (s.endMove i e).storesOk := h.setCluster.setCore

/-! LinkExec -/

theorem State.storesOk.sendFrom {i : Nat} (h : s.storesOk) : (s.sendFrom i).storesOk := by
  unfold State.sendFrom
  split
  · exact h
  · exact h.setPort.count.same rfl

theorem State.storesOk.returnCredit {i : Nat} (h : s.storesOk) : (s.returnCredit i).storesOk := h.setPort.drew

theorem State.storesOk.takeCredit {i : Nat} (h : s.storesOk) : (s.takeCredit i).storesOk := h.setPort.drew

theorem State.storesOk.takePipeline {p : LinkPacket} (h : s.storesOk) : (s.takePipeline p).storesOk := by
  unfold State.takePipeline
  split
  · split
    · exact h
    · exact (h.same (by rfl)).startNodes
  · exact h

theorem State.storesOk.takePacket {i : Nat} {p : LinkPacket} (h : s.storesOk) : (s.takePacket i p).storesOk := by
  unfold State.takePacket
  extract_lets
  split
  · extract_lets _ s₁
    have h₁ : s₁.storesOk := .ite h.count h.count.setPort
    split
    · exact h₁
    · exact h₁.returnCredit
  · split
    · exact h.count.takeCredit
    · split
      · exact h.count.returnCredit.takePipeline
      · exact h.count.returnCredit

theorem State.storesOk.takeAckWord {i : Nat} {cw : Codeword} (h : s.storesOk) : (s.takeAckWord i cw).storesOk := by
  unfold State.takeAckWord
  split
  · extract_lets s₁ s₂
    have h₁ : s₁.storesOk := h.setPort
    have h₂ : s₂.storesOk := by
      unfold s₂
      split
      · extract_lets
        split
        · exact h₁.setPort.resend
        · exact h₁.setPort
      · exact h₁
    split
    · exact h₂.count
    · exact h₂

theorem State.storesOk.requestRetry {i : Nat} {again : Bool} (h : s.storesOk) : (s.requestRetry i again).storesOk := by
  unfold State.requestRetry
  extract_lets
  split
  · exact h.setPort.startRetrain
  · exact h.setPort

theorem State.storesOk.endRetry {i : Nat} (h : s.storesOk) : (s.endRetry i).storesOk := h.countRetry.setPort

theorem State.storesOk.deliverCodeword {i : Nat} {cw : Codeword} (h : s.storesOk) : (s.deliverCodeword i cw).storesOk := by
  unfold State.deliverCodeword
  extract_lets
  split
  · split
    · extract_lets _ s₁ s₂
      have h₁ : s₁.storesOk := .ite h.endRetry.setPort h.endRetry.setPort
      have h₂ : s₂.storesOk := h₁.foldl fun h => h.takePacket
      split
      · exact h₂.requestRetry
      · exact h₂

theorem State.storesOk.trainingEnd {i : Nat} {tr : PortTrain} (h : s.storesOk) : (s.trainingEnd i tr).storesOk := by
  unfold State.trainingEnd
  extract_lets since e s₁
  have he : e.state.storesOk := h.endTraining
  have h₁ : s₁.storesOk := by
    unfold s₁
    cases since
    · exact he
    · exact .ite he he.addRetry
  exact .ite h₁.portEvent.linkLost h₁

theorem State.storesOk.loseLane {i lane : Nat} (h : s.storesOk) : (s.loseLane i lane).storesOk := by
  unfold State.loseLane
  extract_lets _ _ _ s₁ s₂
  have h₁ : s₁.storesOk := h.setPort
  have h₂ : s₂.storesOk := .ite h₁.portEvent h₁
  split
  · extract_lets t₁ _ t₂
    have ht : t₂.storesOk := h.same rfl
    exact ht.portEvent
  · exact h₂.startRetrain

/-! Power -/

theorem State.storesOk.paceTo {t : Nat} (h : s.storesOk) : (s.paceTo t).storesOk := h.at.accrue

theorem State.storesOk.moduleStop {st : Status} (h : s.storesOk) : (s.moduleStop st).storesOk := h.note.powerLoss.same rfl

theorem State.storesOk.tripTile {t : Nat} {thermal : Bool} (h : s.storesOk) : (s.tripTile t thermal).storesOk := by
  unfold State.tripTile
  extract_lets _ _ _ s₁ _ _ s₂ s₃ s₄
  have h₂ : s₂.storesOk := { h with regs := regsWf_ite_regAdd _ _ h.regs }
  have h₃ : s₃.storesOk := h₂.event.endTile
  have h₄ : s₄.storesOk := .ite h₃.isolateTile h₃
  exact h₄.endFailed.settle

theorem State.storesOk.boostCheck {t : Nat} (h : s.storesOk) : (s.boostCheck t).storesOk := by
  unfold State.boostCheck
  extract_lets
  split
  · exact h.modRail
  split
  · exact h.modRail
  · exact h.modRail

theorem State.storesOk.stretch {t : Nat} (h : s.storesOk) : (s.stretch t).storesOk := by
  unfold State.stretch
  extract_lets
  split
  · exact h.modRail.drew
  split
  · exact h.modRail
  split
  · exact h.modRail.drew
  split
  · exact h.modRail
  · exact h.modRail

theorem State.storesOk.measured {rail : RailId} {x : RailReading} (h : s.storesOk) : (s.measured rail x).storesOk := by
  unfold State.measured
  split
  · exact h.modRail
  · exact h.same rfl

theorem State.storesOk.coreSample {k : Tile} {x : RailReading} (h : s.storesOk) : (s.coreSample k x).storesOk := by
  unfold State.coreSample
  extract_lets
  split
  · exact h.tripTile
  split
  · exact h.measured.boostCheck
  · exact h.measured.boostCheck.stretch

theorem State.storesOk.thermalCycle {t : Nat} (h : s.storesOk) : (s.thermalCycle t).storesOk := by
  unfold State.thermalCycle
  extract_lets
  split
  · exact (h.same (by rfl)).mapIslands
  · exact h.same rfl

theorem State.storesOk.islandReading {i : Nat} {temp : Int} (h : s.storesOk) : (s.islandReading i temp).storesOk := by
  unfold State.islandReading
  extract_lets
  split
  · extract_lets s₁ s₂ _ s₃
    have h₁ : s₁.storesOk := h.modIsland
    have h₂ : s₂.storesOk := .ite h₁.thermalCycle h₁
    have h₃ : s₃.storesOk := .ite h₂.event.count h₂
    split
    · split
      · exact h₃.moduleStop
      · split
        · exact h₃
        · exact h₃.tripTile
    · split
      · exact h₃.boostCheck
      · exact h₃

theorem State.storesOk.stackReading {k : Nat} {temp : Int} (h : s.storesOk) : (s.stackReading k temp).storesOk := by
  unfold State.stackReading
  extract_lets _ _ _ s₁ s₂
  have h₁ : s₁.storesOk := h.same rfl
  have h₂ : s₂.storesOk := .ite h₁.event h₁
  split
  · exact h₂.tripTile
  · exact h₂

/-! Reliab -/

theorem State.storesOk.isolateNow {t : Nat} (h : s.storesOk) : (s.isolateNow t).storesOk := h.isolateTile.endFailed.settle

theorem State.storesOk.internalError {t : Nat} (h : s.storesOk) : (s.internalError t).storesOk := by
  unfold State.internalError
  split
  · exact h
  split
  · exact h.isolateNow
  · exact h.same rfl

/-! Step -/

theorem State.storesOk.idle (h : s.storesOk) : s.idle.storesOk := (h.same (by rfl)).drainPort.drainPort

end

/-! Every command. -/

section

variable {s : State}

/-- If the outcome is a next state, its stores are in canonical form. -/
def nextStoresOk : Host.Outcome State Fault Refusal → Prop
  | .next t => t.storesOk
  | _ => True

theorem State.storesOk.withPins {x : Pins} {y : Tap} (h : s.storesOk) : ({ s with pins := x, tap := y } : State).storesOk := h.same rfl

theorem nextStoresOk_execModPwrEnRise {slot : BitVec 4} {good : Bool} {t : Nat} (h : s.storesOk) : nextStoresOk (execModPwrEnRise slot good t s) := by
  unfold execModPwrEnRise
  split
  · exact h
  extract_lets _ s₁ _ s₂
  have h₁ : s₁.storesOk := h.atWall
  have h₂ : s₂.storesOk := h₁.same rfl
  split
  · exact h₂
  split
  · exact State.storesOk.powerUp (h₂.same rfl)
  · exact h₂.same rfl

theorem nextStoresOk_execModPwrEnFall {t : Nat} (h : s.storesOk) : nextStoresOk (execModPwrEnFall t s) := by
  unfold execModPwrEnFall
  extract_lets s₁
  have h₁ : s₁.storesOk := h.atWall.powerLoss
  split
  · exact h
  · exact h₁.same rfl

theorem nextStoresOk_execInputUndervoltage {mv ns t : Nat} (h : s.storesOk) : nextStoresOk (execInputUndervoltage mv ns t s) := by
  unfold execInputUndervoltage
  extract_lets s₁
  have h₁ : s₁.storesOk := h.atWall.powerLoss
  split
  · exact h₁.same rfl
  · exact h

theorem nextStoresOk_execBrownoutRide {mv ns : Nat} (h : s.storesOk) : nextStoresOk (execBrownoutRide mv ns s) := by
  unfold execBrownoutRide
  split
  · exact h.note.same rfl
  · exact h

theorem nextStoresOk_execModResetNLow {lowNs t : Nat} (h : s.storesOk) : nextStoresOk (execModResetNLow lowNs t s) := by
  unfold execModResetNLow
  split
  · exact h
  extract_lets s₁ _ s₂
  have h₁ : s₁.storesOk := h.atWall
  have h₂ : s₂.storesOk := h₁.same rfl
  split
  · exact h₂.coldReset
  · exact h₂

theorem nextStoresOk_execModWarmN {lowNs t : Nat} (h : s.storesOk) : nextStoresOk (execModWarmN lowNs t s) := by
  unfold execModWarmN
  extract_lets s₁ _ s₂ _ s₃
  have h₁ : s₁.storesOk := h.atWall
  have h₂ : s₂.storesOk := h₁.same rfl
  have h₃ : s₃.storesOk := .ite h₂.coldReset h₂.requestWarm
  split
  · exact h₂.same rfl
  split
  · exact h₂
  · exact h₃.same rfl

theorem nextStoresOk_execLeakTrip (h : s.storesOk) : nextStoresOk (execLeakTrip s) := by
  unfold execLeakTrip
  split
  · exact h.leakTrip
  · exact h

theorem nextStoresOk_execStartUp {r : StartReport} (h : s.storesOk) : nextStoresOk (execStartUp r s) := by
  unfold execStartUp
  split
  · exact h.startUp
  · exact h

theorem nextStoresOk_execStartTimeout {step : Nat} {units : List Nat} (h : s.storesOk) : nextStoresOk (execStartTimeout step units s) := by
  unfold execStartTimeout
  split
  · exact h
  split
  · have hs := h.upTo (n := step)
    generalize s.upTo step = x at hs ⊢
    cases x with
    | error t => exact hs
    | ok t => exact State.storesOk.haltWith (s := t) hs
  · exact h.same rfl

theorem nextStoresOk_execEthPortRetry {port : Fin 2} {up : Bool} (h : s.storesOk) : nextStoresOk (execEthPortRetry port up s) := by
  unfold execEthPortRetry
  split
  · exact h.ethLink
  · exact h

theorem nextStoresOk_execEthLinkChange {port : Fin 2} {seen : EthSeen} (h : s.storesOk) : nextStoresOk (execEthLinkChange port seen s) := by
  unfold execEthLinkChange
  split
  · exact h.ethLink.setEth
  · exact h

theorem nextStoresOk_execClearFaults {target : SmbTarget} (h : s.storesOk) : nextStoresOk (execClearFaults target s) := by
  unfold execClearFaults
  split
  · exact h.emit
  split
  · exact h.smbRefuse
  · exact h.releaseAlerts.same rfl

theorem nextStoresOk_execSmbusOtherWrite {addr : BitVec 7} {cmd : Byte} (h : s.storesOk) : nextStoresOk (execSmbusOtherWrite addr cmd s) := by
  unfold execSmbusOtherWrite
  split
  · exact h.smbRefuse
  · exact h.emit

theorem nextStoresOk_execBypass (h : s.storesOk) : nextStoresOk (execBypass s) := by
  unfold execBypass
  split
  · exact h.tapBypass
  · exact h

theorem nextStoresOk_execIdcode (h : s.storesOk) : nextStoresOk (execIdcode s) := by
  unfold execIdcode
  split
  · exact h.loadIr
  · exact h

theorem nextStoresOk_execSamplePreload {sample preload : List Bool} (h : s.storesOk) : nextStoresOk (execSamplePreload sample preload s) := by
  unfold execSamplePreload
  extract_lets s₁
  have h₁ : s₁.storesOk := h.loadIr
  split
  · exact h₁.same rfl
  · exact h

theorem nextStoresOk_execUnitTestInstruction {unit : Nat} (h : s.storesOk) : nextStoresOk (execUnitTestInstruction unit s) := by
  unfold execUnitTestInstruction
  split
  · exact h
  split
  · exact trivial
  · exact h.tapBypass

theorem nextStoresOk_execUnlockChallenge (h : s.storesOk) : nextStoresOk (execUnlockChallenge s) := by
  unfold execUnlockChallenge
  split
  · exact h.loadIr
  · exact h

theorem nextStoresOk_execUnlockToken {bytes : List Byte} (h : s.storesOk) : nextStoresOk (execUnlockToken bytes s) := by
  unfold execUnlockToken
  split
  · exact h
  extract_lets _ s₁
  have h₁ : s₁.storesOk := .ite h.note h.note.count
  exact (h₁.same (by rfl)).drew

theorem nextStoresOk_execTrstN {low : Bool} (h : s.storesOk) : nextStoresOk (execTrstN low s) := by
  unfold execTrstN
  extract_lets
  split
  · exact (h.same (by rfl)).same rfl
  · exact h.same rfl

theorem nextStoresOk_execSlotWriteComplete {c : CoreId} {array : ArrayIx} {slot : Fin 8}
    (h : s.storesOk) : nextStoresOk (execSlotWriteComplete c array slot s) := by
  unfold execSlotWriteComplete
  extract_lets
  split
  · exact h
  · exact h.setCore

theorem nextStoresOk_execDmv {c : CoreId} {x : Health} (h : s.storesOk) : nextStoresOk (execDmv c x s) := by
  unfold execDmv
  extract_lets
  split
  · exact h
  split
  · exact h
  split
  · exact h.reports.itemFault
  split
  · exact h.reports.endsWith
  split
  · exact h.reports.itemFault
  · exact h.reports.setCluster.setCore

/-- The moves of one command, each of which keeps the canonical form. -/
theorem Moving.storesOk_foldl {α : Type} {f : Moving → α → Moving} {xs : List α} {x : Moving} (h : x.s.storesOk)
    (hf : ∀ {x : Moving} {a : α}, x.s.storesOk → (f x a).s.storesOk) : (xs.foldl f x).s.storesOk := by
  induction xs generalizing x with
  | nil => exact h
  | cons a xs ih => exact ih (hf h)

theorem State.storesOk.moveBytes {i : Nat} {m : Move} (h : s.storesOk) : (s.moveBytes i m).s.storesOk := by
  unfold State.moveBytes
  extract_lets r
  have hr : r.s.storesOk := by
    refine Moving.storesOk_foldl h fun h => ?_
    split
    · exact h
    split
    · exact h
    · exact h.putSide
  split
  · exact hr
  · exact hr.same rfl

theorem Moving.storesOk_tile {x : Moving} {i : Nat} {m : Move} {f : Fmt} {r c : Nat} (h : x.s.storesOk) : (x.tile i m f r c).s.storesOk := by
  unfold Moving.tile
  extract_lets _ entry
  clear_value entry
  split
  · exact h
  split
  split
  · exact h
  split
  · exact h
  split
  · exact h
  extract_lets s₁
  have h₁ : s₁.storesOk := h.putSide
  split
  · exact h₁
  · exact h₁.putSide

theorem State.storesOk.moveTiles {i : Nat} {m : Move} (h : s.storesOk) : (s.moveTiles i m).s.storesOk := by
  unfold State.moveTiles
  extract_lets
  split
  · exact h
  · exact h
  · refine Moving.storesOk_foldl h fun h => ?_
    split
    · exact h
    · exact Moving.storesOk_tile h

theorem nextStoresOk_execDmvComplete {c : CoreId} {index : Nat} (h : s.storesOk) : nextStoresOk (execDmvComplete c index s) := by
  unfold execDmvComplete
  extract_lets
  split
  · exact h
  split
  · exact h
  extract_lets _ x s₁
  have hx : x.s.storesOk := by
    unfold x
    split
    · exact h.moveBytes
    · exact h.moveTiles
  have h₁ : s₁.storesOk := hx.endMove
  split
  · exact h₁
  · exact h₁.itemFault
  · exact h₁.clusterFaulted
  · exact (State.storesOk.ite h₁.coreEvent h₁).endsWith

theorem nextStoresOk_execSyn {c : CoreId} {w : SynWait} (h : s.storesOk) : nextStoresOk (execSyn c w s) := by
  unfold execSyn
  extract_lets
  split
  · exact h
  split
  · exact h
  · exact h.countHold.setCore

theorem nextStoresOk_execHold {c : CoreId} {held : HeldSyn} (h : s.storesOk) : nextStoresOk (execHold c held s) := by
  unfold execHold
  extract_lets
  split
  · split
    · exact h
    · exact h.at.setCore
  · exact h

theorem nextStoresOk_execStlOpen {c : CoreId} {x : Health} (h : s.storesOk) : nextStoresOk (execStlOpen c x s) := by
  unfold execStlOpen
  extract_lets
  split
  · exact h.ownerRange
  split
  · exact h
  split
  · exact h
  split
  · exact h.reports.itemFault
  split
  · exact h.reports.endsWith
  split
  · exact h.reports.itemFault
  · exact h.reports.openGroup

theorem nextStoresOk_execSteal {c : CoreId} {x : Health} (h : s.storesOk) : nextStoresOk (execSteal c x s) := by
  unfold execSteal
  extract_lets
  split
  · exact h
  split
  · exact h
  split
  · exact h.reports.thiefFault
  extract_lets
  split
  · exact h.reports.putPartials.setCore.setCore.freeLs.settleGroup
  · exact h.reports.clusterFaulted
  · extract_lets s₁
    have h₁ : s₁.storesOk := .ite h.reports.coreEvent h.reports
    exact h₁.dropGroup.endsWith
  · exact h.reports.laneEvent.thiefFault

theorem nextStoresOk_execTreeAddition {c : CoreId} (h : s.storesOk) : nextStoresOk (execTreeAddition c s) := by
  unfold execTreeAddition
  extract_lets
  split
  · exact h
  split
  · exact h
  split
  · exact h
  extract_lets
  split
  · exact h.writeMem.setGroup.settleGroup
  · exact h.clusterFaulted

theorem nextStoresOk_execWorkItemStart {c : CoreId} {filler : Bool} {t : Nat} (h : s.storesOk) : nextStoresOk (execWorkItemStart c filler t s) := by
  unfold execWorkItemStart
  split
  · exact h
  split
  · exact h.at.startFiller
  · exact h.at.startMain

theorem nextStoresOk_execWorkItemComplete {c : CoreId} {t : Nat} (h : s.storesOk) : nextStoresOk (execWorkItemComplete c t s) := by
  unfold execWorkItemComplete
  extract_lets
  split
  · exact h
  split
  · exact h.at.endItem
  split
  · exact h.at.endItem
  · exact h

theorem nextStoresOk_execItemWatchdog {c : CoreId} {t : Nat} (h : s.storesOk) : nextStoresOk (execItemWatchdog c t s) := by
  unfold execItemWatchdog
  extract_lets
  split
  · exact h
  · exact h.at.endItem

theorem nextStoresOk_execFillerPreempt {tile : Tile} {cluster : Cluster} (h : s.storesOk) : nextStoresOk (execFillerPreempt tile cluster s) := by
  unfold execFillerPreempt
  extract_lets
  split
  · exact h
  split
  · exact h.preempt
  · exact h

theorem nextStoresOk_execRouteRequest {tile : Tile} (h : s.storesOk) : nextStoresOk (execRouteRequest tile s) := by
  unfold execRouteRequest
  split
  · exact h
  split
  · exact h
  split
  · exact h
  extract_lets
  split
  rename_i s₁ _ e
  have h₁ : s₁.storesOk := .of_pair e (h.same (by rfl)).admitRoutes.route
  exact h₁.nodeEnd

theorem nextStoresOk_execPlacementBuild (h : s.storesOk) : nextStoresOk (execPlacementBuild s) := by
  unfold execPlacementBuild
  split
  · exact h
  · exact h.same rfl

theorem nextStoresOk_execBiasUpdate {part : Nat} {others : List DemandMsg} (h : s.storesOk) : nextStoresOk (execBiasUpdate part others s) := by
  unfold execBiasUpdate
  split
  · split
    · exact h
    · split
      rename_i s₁ _ e
      have h₁ : s₁.storesOk := .of_pair e h.biasUpdate
      split
      · exact h₁
      · exact h₁.failStep
  · exact h

theorem nextStoresOk_execExchange {tag : W32} (h : s.storesOk) : nextStoresOk (execExchange tag s) := by
  unfold execExchange
  split
  · split
    · exact h
    · split
      · exact h.endBucket
      · extract_lets
        split
        rename_i s₁ _ e
        have h₁ : s₁.storesOk := .of_pair e h.placement
        split
        · exact h₁.endBucket
        · exact h₁.endBucket
        · split
          · exact h₁.endBucket
          · split
            · exact h₁.endBucket
            · exact (h₁.ensureExchange.modExchange.foldl fun h => h.toRank).settleExchange
  · exact h

theorem nextStoresOk_execSegment {tag : W32} {bytes : List Byte} (h : s.storesOk) : nextStoresOk (execSegment tag bytes s) := by
  unfold execSegment
  split
  · split
    · exact h
    · split
      · exact h.count
      · split
        · exact h.takeSegment
        · extract_lets
          split
          · exact h.ensureExchange.endBucket
          · exact h.ensureExchange.modExchange.twinFound.toRank
  · exact h

theorem nextStoresOk_execRankValueReady {tag : W32} {t : Nat} (h : s.storesOk) : nextStoresOk (execRankValueReady tag t s) := by
  unfold execRankValueReady
  extract_lets
  split
  · extract_lets
    split
    · exact h
    split
    · exact h.at.accrue.endBucket
    split
    · exact h.at.accrue.endBucket
    extract_lets
    split
    · exact h.at.accrue.openBucket.modRunOf.sendValue.settleBucket.openLeaves
  · exact h

theorem nextStoresOk_execContributionHeader {word : W512} {t : Nat} (h : s.storesOk) : nextStoresOk (execContributionHeader word t s) := by
  unfold execContributionHeader
  split
  · exact h
  extract_lets
  split
  · exact h.at.headerTwin
  split
  · split
    · exact h.at.takeHeader
    · exact h.at
  · exact h.at

theorem nextStoresOk_execBucketDeadline {tag : W32} {t : Nat} (h : s.storesOk) : nextStoresOk (execBucketDeadline tag t s) := by
  unfold execBucketDeadline
  split
  · extract_lets
    split
    · exact h
    · exact h.at.fixMask.settleBucket
  · exact h

theorem nextStoresOk_execMask {tag step : W32} {bytes : List Byte} (h : s.storesOk) : nextStoresOk (execMask tag step bytes s) := by
  unfold execMask
  split
  · exact h
  split
  · exact h
  · exact h.ensureRun.modRunOf.settleBucket

theorem nextStoresOk_execContributionData {tag : W32} {rank first : Nat} {bytes : List Byte}
    (h : s.storesOk) : nextStoresOk (execContributionData tag rank first bytes s) := by
  unfold execContributionData
  split
  · exact h
  extract_lets
  split
  · exact h
  split
  · exact h.count
  split
  · exact h.endBucket
  · exact h.ensureRun.modRunOf.settleBucket

theorem nextStoresOk_execParamGather {tag : W32} (h : s.storesOk) : nextStoresOk (execParamGather tag s) := by
  unfold execParamGather
  split
  · split
    · exact h
    · split
      · exact h.endBucket
      · extract_lets
        split
        · exact h.endBucket
        split
        · exact h.count.endBucket
        · exact ((h.same (by rfl)).foldl fun h => (h.foldl fun h => h.toRank)).settleGather
  · exact h

theorem nextStoresOk_execGatherShard {tag : W32} {unit : Nat} {version crc : W32} {bytes : List Byte}
    (h : s.storesOk) : nextStoresOk (execGatherShard tag unit version crc bytes s) := by
  unfold execGatherShard
  split
  · split
    · split
      · exact h
      · split
        · exact h.endBucket
        · split
          · extract_lets
            split
            · exact h.endBucket
            · exact h.modGather.count.toRank
          · exact h.modGather.settleGather
  · split
    · exact h.count
    · exact h
  · exact h

theorem leavesStoresOk.of_ok {ε : Type} {x : Except ε State} {t : State} (e : x = .ok t) (h : leavesStoresOk x) : t.storesOk := by
  rw [e] at h; exact h

theorem nextStoresOk_execPermute {tag : W32} {moves : List MoveData} (h : s.storesOk) : nextStoresOk (execPermute tag moves s) := by
  unfold execPermute
  split
  · split
    · exact h
    split
    · extract_lets
      split
      · exact h.endBucket
      split
      · exact h.endBucket
      · exact h.endBucket
    extract_lets q p s₁ _ _ me
    have h₁ : s₁.storesOk := .ite h.modSeal h
    clear_value s₁
    split
    · exact h.endBucket
    split
    · exact h.endBucket
    split
    · split
      · exact h₁.endBucket
      · rename_i t e
        exact State.storesOk.finishOp (leavesStoresOk.of_ok e h₁.permuteMoves)
    · exact h₁
  · exact h

theorem nextStoresOk_execPrepare {part : Nat} (h : s.storesOk) : nextStoresOk (execPrepare part s) := by
  unfold execPrepare
  split
  · exact h
  split
  · exact h
  split
  · exact h.sendFail
  split
  · exact h.prepare
  · exact h

theorem nextStoresOk_execSealTimeout {part t : Nat} (h : s.storesOk) : nextStoresOk (execSealTimeout part t s) := by
  unfold execSealTimeout
  split
  · split
    · exact h
    · exact h.at.decideAbort
  · exact h

theorem nextStoresOk_execCommit {part step gen : Nat} (h : s.storesOk) : nextStoresOk (execCommit part step gen s) := by
  unfold execCommit
  split
  · split
    · exact h
    · exact h.applyCommit
  · exact h

theorem nextStoresOk_execAbort {part step : Nat} {replay : Bool} {cause : W16} (h : s.storesOk) : nextStoresOk (execAbort part step replay cause s) := by
  unfold execAbort
  split
  · split
    · exact h
    · exact h.takeAbort
  · extract_lets
    split
    · exact h
    · exact h.abortIdle

theorem nextStoresOk_execSealDecisionTimeout {part : Nat} {ask : DecisionAsk} (h : s.storesOk) : nextStoresOk (execSealDecisionTimeout part ask s) := by
  unfold execSealDecisionTimeout
  split
  · split
    · split
      · exact h
      · exact h.at.toRank
    · exact h
  · split
    · exact h
    · split
      · exact h.at.sendDecision
      · exact h.at

theorem nextStoresOk_execSealRootLost {part t : Nat} (h : s.storesOk) : nextStoresOk (execSealRootLost part t s) := by
  unfold execSealRootLost
  split
  · split
    · exact h
    · exact h.at.modPart.completeStep
  · exact h

theorem nextStoresOk_execPatrolScrub {addr : Nat} {found : ScrubFound} (h : s.storesOk) : nextStoresOk (execPatrolScrub addr found s) := by
  unfold execPatrolScrub
  split
  · exact h
  extract_lets
  split
  · exact h.same rfl
  · exact (h.same (by rfl)).corrected
  · exact (h.same (by rfl)).corrected
  · split
    · exact (h.same (by rfl)).uncorrectable.isolateNow
    · exact (h.same (by rfl)).uncorrectable

theorem nextStoresOk_execDramRefresh {stack : Nat} (h : s.storesOk) : nextStoresOk (execDramRefresh stack s) := by
  unfold execDramRefresh
  split
  · exact h
  · exact h.same rfl

theorem nextStoresOk_execOpenKey {f : Frame} {t : Nat} (h : s.storesOk) : nextStoresOk (execOpenKey f t s) := by
  refine h.ctrlIn fun h => ?_
  extract_lets _ _ _ s₁
  have h₁ : s₁.storesOk := h.same rfl
  split
  · exact h₁.sendUnauth
  · exact h₁.sendUnauth
  · exact (h₁.same (by rfl)).recordTime.setSession.sendFrame

theorem nextStoresOk_execRetransmit {sess t : Nat} (h : s.storesOk) : nextStoresOk (execRetransmit sess t s) := by
  unfold execRetransmit
  extract_lets
  split
  · exact h.at
  split
  · exact h.at.endSession.note
  · exact h.at.setSession.count.foldl fun h => h.sendFrame

theorem nextStoresOk_execCmpIdleTimeout {sess t : Nat} (h : s.storesOk) : nextStoresOk (execCmpIdleTimeout sess t s) := by
  unfold execCmpIdleTimeout
  extract_lets
  split
  · exact h.at.endSession
  · exact h.at

theorem nextStoresOk_execIngestData {f : Frame} {t : Nat} (h : s.storesOk) : nextStoresOk (execIngestData f t s) := by
  refine h.at.frameIn fun h => ?_
  extract_lets
  split
  · exact h.dropFrame
  split
  · exact h.count
  split
  · exact h.count
  extract_lets _ s₁
  have h₁ : s₁.storesOk := h.setStream
  split
  · exact h₁.setStream.count
  split
  · exact h₁.refuseIngest
  split
  · exact h₁.refuseIngest
  split
  · exact h₁.ingestFrame
  split
  extract_lets s₂
  have h₂ : s₂.storesOk := h₁.setVetch.vetchDone
  split
  · exact h₂.ingestFrame
  · exact h₂.refuseIngest

theorem nextStoresOk_execCredit {stream t : Nat} (h : s.storesOk) : nextStoresOk (execCredit stream t s) := by
  unfold execCredit
  extract_lets
  split
  · split
    · exact h.at.sendCredit
    · exact h.at
  · exact h.at

theorem nextStoresOk_execPfcFrame {port : Fin 2} {times : List (Nat × Nat)} {t : Nat} (h : s.storesOk) : nextStoresOk (execPfcFrame port times t s) := by
  unfold execPfcFrame
  extract_lets
  split
  · exact h.at
  · exact h.at.count.setEth.flushPaused

theorem nextStoresOk_execIcmpEcho {f : Frame} (h : s.storesOk) : nextStoresOk (execIcmpEcho f s) := by
  unfold execIcmpEcho
  split
  · exact h
  extract_lets
  split
  · exact h.flow.countFrame
  split
  · exact h.flow.countFrame.sendUdp
  · exact h.flow.countFrame.dropFrame

theorem nextStoresOk_execNeighbourResolution {port : Fin 2} {sender : NeighbourFrom} {mac : BitVec 48} {asked : Option Addr}
    (h : s.storesOk) : nextStoresOk (execNeighbourResolution port sender mac asked s) := by
  unfold execNeighbourResolution
  split
  · exact h
  extract_lets
  split
  · exact h.count.count
  split
  · split
    · exact h.count.resolved.sendRaw
    · exact h.count.resolved
  · exact h.count.resolved

theorem nextStoresOk_execLoadPartition {jseq : Nat} (h : s.storesOk) : nextStoresOk (execLoadPartition jseq s) := by
  unfold execLoadPartition
  split
  · split
    · exact h.runQueued fun h => h.loadPartition.finishWith
    · exact h
  · exact h

theorem nextStoresOk_execStepRun {jseq : Nat} (h : s.storesOk) : nextStoresOk (execStepRun jseq s) := by
  unfold execStepRun
  split
  · exact h
  split
  · exact h
  refine h.runQueued fun h => ?_
  refine .ite h.complete ?_
  extract_lets
  split
  · exact h.refuseStep
  · exact h.beginStep

theorem nextStoresOk_execCodeword {port : Fin 8} {cw : Codeword} {wrongData wrongParity t : Nat} (h : s.storesOk) :
    nextStoresOk (execCodeword port cw wrongData wrongParity t s) := by
  unfold execCodeword
  extract_lets _ _ s₁ _ s₂ s₃ s₄ s₅
  split
  · exact h
  have h₁ : s₁.storesOk := h.at.accrue
  have h₃ : s₃.storesOk := .ite h₁.count h₁
  have h₄ : s₄.storesOk := h₃.takeAckWord
  have h₅ : s₅.storesOk := .ite h₄.deliverCodeword h₄.requestRetry
  split
  · exact h₁.count.setPort.requestRetry.sendFrom
  · exact h₅.sendFrom

theorem nextStoresOk_execLinkPacket {port : Fin 8} {p : LinkPacket} {t : Nat} (h : s.storesOk) : nextStoresOk (execLinkPacket port p t s) := by
  unfold execLinkPacket
  split
  · exact h
  · exact h.at.takePacket

theorem nextStoresOk_execAckStall {port : Fin 8} {t : Nat} (h : s.storesOk) : nextStoresOk (execAckStall port t s) := by
  unfold execAckStall
  extract_lets
  split
  · exact h
  · exact h.at.accrue.startRetrain

theorem nextStoresOk_execLinkRetrain {port : Fin 8} {tr : PortTrain} {t : Nat} (h : s.storesOk) : nextStoresOk (execLinkRetrain port tr t s) := by
  unfold execLinkRetrain
  extract_lets
  split
  · exact h
  split
  · exact h.at.accrue.startRetrain
  · exact h.at.accrue.trainingEnd
  · exact h.at.accrue.trainingEnd
  · exact h

theorem nextStoresOk_execLinkDown {port : Fin 8} {t : Nat} (h : s.storesOk) : nextStoresOk (execLinkDown port t s) := by
  unfold execLinkDown
  extract_lets
  split
  · exact h
  · exact h.at.accrue.countRetry.setPort.portEvent.linkLost

theorem nextStoresOk_execPortDownRetry {port : Fin 8} {tr : PortTrain} (h : s.storesOk) : nextStoresOk (execPortDownRetry port tr s) := by
  unfold execPortDownRetry
  extract_lets
  split
  · exact h
  · exact h.trainingEnd

theorem nextStoresOk_execWeakLane {port : Fin 8} {lane : Fin 18} {corrected : Nat} {lostLock : Bool} {t : Nat}
    (h : s.storesOk) : nextStoresOk (execWeakLane port lane corrected lostLock t s) := by
  unfold execWeakLane
  extract_lets
  split
  · exact h
  split
  · exact h.at.accrue.loseLane
  · exact h.at.accrue

theorem nextStoresOk_execRailSample {rail : RailId} {reading : RailReading} {t : Nat} (h : s.storesOk) : nextStoresOk (execRailSample rail reading t s) := by
  unfold execRailSample
  split
  · exact h
  extract_lets
  split
  · exact h.paceTo
  split
  · exact h.paceTo.coreSample
  · extract_lets
    split
    · exact h.paceTo.measured.tripTile
    · exact h.paceTo.measured
  · split
    · exact h.paceTo.measured.moduleStop
    · exact h.paceTo.measured
  · exact h.paceTo.measured

theorem nextStoresOk_execIslandSensor {sensor : Sensor} {temp : Int} {t : Nat} (h : s.storesOk) : nextStoresOk (execIslandSensor sensor temp t s) := by
  unfold execIslandSensor
  split
  · exact h
  extract_lets
  split
  · exact h.paceTo.islandReading
  · exact h.paceTo.stackReading

theorem nextStoresOk_execBoost {tile : Tile} {t : Nat} (h : s.storesOk) : nextStoresOk (execBoost tile t s) := by
  unfold execBoost
  split
  · exact h
  extract_lets
  split
  · exact h.paceTo.boostCheck.modRail.boostCheck
  · exact h.paceTo.boostCheck

theorem State.storesOk.withPower {x : Power} (h : s.storesOk) : ({ s with power := x } : State).storesOk := h.same rfl

theorem State.storesOk.withReadings {x : Readings} {y : Power} (h : s.storesOk) : ({ s with readings := x, power := y } : State).storesOk := h.same rfl

/-- The ceiling's step on the rails (R538): down, up, or none. -/
theorem State.storesOk.ceilingStep {p q : Prop} [Decidable p] [Decidable q] {f g : Nat → Rail → Rail} {x y : Power} (h : s.storesOk) :
    (if p then { s.mapRails f with power := x } else if q then { s.mapRails g with power := y } else s : State).storesOk :=
  .ite h.mapRails.withPower (.ite h.mapRails.withPower h)

theorem nextStoresOk_execPowerCeiling {r : Readings} {t : Nat} (h : s.storesOk) : nextStoresOk (execPowerCeiling r t s) := by
  unfold execPowerCeiling
  split
  · exact h
  refine State.storesOk.foldl (f := State.boostCheck) ?_ fun h => h.boostCheck
  split
  · exact h.paceTo.withReadings.ceilingStep.withPower
  split
  · exact h.paceTo.withReadings.ceilingStep.withPower
  split
  · exact h.paceTo.withReadings.ceilingStep.withPower.note
  · exact h.paceTo.withReadings.ceilingStep

theorem nextStoresOk_execEnergyUpdate {u : EnergyUpdate} {t : Nat} (h : s.storesOk) : nextStoresOk (execEnergyUpdate u t s) := by
  unfold execEnergyUpdate
  split
  · exact h
  extract_lets
  split
  · exact h.paceTo
  · exact h.paceTo.same rfl

theorem nextStoresOk_execTileControllerWatchdog {tile : Tile} {fault : TileFault}
    (h : s.storesOk) : nextStoresOk (execTileControllerWatchdog tile fault s) := by
  unfold execTileControllerWatchdog
  split
  · exact h
  split
  · exact h
  · exact h.isolateNow
  · exact h.internalError
  · exact h.halt

theorem nextStoresOk_execHubWatchdog (h : s.storesOk) : nextStoresOk (execHubWatchdog s) := by
  unfold execHubWatchdog
  split
  · exact h
  · exact h.coldReset

theorem nextStoresOk_execStressUpdate {temps : List Int} (h : s.storesOk) : nextStoresOk (execStressUpdate temps s) := by
  unfold execStressUpdate
  split
  · exact h
  · exact h.mapIslands

theorem nextStoresOk_execLifetimeRecordWrite {fails : Nat} (h : s.storesOk) : nextStoresOk (execLifetimeRecordWrite fails s) := by
  unfold execLifetimeRecordWrite
  split
  · exact h
  · exact h.writeLifetime

theorem nextStoresOk_execEventRecord {e : Event} (h : s.storesOk) : nextStoresOk (execEventRecord e s) := by
  unfold execEventRecord
  extract_lets _ _ o
  have ho : o.storesOk := by
    unfold o
    split
    · exact h.tansyOut
    · exact h.tansyOut.drain ..
  split
  · exact h.setTansy (ho.withTansy _)
  · exact h.setTansy ⟨ho.flash, regAdd_wf _ _ _ ho.regs⟩

theorem nextStoresOk_execBackgroundRebuild (h : s.storesOk) : nextStoresOk (execBackgroundRebuild s) := by
  unfold execBackgroundRebuild
  split
  · exact h
  extract_lets _ s₁ _ s₂
  have h₁ : s₁.storesOk := .ite h.repairEvents h
  have h₂ : s₂.storesOk := h₁.same rfl
  split
  · exact h₂
  · exact h₂.swapTables

theorem nextStoresOk_exec (i : Instr) (h : s.storesOk) : nextStoresOk (exec i s) := by
  cases i with
  | modPwrEnRise => exact nextStoresOk_execModPwrEnRise h
  | modPwrEnFall => exact nextStoresOk_execModPwrEnFall h
  | inputUndervoltage => exact nextStoresOk_execInputUndervoltage h
  | brownoutRide => exact nextStoresOk_execBrownoutRide h
  | modResetNLow => exact nextStoresOk_execModResetNLow h
  | modResetNHigh => exact h.atWall.withPins
  | modWarmN => exact nextStoresOk_execModWarmN h
  | leakTrip => exact nextStoresOk_execLeakTrip h
  | startUp => exact nextStoresOk_execStartUp h
  | startTimeout => exact nextStoresOk_execStartTimeout h
  | ethPortRetry => exact nextStoresOk_execEthPortRetry h
  | ethLinkChange => exact nextStoresOk_execEthLinkChange h
  | clearFaults => exact nextStoresOk_execClearFaults h
  | capability => exact h.smbRead
  | statusWord => exact h.smbRead
  | readVin => exact h.smbRead
  | readIin => exact h.smbRead
  | readTemperature1 => exact h.smbRead
  | readTemperature2 => exact h.smbRead
  | readTemperature3 => exact h.smbRead
  | readPin => exact h.smbRead
  | pmbusRevision => exact h.smbRead
  | mfrId => exact h.smbRead
  | mfrModel => exact h.smbRead
  | mfrSerial => exact h.smbRead
  | mfrPowerState => exact h.smbRead
  | mfrLeak => exact h.smbRead
  | mfrReady => exact h.smbRead
  | mfrGeoFingerprint => exact h.smbRead
  | mfrSlot => exact h.smbRead
  | smbusOtherWrite => exact nextStoresOk_execSmbusOtherWrite h
  | smbusAlertResponse => exact h.emit
  | fruEepromRead => exact h.emit
  | bypass => exact nextStoresOk_execBypass h
  | idcode => exact nextStoresOk_execIdcode h
  | samplePreload => exact nextStoresOk_execSamplePreload h
  | extest => exact h.extest
  | extestPulse => exact h.extest
  | extestTrain => exact h.extest
  | unitTestInstruction unit => exact nextStoresOk_execUnitTestInstruction (unit := unit) h
  | unlockChallenge => exact nextStoresOk_execUnlockChallenge h
  | unlockToken => exact nextStoresOk_execUnlockToken h
  | trstN => exact nextStoresOk_execTrstN h
  | instructionFetch => exact h.fetch
  | tld => exact h.issue
  | mma => exact h.issue
  | gmm => exact h.issue
  | tcv => exact h.issue
  | slotWriteComplete => exact nextStoresOk_execSlotWriteComplete h
  | vch => exact h.issue
  | trd => exact h.issue
  | rwf => exact h.issue
  | rwb => exact h.issue
  | dmv => exact nextStoresOk_execDmv h
  | dmvComplete => exact nextStoresOk_execDmvComplete h
  | syn => exact nextStoresOk_execSyn h
  | hold => exact nextStoresOk_execHold h
  | stlOpen => exact nextStoresOk_execStlOpen h
  | stlOffer => exact h.stlSimple
  | stlWithdraw => exact h.stlSimple
  | steal => exact nextStoresOk_execSteal h
  | treeAddition => exact nextStoresOk_execTreeAddition h
  | workItemStart => exact nextStoresOk_execWorkItemStart h
  | workItemComplete => exact nextStoresOk_execWorkItemComplete h
  | itemWatchdog => exact nextStoresOk_execItemWatchdog h
  | fillerPreempt => exact nextStoresOk_execFillerPreempt h
  | routeRequest => exact nextStoresOk_execRouteRequest h
  | placementBuild => exact nextStoresOk_execPlacementBuild h
  | biasUpdate => exact nextStoresOk_execBiasUpdate h
  | exchange => exact nextStoresOk_execExchange h
  | segment => exact nextStoresOk_execSegment h
  | alloc => exact h.vetchRequest
  | free => exact h.vetchRequest
  | share => exact h.vetchRequest
  | release => exact h.vetchRequest
  | collSetup => exact h.runQueued fun h => h.collSetup.finishWith
  | collRemove => exact h.runQueued fun h => h.collRemove.finishWith
  | rankValueReady => exact nextStoresOk_execRankValueReady h
  | contributionHeader => exact nextStoresOk_execContributionHeader h
  | bucketDeadline => exact nextStoresOk_execBucketDeadline h
  | mask => exact nextStoresOk_execMask h
  | contributionData => exact nextStoresOk_execContributionData h
  | paramGather => exact nextStoresOk_execParamGather h
  | gatherShard => exact nextStoresOk_execGatherShard h
  | permute => exact nextStoresOk_execPermute h
  | prepare => exact nextStoresOk_execPrepare h
  | confirm => exact h.rootHears
  | fail => exact h.rootHears
  | sealTimeout => exact nextStoresOk_execSealTimeout h
  | commit => exact nextStoresOk_execCommit h
  | abort => exact nextStoresOk_execAbort h
  | sealDecisionTimeout => exact nextStoresOk_execSealDecisionTimeout h
  | sealRootLost => exact nextStoresOk_execSealRootLost h
  | patrolScrub => exact nextStoresOk_execPatrolScrub h
  | dramRefresh => exact nextStoresOk_execDramRefresh h
  | certReq => exact h.ctrlIn fun h => h.sendUnauth
  | openId => exact h.ctrlIn fun h => h.same rfl
  | openKey => exact nextStoresOk_execOpenKey h
  | close => exact h.numberedIn
  | ack => exact h.authIn fun h => h
  | keepalive => exact h.numberedIn
  | timeSet => exact h.numberedIn
  | command => exact h.numberedIn
  | retransmit => exact nextStoresOk_execRetransmit h
  | cmpIdleTimeout => exact nextStoresOk_execCmpIdleTimeout h
  | ingestData => exact nextStoresOk_execIngestData h
  | credit => exact nextStoresOk_execCredit h
  | pfcFrame => exact nextStoresOk_execPfcFrame h
  | icmpEcho => exact nextStoresOk_execIcmpEcho h
  | neighbourResolution => exact nextStoresOk_execNeighbourResolution h
  | sessList => exact h.runImmediate h.sessList
  | sessEnd => exact h.runImmediate h.sessEnd
  | attest => exact h.runImmediate h.attest
  | loadPartition => exact nextStoresOk_execLoadPartition h
  | unload => exact h.runQueued fun h => h.tryStop
  | loadWrite => exact h.runQueued fun h => .ite h.writeMem.complete h.complete
  | loadFromStream => exact h.runQueued fun h => h.loadFromStream
  | streamOpen => exact h.runQueued fun h => h.streamOpen.finishWith
  | streamClose => exact h.runQueued fun h => h.streamClose.finishWith
  | jobStart => exact h.runQueued fun h => h.jobStart.finishWith
  | jobPause => exact h.runQueued fun h => h.tryPause
  | jobResume => exact h.runQueued fun h => h.jobResume.finishWith
  | jobStop => exact h.runQueued fun h => h.tryStop
  | stepRun => exact nextStoresOk_execStepRun h
  | placeStage => exact h.runQueued fun h => h.placeStage.finishWith
  | pwrSetState => exact h.runQueued fun h => h.tryPower
  | resetCold => exact h.runQueued fun h => h.complete.coldReset
  | resetWarm => exact h.runQueued fun h => h.complete.requestWarm
  | tileIsolate => exact h.runQueued fun h => .ite h.complete h.isolateTile.complete.endFailed.settle
  | regRead => exact h.runImmediate h.regRead
  | regWrite => exact h.runImmediate h.regWrite
  | lnkHold => exact h.runImmediate h.regWrite
  | evtRateWindow => exact h.runImmediate h.regWrite
  | evtRateDefault => exact h.runImmediate h.regWrite
  | evtRateOverride => exact h.runImmediate h.regWrite
  | cfgStage => exact h.runQueued fun h => h.cfgStage.finishWith
  | updBegin => exact h.runQueued fun h => h.updBegin.finishWith
  | updData => exact h.runQueued fun h => h.updData.finishWith
  | updActivate => exact h.runQueued fun h => h.updActivate.finishWith
  | updAbort => exact h.runQueued fun h => h.updAbort.finishWith
  | jnlRead => exact h.runImmediate h.jnlReadCmd
  | jnlOutstanding => exact h.runImmediate h.jnlOutstanding
  | jnlResult => exact h.runImmediate h.jnlResult
  | evtRead => exact h.runImmediate h.evtRead
  | evtCursor => exact h.runImmediate h.evtCursor
  | codeword => exact nextStoresOk_execCodeword h
  | linkPacket => exact nextStoresOk_execLinkPacket h
  | ackStall => exact nextStoresOk_execAckStall h
  | linkRetrain => exact nextStoresOk_execLinkRetrain h
  | linkDown => exact nextStoresOk_execLinkDown h
  | portDownRetry => exact nextStoresOk_execPortDownRetry h
  | weakLane => exact nextStoresOk_execWeakLane h
  | railSample => exact nextStoresOk_execRailSample h
  | islandSensor => exact nextStoresOk_execIslandSensor h
  | boost => exact nextStoresOk_execBoost h
  | powerCeiling => exact nextStoresOk_execPowerCeiling h
  | energyUpdate => exact nextStoresOk_execEnergyUpdate h
  | tileControllerWatchdog => exact nextStoresOk_execTileControllerWatchdog h
  | hubWatchdog => exact nextStoresOk_execHubWatchdog h
  | stressUpdate => exact nextStoresOk_execStressUpdate h
  | lifetimeRecordWrite => exact nextStoresOk_execLifetimeRecordWrite h
  | eventRecord => exact nextStoresOk_execEventRecord h
  | eventSummary => exact h.at.closeRate
  | modWarmNHigh => exact h.atWall.withPins
  | backgroundRebuild => exact nextStoresOk_execBackgroundRebuild h
  | pfcPauseExpiry => exact h.at.setEth.flushPaused

theorem nextStoresOk_step (h : s.storesOk) : nextStoresOk (step s) := by
  unfold step
  split
  · exact h.idle
  · exact nextStoresOk_exec _ (h.same rfl)

end

/-- Settles O3: one rule per operation, put together command by command. -/
theorem stepKeepsStores : Obligations.StepKeepsStores := by
  unfold Obligations.StepKeepsStores
  intro s t h e
  have hn := nextStoresOk_step h
  rw [e] at hn
  exact hn

/-! The reset state. -/

theorem State.reset_readMem (a n : Nat) : State.reset.readMem a n = List.replicate n 0 := by
  change bytesAt 0 [] a n = _
  simp [bytesAt]

/-- Settles O4: the stores of the reset state are empty. -/
theorem resetStoresCanonical : Obligations.ResetStoresCanonical := ⟨State.reset_storesOk, State.reset_readMem⟩

end Sys2Proof.Machine
end

section
/-! SUPPORT for the upkeep of memory, flash and tables (spec/09 R278 to R284, R558 to R568): what a recorded event can change, and the end state of each
command. -/

namespace Sys2Proof.Machine

open Sys2Proof

/-! What recording an event changes. -/

/-- `u` differs from `s` at most in what recording an event changes. -/
structure State.Recorded (s u : State) : Prop where
  eq : u = { s with tansy := u.tansy, flash0 := u.flash0, regs := u.regs }

section

variable {s t u : State}

theorem State.Recorded.refl : s.Recorded s := ⟨rfl⟩

theorem State.Recorded.trans (h : s.Recorded t) (h' : t.Recorded u) : s.Recorded u := by
  have e := h'.eq
  rw [h.eq] at e
  exact ⟨e⟩

theorem State.Recorded.note {st : Status} {args : List Nat} (h : s.Recorded t) : s.Recorded (t.note st args) := h.trans ⟨rfl⟩

theorem State.Recorded.count {k n : Nat} (h : s.Recorded t) : s.Recorded (t.count k n) := h.trans ⟨rfl⟩

theorem State.recorded_repairEvents (s : State) (n : Nat) : s.Recorded (s.repairEvents n) := by
  unfold State.repairEvents
  generalize s.lif.pendingRepairs.drop n = ws
  suffices ∀ t, s.Recorded t → s.Recorded (ws.foldl (fun s w => s.note .dramRepair [w.toNat]) t) from this s .refl
  induction ws with
  | nil => exact fun _ h => h
  | cons w ws ih => exact fun _ h => ih _ h.note

theorem State.Recorded.lif (h : s.Recorded u) : u.lif = s.lif := (congrArg State.lif h.eq :)

theorem State.Recorded.flash1 (h : s.Recorded u) : u.flash1 = s.flash1 := (congrArg State.flash1 h.eq :)

end

/-! PATROL_SCRUB (R278, R280). -/

theorem mem_insertBy {α : Type} (lt : α → α → Bool) (a x : α) (l : List α) : x ∈ insertBy lt a l ↔ x = a ∨ x ∈ l := by
  induction l with
  | nil => simp [insertBy]
  | cons b l ih =>
    unfold insertBy
    split
    · simp
    · simp only [List.mem_cons, ih]
      exact or_left_comm

theorem State.mem_marks_mark (s : State) (a w : Nat) : w ∈ (s.mark [a]).keep.marks ↔ w = a ∨ w ∈ s.keep.marks := by
  change w ∈ (if s.keep.marks.contains a then s.keep.marks else insertBy (· < ·) a s.keep.marks) ↔ _
  split
  · rename_i ha
    have ha : a ∈ s.keep.marks := by simpa using ha
    exact ⟨.inr, fun h => h.elim (fun e => e ▸ ha) id⟩
  · exact mem_insertBy ..

theorem State.corrected_eq (s : State) (a : Nat) : s.corrected a = { s with
    lif := (s.corrected a).lif, tansy := (s.corrected a).tansy, flash0 := (s.corrected a).flash0, regs := (s.corrected a).regs } := by
  unfold State.corrected
  split
  split <;> rfl

theorem State.uncorrectable_eq (s : State) (a : Nat) :
    s.uncorrectable a = { s with keep := (s.mark [a]).keep, lif := (s.uncorrectable a).lif } := by
  unfold State.uncorrectable
  split <;> rfl

/-- The scrub of the memory that holds `a` moves past it. -/
def State.scrubPast (s : State) (a : Nat) : State :=
  let dram := decide (a < 0x00A000000000)
  let next := a + (if dram then 64 else 8)
  { s with keep := { s.keep with
      scrubDram := if dram then next else s.keep.scrubDram, scrubStore := if dram then s.keep.scrubStore else next } }

theorem State.scrubPast_keep_dram (s : State) {a : Nat} (h : a < 0x00A000000000) : (s.scrubPast a).keep = { s.keep with scrubDram := a + 64 } := by
  simp [State.scrubPast, h]

theorem State.scrubPast_keep_store (s : State) {a : Nat} (h : 0x00A000000000 ≤ a) : (s.scrubPast a).keep = { s.keep with scrubStore := a + 8 } := by
  simp [State.scrubPast, Nat.not_lt.mpr h]

/-- The word scrubbed, before a word of a tile's firmware takes the tile out of service. -/
def State.scrubbed (s : State) (a : Nat) : ScrubFound → State
  | .clean => s.scrubPast a
  | .correctable | .overtaken => (s.scrubPast a).corrected a
  | .uncorrectable => (s.scrubPast a).uncorrectable a

theorem exec_patrolScrub {a : Nat} {f : ScrubFound} {s : State} (hup : s.up = true) (hw : scrubWord a = true) (ht : s.tileIn (wordTile a) = true) :
    exec (.patrolScrub a f) s =
      .next (if f = .uncorrectable ∧ firmwareWord a = true then (s.scrubbed a f).isolateNow (wordTile a) else s.scrubbed a f) := by
  change execPatrolScrub a f s = _
  have hin : ¬(!s.up ∨ !scrubWord a ∨ !s.tileIn (wordTile a)) := by simp [hup, hw, ht]
  unfold execPatrolScrub
  rw [if_neg hin]
  cases f with
  | uncorrectable => simp only [true_and]; rfl
  | clean => rfl
  | correctable => rfl
  | overtaken => rfl

theorem State.scrubbed_eq (s : State) (a : Nat) (f : ScrubFound) : s.scrubbed a f = { s with
    keep := (s.scrubbed a f).keep, lif := (s.scrubbed a f).lif, tansy := (s.scrubbed a f).tansy
    flash0 := (s.scrubbed a f).flash0, regs := (s.scrubbed a f).regs } := by
  cases f with
  | clean => rfl
  | correctable => unfold State.scrubbed; rw [State.corrected_eq]; rfl
  | overtaken => unfold State.scrubbed; rw [State.corrected_eq]; rfl
  | uncorrectable => unfold State.scrubbed; rw [State.uncorrectable_eq]; rfl

/-- What a scrub leaves of the scrub's places and the marks: the places moved on, and the marks of the word. -/
theorem State.scrubbed_keep (s : State) (a : Nat) (f : ScrubFound) :
    (s.scrubbed a f).keep = if f = .uncorrectable then ((s.scrubPast a).mark [a]).keep else (s.scrubPast a).keep := by
  cases f with
  | clean => rfl
  | correctable => exact (congrArg State.keep (State.corrected_eq (s.scrubPast a) a) :)
  | overtaken => exact (congrArg State.keep (State.corrected_eq (s.scrubPast a) a) :)
  | uncorrectable => exact (congrArg State.keep (State.uncorrectable_eq (s.scrubPast a) a) :)

theorem State.scrubbed_places (s : State) (a : Nat) (f : ScrubFound) :
    (s.scrubbed a f).keep.scrubDram = (s.scrubPast a).keep.scrubDram ∧ (s.scrubbed a f).keep.scrubStore = (s.scrubPast a).keep.scrubStore := by
  rw [State.scrubbed_keep]
  split
  · exact ⟨rfl, rfl⟩
  · exact ⟨rfl, rfl⟩

theorem exec_patrolScrub_leaves (a : Nat) (f : ScrubFound) (s : State) (hup : s.up = true) (hw : scrubWord a = true)
    (ht : s.tileIn (wordTile a) = true) :
    ∃ u : State, exec (.patrolScrub a f) s = .next (if f = .uncorrectable ∧ firmwareWord a = true then u.isolateNow (wordTile a) else u) ∧
      u = { s with keep := u.keep, lif := u.lif, tansy := u.tansy, flash0 := u.flash0, regs := u.regs } ∧
      (a < 0x00A000000000 → u.keep.scrubDram = a + 64 ∧ u.keep.scrubStore = s.keep.scrubStore) ∧
      (0x00A000000000 ≤ a → u.keep.scrubStore = a + 8 ∧ u.keep.scrubDram = s.keep.scrubDram) ∧
      (f = .uncorrectable → ∀ w, w ∈ u.keep.marks ↔ w = a ∨ w ∈ s.keep.marks) ∧ (f ≠ .uncorrectable → u.keep.marks = s.keep.marks) ∧
      (f = .clean → u.lif = s.lif ∧ u.tansy = s.tansy) := by
  obtain ⟨hd, hst⟩ := s.scrubbed_places a f
  refine ⟨s.scrubbed a f, exec_patrolScrub hup hw ht, s.scrubbed_eq a f, fun h => ?_, fun h => ?_, fun h w => ?_, fun h => ?_, fun h => ?_⟩
  · rw [hd, hst, s.scrubPast_keep_dram h]
    exact ⟨rfl, rfl⟩
  · rw [hd, hst, s.scrubPast_keep_store h]
    exact ⟨rfl, rfl⟩
  · rw [s.scrubbed_keep, if_pos h]
    exact State.mem_marks_mark ..
  · rw [s.scrubbed_keep, if_neg h]
    rfl
  · subst h
    exact ⟨rfl, rfl⟩

/-! DRAM_REFRESH (R282) and STRESS_UPDATE (R565). -/

theorem modifyAt_eq_modify {α : Type} (l : List α) (i : Nat) (f : α → α) : modifyAt l i f = l.modify i f := by
  induction l generalizing i with
  | nil => cases i <;> rfl
  | cons a l ih =>
    cases i with
    | zero => rfl
    | succ i => simp [modifyAt, ih]

theorem exec_dramRefresh_leaves (k : Nat) (s : State) (hp : s.pins.pgood = true) (hk : k < s.power.stackList.length) :
    ∃ u, exec (.dramRefresh k) s = .next u ∧ u = { s with power := { s.power with stackList := u.power.stackList } } ∧
      (u.power.stackList.getD k ⟨0, false, 0⟩) =
        { s.power.stackList.getD k ⟨0, false, 0⟩ with refreshes := (s.power.stackList.getD k ⟨0, false, 0⟩).refreshes + 1 } ∧
      ∀ j, j ≠ k → u.power.stackList[j]? = s.power.stackList[j]? := by
  have he : exec (.dramRefresh k) s = execDramRefresh k s := rfl
  rw [he, execDramRefresh, if_neg (by simp [hp])]
  refine ⟨_, rfl, rfl, ?_, fun j hj => ?_⟩
  · simp [modifyAt_eq_modify, List.getD_eq_getElem?_getD, hk]
  · simp [modifyAt_eq_modify, hj.symm]

theorem State.mapIslands_getD (s : State) (f : Nat → Island → Island) {k : Nat} (hk : k < s.power.islands.length) :
    (s.mapIslands f).power.islands.getD k Island.reset = f k (s.power.islands.getD k Island.reset) := by
  simp [State.mapIslands, List.getD_eq_getElem?_getD, hk]

theorem exec_stressUpdate_leaves (temps : List Int) (s : State) (hp : s.pins.pgood = true) :
    ∃ u, exec (.stressUpdate temps) s = .next u ∧ u = { s with power := { s.power with islands := u.power.islands } } ∧
      u.power.islands.length = s.power.islands.length ∧
      ∀ k < s.power.islands.length, let i := s.power.islands.getD k Island.reset
        u.power.islands.getD k Island.reset =
          if k < temps.length then
            { i with stress := i.stress + stressHour (temps.getD k 0), wear := min 255 ((i.stress + stressHour (temps.getD k 0)) / (350 * 1024)) }
          else i := by
  have he : exec (.stressUpdate temps) s = execStressUpdate temps s := rfl
  rw [he, execStressUpdate, if_neg (by simp [hp])]
  refine ⟨_, rfl, rfl, ?_, fun k hk => ?_⟩
  · simp [State.mapIslands]
  · exact State.mapIslands_getD s _ hk

/-! LIFETIME_RECORD_WRITE (R567, R568). -/

/-- The state whose lifetime counts the next record holds: power-on time brought up to now, the next sequence number. -/
def State.beginRecord (s : State) : State :=
  { s with lif := { s.lif with
      powerOn := s.powerOnNow, powerOnAt := s.lif.powerOnAt + (s.counter - s.lif.powerOnAt) / 1000000000 * 1000000000
      writeSeq := s.lif.writeSeq + 1 } }

/-- The flash slot of the record last begun. -/
def State.recordSlot (s : State) : Nat := flLifetime + 0x20000 * (s.lif.writeSeq % 128)

/-- Whole seconds moved from the running count into the stored one leave the power-on time. -/
theorem State.powerOnNow_beginRecord (s : State) : s.beginRecord.powerOnNow = s.powerOnNow := by
  change s.lif.powerOn + (s.counter - s.lif.powerOnAt) / 1000000000
      + (s.counter - (s.lif.powerOnAt + (s.counter - s.lif.powerOnAt) / 1000000000 * 1000000000)) / 1000000000
    = s.lif.powerOn + (s.counter - s.lif.powerOnAt) / 1000000000
  omega

theorem State.writeLifetimeOnce_true (s : State) : s.writeLifetimeOnce true = { s.beginRecord with
    flash1 := flashWrite (flashErase s.flash1 s.beginRecord.recordSlot 0x20000) s.beginRecord.recordSlot
      (s.beginRecord.lifetimeBody ++ hmac256 s.sec.recKey s.beginRecord.lifetimeBody)
    lif := { s.beginRecord.lif with lastWrite := s.counter } } := rfl

theorem State.writeLifetimeOnce_false (s : State) :
    State.Recorded { s.beginRecord with flash1 := flashErase s.flash1 s.beginRecord.recordSlot 0x20000 } (s.writeLifetimeOnce false) :=
  State.Recorded.refl.count.note

/-- `u` differs from `s` at most in what record writes change, and the power-on time is the same. -/
structure State.RecordWritten (s u : State) : Prop where
  eq : u = { s with
    lif := { s.lif with powerOn := u.lif.powerOn, powerOnAt := u.lif.powerOnAt, writeSeq := u.lif.writeSeq, lastWrite := u.lif.lastWrite }
    flash1 := u.flash1, tansy := u.tansy, flash0 := u.flash0, regs := u.regs }
  powerOnNow : u.powerOnNow = s.powerOnNow

section

variable {s t u : State}

theorem State.RecordWritten.refl : s.RecordWritten s := ⟨rfl, rfl⟩

theorem State.RecordWritten.trans (h : s.RecordWritten t) (h' : t.RecordWritten u) : s.RecordWritten u := by
  have e := h'.eq
  rw [h.eq] at e
  exact ⟨e, h'.powerOnNow.trans h.powerOnNow⟩

theorem State.RecordWritten.counter (h : s.RecordWritten u) : u.counter = s.counter := (congrArg State.counter h.eq :)

theorem State.RecordWritten.sec (h : s.RecordWritten u) : u.sec = s.sec := (congrArg State.sec h.eq :)

end

theorem State.recordWritten_once_true (s : State) : s.RecordWritten (s.writeLifetimeOnce true) := ⟨rfl, s.powerOnNow_beginRecord⟩

theorem State.recordWritten_once_false (s : State) : s.RecordWritten (s.writeLifetimeOnce false) := by
  have h := s.writeLifetimeOnce_false
  refine ⟨?_, ?_⟩
  · rw [h.eq]
    rfl
  · rw [h.eq]
    exact s.powerOnNow_beginRecord

/-- The write with its retries is, after the failed ones, one that reads back right. -/
theorem State.writeLifetime_last (n : Nat) {s : State} (hf : Sparse.wf 0xFF s.flash1 = true) :
    ∃ t, State.writeLifetime n s = t.writeLifetimeOnce true ∧ s.RecordWritten t ∧ t.lif.writeSeq = s.lif.writeSeq + n ∧
      Sparse.wf 0xFF t.flash1 = true ∧ (n = 0 → t = s) := by
  induction n generalizing s with
  | zero => exact ⟨s, rfl, .refl, rfl, hf, fun _ => rfl⟩
  | succ n ih =>
    have h := s.writeLifetimeOnce_false
    have hf' : Sparse.wf 0xFF (s.writeLifetimeOnce false).flash1 = true := by
      rw [h.flash1]
      exact flashErase_wf _ _ _ hf
    obtain ⟨t, ht, hw, hq, hft, -⟩ := ih hf'
    refine ⟨t, ht, s.recordWritten_once_false.trans hw, ?_, hft, fun h => absurd h (Nat.succ_ne_zero n)⟩
    rw [hq, h.lif]
    change s.lif.writeSeq + 1 + n = _
    omega

theorem State.lifetimeBody_head (s : State) : ∃ rest, s.lifetimeBody = leBytes 4 0x59574C46 ++ (leBytes 4 1 ++ (leBytes 8 s.lif.writeSeq ++ rest)) := by
  unfold State.lifetimeBody
  simp only [List.append_assoc]
  exact ⟨_, rfl⟩

theorem State.lifetimeBody_magic (s : State) : s.lifetimeBody.take 4 = leBytes 4 0x59574C46 := by
  obtain ⟨rest, h⟩ := s.lifetimeBody_head
  rw [h, List.take_left' (leBytes_length ..)]

theorem State.lifetimeBody_seq (s : State) : slice s.lifetimeBody 8 8 = leBytes 8 s.lif.writeSeq := by
  obtain ⟨rest, h⟩ := s.lifetimeBody_head
  rw [slice, h, ← List.append_assoc, List.drop_left' (by simp), List.take_left' (leBytes_length ..)]

theorem State.flashRead_record {s : State} (hf : Sparse.wf 0xFF s.flash1 = true) :
    let body := s.beginRecord.lifetimeBody ++ hmac256 s.sec.recKey s.beginRecord.lifetimeBody
    flashRead (s.writeLifetimeOnce true).flash1 (flLifetime + 0x20000 * ((s.writeLifetimeOnce true).lif.writeSeq % 128)) body.length = body := by
  intro body
  rw [s.writeLifetimeOnce_true]
  exact bytesAt_bytesPut _ _ _ _ (flashErase_wf _ _ _ hf)

theorem exec_lifetimeRecordWrite_leaves (n : Nat) (s : State) (hs : s.storesOk) (hup : s.up = true) :
    ∃ u, exec (.lifetimeRecordWrite n) s = .next u ∧ u.lif.writeSeq = s.lif.writeSeq + n + 1 ∧ u.lif.lastWrite = s.counter ∧
      u = { s with lif := { s.lif with powerOn := u.lif.powerOn, powerOnAt := u.lif.powerOnAt, writeSeq := u.lif.writeSeq, lastWrite := u.lif.lastWrite }
                   flash1 := u.flash1, tansy := u.tansy, flash0 := u.flash0, regs := u.regs } ∧
      u.powerOnNow = s.powerOnNow ∧
      (n = 0 → u.tansy = s.tansy ∧ u.flash0 = s.flash0 ∧ u.regs = s.regs) ∧
      ∃ body : List Byte, flashRead u.flash1 (flLifetime + 0x20000 * (u.lif.writeSeq % 128)) (body ++ hmac256 s.sec.recKey body).length
        = body ++ hmac256 s.sec.recKey body ∧ body.take 4 = leBytes 4 0x59574C46 ∧ slice body 8 8 = leBytes 8 u.lif.writeSeq := by
  obtain ⟨t, ht, hst, hq, hf, h0⟩ := State.writeLifetime_last n hs.flash1
  have hw := hst.trans t.recordWritten_once_true
  have he : exec (.lifetimeRecordWrite n) s = execLifetimeRecordWrite n s := rfl
  rw [he, execLifetimeRecordWrite, if_neg (by simp [hup]), ht, ← hq]
  refine ⟨_, rfl, rfl, hst.counter, hw.eq, hw.powerOnNow, fun hn => ?_, t.beginRecord.lifetimeBody, ?_,
    State.lifetimeBody_magic _, State.lifetimeBody_seq _⟩
  · rw [h0 hn]
    exact ⟨rfl, rfl, rfl⟩
  · rw [← hst.sec]
    exact State.flashRead_record hf

/-! BACKGROUND_REBUILD (R563, R564). -/

/-- The spare map takes its PENDING value, and the swap is recorded. -/
def State.spareMoved (s : State) : State :=
  ({ s with lif := { s.lif with spareMap := s.lif.pendingMap, spareGen := s.lif.spareGen + 1, spareBuild := .idle } } : State).note
    .tableSwapped [0, s.lif.spareGen + 1]

/-- The record that a swap writes, and its time. -/
def State.swapWritten (s : State) : State :=
  { State.writeLifetime 0 s with lif := { (State.writeLifetime 0 s).lif with lastSwapWrite := (State.writeLifetime 0 s).counter } }

/-- The spare map's part of a swap: it takes its PENDING value when that is ready. -/
def State.swapSpare (s : State) : State :=
  if s.lif.spareBuild = .ready then
    if s.spareMoved.lif.lastSwapWrite + 60000000000 ≤ s.spareMoved.counter ∨ s.spareMoved.lif.lastSwapWrite = 0 then s.spareMoved.swapWritten
    else s.spareMoved
  else s

/-- The repairs take their PENDING value. -/
def Lifetime.repairsMoved (l : Lifetime) : Lifetime :=
  { l with repairs := l.pendingRepairs, repairGen := l.repairGen + 1, repairBuild := .idle }

/-- The repairs' part of a swap: they take their PENDING value when it is ready. -/
def State.swapRepairs (s : State) : State :=
  if s.lif.repairBuild = .ready then
    ({ s.repairEvents s.lif.repairs.length with lif := (s.repairEvents s.lif.repairs.length).lif.repairsMoved } : State).note .tableSwapped
      [1, (s.repairEvents s.lif.repairs.length).lif.repairsMoved.repairGen]
  else s

theorem State.swapTables_eq (s : State) : s.swapTables = s.swapSpare.swapRepairs := rfl

/-- `u` holds the partitions, memory, fingerprint and cores of `s`. -/
structure State.RunKept (s u : State) : Prop where
  parts : u.parts = s.parts
  mem : u.mem = s.mem
  fp : u.fp = s.fp
  cores : u.cores = s.cores

section

variable {s t u : State}

theorem State.RunKept.refl : s.RunKept s := ⟨rfl, rfl, rfl, rfl⟩

theorem State.RunKept.trans (h : s.RunKept t) (h' : t.RunKept u) : s.RunKept u :=
  ⟨h'.parts.trans h.parts, h'.mem.trans h.mem, h'.fp.trans h.fp, h'.cores.trans h.cores⟩

theorem State.Recorded.runKept (h : s.Recorded u) : s.RunKept u :=
  ⟨(congrArg State.parts h.eq :), (congrArg State.mem h.eq :), (congrArg State.fp h.eq :), (congrArg State.cores h.eq :)⟩

end

theorem State.runKept_swapSpare (s : State) : s.RunKept s.swapSpare := by
  unfold State.swapSpare
  split
  · split
    · exact ⟨rfl, rfl, rfl, rfl⟩
    · exact ⟨rfl, rfl, rfl, rfl⟩
  · exact .refl

theorem State.runKept_swapRepairs (s : State) : s.RunKept s.swapRepairs := by
  unfold State.swapRepairs
  split
  · exact (s.recorded_repairEvents s.lif.repairs.length).runKept.trans ⟨rfl, rfl, rfl, rfl⟩
  · exact .refl

theorem State.swapSpare_spare (s : State) :
    s.swapSpare.lif.spareMap = (if s.lif.spareBuild = .ready then s.lif.pendingMap else s.lif.spareMap) ∧
      s.swapSpare.lif.spareGen = (if s.lif.spareBuild = .ready then s.lif.spareGen + 1 else s.lif.spareGen) ∧
      s.swapSpare.lif.spareBuild = (if s.lif.spareBuild = .ready then .idle else s.lif.spareBuild) := by
  unfold State.swapSpare
  split
  · split
    · exact ⟨rfl, rfl, rfl⟩
    · exact ⟨rfl, rfl, rfl⟩
  · exact ⟨rfl, rfl, rfl⟩

theorem State.swapSpare_repairs (s : State) :
    s.swapSpare.lif.repairs = s.lif.repairs ∧ s.swapSpare.lif.pendingRepairs = s.lif.pendingRepairs ∧
      s.swapSpare.lif.repairGen = s.lif.repairGen ∧ s.swapSpare.lif.repairBuild = s.lif.repairBuild := by
  unfold State.swapSpare
  split
  · split
    · exact ⟨rfl, rfl, rfl, rfl⟩
    · exact ⟨rfl, rfl, rfl, rfl⟩
  · exact ⟨rfl, rfl, rfl, rfl⟩

theorem State.swapRepairs_lif (s : State) : s.swapRepairs.lif = if s.lif.repairBuild = .ready then s.lif.repairsMoved else s.lif := by
  unfold State.swapRepairs
  split
  · exact congrArg Lifetime.repairsMoved (s.recorded_repairEvents s.lif.repairs.length).lif
  · rfl

theorem State.swapTables_spare (s : State) :
    s.swapTables.lif.spareMap = (if s.lif.spareBuild = .ready then s.lif.pendingMap else s.lif.spareMap) ∧
      s.swapTables.lif.spareGen = (if s.lif.spareBuild = .ready then s.lif.spareGen + 1 else s.lif.spareGen) ∧
      s.swapTables.lif.spareBuild = (if s.lif.spareBuild = .ready then .idle else s.lif.spareBuild) := by
  rw [State.swapTables_eq, State.swapRepairs_lif]
  split
  · exact s.swapSpare_spare
  · exact s.swapSpare_spare

theorem State.swapTables_repairs (s : State) :
    s.swapTables.lif.repairs = (if s.lif.repairBuild = .ready then s.lif.pendingRepairs else s.lif.repairs) ∧
      s.swapTables.lif.repairGen = (if s.lif.repairBuild = .ready then s.lif.repairGen + 1 else s.lif.repairGen) ∧
      s.swapTables.lif.repairBuild = (if s.lif.repairBuild = .ready then .idle else s.lif.repairBuild) := by
  obtain ⟨hr, hp, hg, hb⟩ := s.swapSpare_repairs
  rw [State.swapTables_eq, State.swapRepairs_lif, hb]
  split
  · exact ⟨hp, congrArg (· + 1) hg, rfl⟩
  · exact ⟨hr, hg, hb⟩

/-- A table being built is ready next. -/
def Build.built (b : Build) : Build := if b = .building then .ready else b

/-- The tables being built are ready. -/
def Lifetime.tablesBuilt (l : Lifetime) : Lifetime := { l with spareBuild := l.spareBuild.built, repairBuild := l.repairBuild.built }

/-- The repairs that were being built are recorded, and the tables are ready. -/
def State.tablesBuilt (s : State) : State :=
  let s := if s.lif.repairBuild = .building then s.repairEvents s.lif.repairs.length else s
  { s with lif := s.lif.tablesBuilt }

theorem State.recorded_tablesBuilt (s : State) : State.Recorded { s with lif := s.lif.tablesBuilt } s.tablesBuilt := by
  have h : s.Recorded (if s.lif.repairBuild = .building then s.repairEvents s.lif.repairs.length else s) := by
    split
    · exact s.recorded_repairEvents _
    · exact .refl
  exact ⟨congrArg (fun t : State => { t with lif := t.lif.tablesBuilt }) h.eq⟩

theorem State.runKept_tablesBuilt (s : State) : s.RunKept s.tablesBuilt := by
  have h := s.recorded_tablesBuilt.runKept
  exact ⟨h.parts, h.mem, h.fp, h.cores⟩

theorem exec_backgroundRebuild {s : State} (hup : s.up = true) :
    exec .backgroundRebuild s = .next (if s.mainRunning = true then s.tablesBuilt else s.tablesBuilt.swapTables) := by
  have hr : s.tablesBuilt.mainRunning = s.mainRunning := by
    unfold State.mainRunning
    rw [s.runKept_tablesBuilt.parts]
  have he : exec .backgroundRebuild s = execBackgroundRebuild s := rfl
  rw [he, execBackgroundRebuild, if_neg (by simp [hup]), ← hr]
  rfl

theorem Build.idle_after_swap (b : Build) : (if b.built = .ready then .idle else b.built) = Build.idle := by cases b <;> rfl

theorem Build.ite_built_ready {α : Type} (b : Build) (x y : α) : (if b.built = .ready then x else y) = if b = .idle then y else x := by
  cases b <;> rfl

/-- The tables after a swap: each that was built has its PENDING value and the next generation. -/
theorem State.swapTables_tablesBuilt (s : State) :
    let l := s.tablesBuilt.swapTables.lif
    l.spareMap = (if s.lif.spareBuild = .idle then s.lif.spareMap else s.lif.pendingMap) ∧
      l.spareGen = (if s.lif.spareBuild = .idle then s.lif.spareGen else s.lif.spareGen + 1) ∧
      l.repairs = (if s.lif.repairBuild = .idle then s.lif.repairs else s.lif.pendingRepairs) ∧
      l.repairGen = (if s.lif.repairBuild = .idle then s.lif.repairGen else s.lif.repairGen + 1) ∧
      l.spareBuild = .idle ∧ l.repairBuild = .idle := by
  obtain ⟨hm, hg, hb⟩ := s.tablesBuilt.swapTables_spare
  obtain ⟨hr, hrg, hrb⟩ := s.tablesBuilt.swapTables_repairs
  have hl : s.tablesBuilt.lif = s.lif.tablesBuilt := s.recorded_tablesBuilt.lif
  rw [hl] at hm hg hb hr hrg hrb
  exact ⟨hm.trans (Build.ite_built_ready ..), hg.trans (Build.ite_built_ready ..), hr.trans (Build.ite_built_ready ..),
    hrg.trans (Build.ite_built_ready ..), hb.trans (Build.idle_after_swap _), hrb.trans (Build.idle_after_swap _)⟩

theorem State.runKept_swapTables (s : State) : s.RunKept s.swapTables := s.runKept_swapSpare.trans s.swapSpare.runKept_swapRepairs

theorem exec_backgroundRebuild_leaves (s : State) (hup : s.up = true) :
    ∃ u, exec .backgroundRebuild s = .next u ∧ u.parts = s.parts ∧ u.mem = s.mem ∧ u.fp = s.fp ∧ u.cores = s.cores ∧
      (s.mainRunning = true →
        u.lif = { s.lif with spareBuild := if s.lif.spareBuild = .building then .ready else s.lif.spareBuild
                             repairBuild := if s.lif.repairBuild = .building then .ready else s.lif.repairBuild }) ∧
      (s.mainRunning = false →
        u.lif.spareMap = (if s.lif.spareBuild = .idle then s.lif.spareMap else s.lif.pendingMap) ∧
        u.lif.spareGen = (if s.lif.spareBuild = .idle then s.lif.spareGen else s.lif.spareGen + 1) ∧
        u.lif.repairs = (if s.lif.repairBuild = .idle then s.lif.repairs else s.lif.pendingRepairs) ∧
        u.lif.repairGen = (if s.lif.repairBuild = .idle then s.lif.repairGen else s.lif.repairGen + 1) ∧
        u.lif.spareBuild = .idle ∧ u.lif.repairBuild = .idle) := by
  have hb := s.runKept_tablesBuilt
  rw [exec_backgroundRebuild hup]
  by_cases hm : s.mainRunning = true
  · rw [if_pos hm]
    exact ⟨_, rfl, hb.parts, hb.mem, hb.fp, hb.cores, fun _ => s.recorded_tablesBuilt.lif, fun h => absurd hm (by simp [h])⟩
  · have hk := hb.trans s.tablesBuilt.runKept_swapTables
    rw [if_neg hm]
    exact ⟨_, rfl, hk.parts, hk.mem, hk.fp, hk.cores, fun h => absurd h hm, fun _ => s.swapTables_tablesBuilt⟩

/-- Settles O59: each command's end state is named above; the clauses are read off it. -/
theorem scrubRefreshStressAndRebuilds : Obligations.ScrubRefreshStressAndRebuilds :=
  ⟨exec_patrolScrub_leaves, exec_dramRefresh_leaves, exec_stressUpdate_leaves, exec_lifetimeRecordWrite_leaves, exec_backgroundRebuild_leaves⟩

end Sys2Proof.Machine
end
